-- ==== Sys2Proof/Word.lean ====
section
/-! DEFINITION. The word types of the block: the 32-bit register word, the byte, and the keyed
table that holds every numbered or sparse piece of state. -/
namespace Sys2Proof

/-- A 32-bit setup register or descriptor word (19 R416). -/
abbrev Word := BitVec 32

/-- A byte of an image, a frame or a buffer. -/
abbrev Byte := BitVec 8

/-- A sparse table of values under numbered keys. Canonical form: keys strictly rising, and no
entry equal to the value an unlisted key reads as (Machine/KMap.lean). -/
abbrev KMap (α : Type) := List (Nat × α)

end Sys2Proof
end

