-- ==== Sys2Proof/Syntax.lean ====
section
/-! DEFINITION. The commands of the block (spec/opcode_table.json), one constructor for every row,
and the data they carry: descriptors, frames, records and measured values. -/
namespace Sys2Proof

/-- A submission descriptor (15 Table 15-3): the queue pair it was fetched from, its sixteen words, and how often
that queue pair's host side had been reset when the host wrote it (15 R347). -/
structure Desc where
  /-- Queue pair, 0-95. -/
  qp : Nat
  /-- Words 0-15. -/
  words : List Word
  /-- Host-side resets of its queue pair before it (the model's own, log entry 35). -/
  era : Nat := 0
deriving DecidableEq, Repr

/-- A read by the host: its offset and its size in bytes (19 R416). -/
structure BarAccess where
  off : Nat
  size : Nat
deriving DecidableEq, Repr

/-- The command result the outside world hands back for host memory a command reads: the bytes at
the descriptor's host address. -/
abbrev HostBytes := List Byte

/-- A CAN frame (11 Table 11-5): identifier, FLAGS, data bytes. -/
structure CanFrame where
  id : Nat
  flags : Nat
  data : List Byte
deriving DecidableEq, Repr

/-- A priority vector of the best master clock algorithm: the grandmaster's attributes and identity, steps removed,
and the clock and port it comes from (IEEE 802.1AS-2020, which 11 R262 names). -/
structure PtpVector where
  priority1 : Nat
  clockClass : Nat
  accuracy : Nat
  variance : Nat
  priority2 : Nat
  gm : Nat
  steps : Nat
  source : Nat
  port : Nat
deriving DecidableEq, Repr

/-- A gPTP message: the identity of the clock that sends it, times in ns, the correction in ns. -/
inductive PtpBody where
  | announce (v : PtpVector)
  | sync (source : Nat)
  | followUp (source origin : Nat) (correction : Int)
  | pdelayReq (source : Nat)
  /-- The receipt time of the request. -/
  | pdelayResp (source receipt : Nat)
  /-- The time the response was sent. -/
  | pdelayRespFollowUp (source origin : Nat)
deriving DecidableEq, Repr

/-- The pointer classes of LDA and MVA (13 Table 13-3). -/
inductive PtrClass where
  | p | n | m | b
deriving DecidableEq, Repr

/-- An address field: mode 0-4 of Table 13-2 and pointer. -/
structure Am where
  mode : Fin 5
  p : Fin 8
deriving DecidableEq, Repr

/-- The conditions of SEL, codes 0-5. -/
inductive SelCond where
  | z | notZ | n | notN | nOrZ | neither
deriving DecidableEq, Repr

/-- The views of an accumulator that RDA reads. -/
inductive AccView where
  | limited | top | mid | bot
deriving DecidableEq, Repr

/-- An instruction word of the Voler set (13 Tables 13-3, 13-4), with its fields. -/
inductive Voler where
  | nop
  | loop (k : Bool) (len : Fin 128) (n : BitVec 16)
  | end_
  | ldi (d : Fin 16) (imm : BitVec 20)
  | ldih (d : Fin 16) (imm : BitVec 12)
  | lda (c : PtrClass) (i : Fin 8) (rel : Bool) (imm : BitVec 16)
  | mva (c : PtrClass) (i : Fin 8) (toD : Bool) (d : Fin 16)
  | mov (d s : Fin 16)
  | sel (d s t : Fin 16) (cond : SelCond)
  | ld (d : Fin 16) (am : Am)
  | st (d : Fin 16) (am : Am)
  | ld2 (d e : Fin 16) (am1 am2 : Am)
  | sta (a : Fin 4) (r : Bool) (am : Am)
  | add (d s t : Fin 16) (sat : Bool)
  | sub (d s t : Fin 16) (sat : Bool)
  | neg (d s : Fin 16) (sat : Bool)
  | abs (d s : Fin 16) (sat : Bool)
  | and (d s t : Fin 16)
  | or (d s t : Fin 16)
  | xor (d s t : Fin 16)
  | shl (d s : Fin 16) (sat : Bool) (k : Fin 24)
  | shr (d s : Fin 16) (k : Fin 24)
  | cmp (s t : Fin 16)
  | min (d s t : Fin 16)
  | max (d s t : Fin 16)
  | addi (d s : Fin 16) (sat : Bool) (imm : BitVec 12)
  | mac (a : Fin 4) (sub clr : Bool) (s t : Fin 16)
  | mac2 (a : Fin 4) (sub clr : Bool) (s t u v : Fin 16)
  | dmac (a b : Fin 4) (s t u v : Fin 16) (subA subB : Bool)
  | macm (a : Fin 4) (sub clr : Bool) (s : Fin 16) (am : Am)
  | tapx (a : Fin 4) (sub move : Bool) (pc pd : Fin 8) (dm dk : Fin 16) (xm : Fin 4) (dir : Bool)
  | adda (a b : Fin 4) (sub : Bool)
  | accld (a : Fin 4) (s : Fin 16) (pos : Fin 5)
  | ash (a : Fin 4) (k : BitVec 5)
  | rda (a : Fin 4) (r : Bool) (view : AccView) (d : Fin 16)
  | rdesr (d : Fin 16)
  | wresr (clear : BitVec 6) (mask : BitVec 3) (val : BitVec 3)
deriving DecidableEq, Repr

/-- The output pins whose level the block itself decides (20 Table 20-4). -/
inductive Pin where
  | devReady | peWakeN | motionEn | doorEn | qoa | qob | qoz
deriving DecidableEq, Repr


/-- The commands: one constructor for each row of the table, with the row's operands. -/
inductive Instr where
  /-- A BAR0 write of `size` bytes at `off` (19 R416, R417); `queued` as for HIU_QP_DISABLE, used only where a
  64-bit write clears HIU_AQ_CTRL.EN. -/
  | registerWrite (off size : Nat) (v : BitVec 64) (queued : List Desc)
  /-- A read by the host, one of the _LO register of a read-only 64-bit pair among them (19 R416, R421). -/
  | loRegisterCapture (a : BarAccess)
  /-- A frame of SSI channel `m` has been clocked in: the idle level before the first clock was high,
  the start bit, the position bits, the status bits and the parity bit received (03 R55, R56). -/
  | ssiFrameComplete (m : Fin 2) (idleHigh start : Bool) (pos stat : Nat) (par : Bool)
  /-- The pins QAn and QBn show the levels `a` and `b` at one sample of the peripheral clock (03 R34). -/
  | count (n : Fin 8) (a b : Bool)
  /-- QZn shows the inactive level at one sample of the peripheral clock (03 R34, R45). -/
  | indexCheck (n : Fin 8)
  /-- QZn shows the active level at one sample of the peripheral clock (03 R34, R45). -/
  | indexGoesActive (n : Fin 8)
  /-- E of channel `n` reaches ZTO (03 R39). -/
  | zeroSpeedTimeout (n : Fin 8)
  /-- A write of PFI_QCFG of channel `n` (03 R57). -/
  | pfiQcfgWrite (n : Fin 8) (v : Word)
  /-- A write of PFI_SCFG of channel `m` (03 R55, R57). -/
  | pfiScfgWrite (m : Fin 2) (v : Word)
  | pfiRead (d : Desc)
  | pfiSetPos (d : Desc)
  | pfiCmpArm (d : Desc)
  | pfiCmpDisarm (d : Desc)
  | pfiClear (d : Desc)
  | pfiLatch (d : Desc)
  /-- The CPF duty of the period of the last phase zero runs (04 R61). -/
  | cpfPeriod
  /-- The excluded tape track has kept within WARN for 40 periods (04 R74). -/
  | trackReadmitted
  /-- CPF re-validates its position (04 R83). -/
  | revalidation
  /-- CPF starts a correction run by itself (04 R76). -/
  | autoCorrectionStart
  /-- The learning run ends: its table is computed, or its abort code stands (04 R81, R82). -/
  | learnRunComplete
  /-- A learning pass has exceeded its time (04 R81). -/
  | learnPassTimeout
  /-- The correction run ends levelled at its landing, or its abort code stands (04 R84). -/
  | correctionRunComplete
  /-- A write of CPF_CFG (04 R86). -/
  | cpfCfgWrite (v : Word)
  | cpfRead (d : Desc)
  | cpfSetLoad (d : Desc)
  | cpfLearn (d : Desc)
  | cpfCorrect (d : Desc)
  | cpfTableRead (d : Desc)
  | cpfTableWrite (d : Desc) (img : HostBytes)
  | cpfTableCommit (d : Desc)
  /-- The hoist profile step, 150 µs into a hoist period (05 R89). -/
  | msqProfileStep
  /-- The dwell of an interim stop or a reversal ends (05 R95, R99). -/
  | hoistDwellEnd
  /-- HSTARTTO has passed since the MOTION_EN grant (05 R100). -/
  | hoistStartTimeout
  /-- HSTOPTO has passed since the last sample, or since an immediate disable (05 R102, R103). -/
  | hoistStopTimeout
  /-- The CPE has stayed off target for RELEV_DELAY (05 R104). -/
  | relevelStart
  /-- The set-point or HELLO frame of the period is sent (05 R108). -/
  | drvSetpointFrame
  /-- A status frame is received; `stopOk` says that every stop bit read 1 (05 R107, R108). -/
  | drvStatusFrame (stopOk : Bool) (bytes : List Byte)
  /-- The status window closes with no frame (05 R110). -/
  | drvStatusWindowExpiry
  /-- A HELLO_ACK frame is received (05 R111). -/
  | drvHelloAck (stopOk : Bool) (bytes : List Byte)
  | drvNegotiationTimeout
  | drvEnableTimeout
  | drvFaultResetTimeout
  | msqHEnable (d : Desc)
  | msqHDisable (d : Desc)
  | msqHGoto (d : Desc)
  | msqHSpeed (d : Desc)
  | msqHStop (d : Desc)
  | msqHRead (d : Desc)
  | drvFaultReset (d : Desc)
  | drvRead (d : Desc)
  /-- The door step of every axis, 350 µs into an axis period (06 R118). -/
  | msqDoorStep
  /-- A commutation step of axis `n` (06 R129). -/
  | commutationStep (n : Fin 5)
  /-- An evaluation of the energy limiter and the obstruction detector of axis `n` (06 R133-R136). -/
  | doorLimiterEvaluation (n : Fin 5)
  /-- |I_q| of axis `n` has stayed below STRONG_OFF for 50 ms (06 R132). -/
  | quietModeEntry (n : Fin 5)
  /-- The homing close of axis `n` has held at the force clamp for 200 ms (06 R121). -/
  | homeReferenceDone (n : Fin 5)
  /-- The 200 ms alignment of axis `n` ends (06 R131). -/
  | alignDone (n : Fin 5)
  /-- DMOVETO has passed since the motion of axis `n` began (06 R139). -/
  | doorMotionTimeout (n : Fin 5)
  /-- The check of the image staged in a cam slot of axis `n` ends (06 R126). -/
  | camCheckComplete (n : Fin 5) (slot : Fin 3)
  | msqDEnable (d : Desc)
  | msqDDisable (d : Desc)
  | msqDOpen (d : Desc)
  | msqDClose (d : Desc)
  | msqDGoto (d : Desc)
  | msqDStop (d : Desc)
  | msqDCamLoad (d : Desc) (img : HostBytes)
  | msqDSineLoad (d : Desc) (img : HostBytes)
  | msqDRead (d : Desc)
  | msqBSet (d : Desc)
  /-- A frame of the Loop Engine begins (07 R152). -/
  | framePhaseZero
  | lpeParamWrite (d : Desc) (img : HostBytes)
  | lpeCommit (d : Desc)
  | lpeHandover (d : Desc)
  | lpeRead (d : Desc)
  | lpeTableLoad (d : Desc) (img : HostBytes)
  /-- The logic half of Hawkmoth evaluates, every 10 µs of its RC clock (08 R178). -/
  | hwkEvaluation
  /-- The Cocoon half evaluates, every 10 µs of its oscillator (08 R178). -/
  | hwkCocoonEvaluation
  /-- A speed update, every 100 µs of RC time (08 R183, R186). -/
  | hwkSpeedUpdate
  /-- One sample of the logic half's oscillator shows QA1 = `a` and QB1 = `b` (08 R183). -/
  | hwkQ1Count (a b : Bool)
  /-- An interval of the root-clock check ends with `n` counted edges (08 R180). -/
  | hwkClockCheck (n : Nat)
  /-- S has read 0 for 500 ms (08 R179). -/
  | hwkSpeedCauseRelease
  /-- The permit has been withdrawn for 5 s (08 R189). -/
  | hwkParkStart
  /-- An edge of the 10 kHz timebase of the Cocoon half (08 R191). -/
  | enableTimebaseEdge
  /-- 25 µs after a timebase edge the enable pins read `m` (MOTION_EN) and `d` (DOOR_EN) (08 R191). -/
  | enableReadback (m d : Bool)
  /-- A write of HWK_CTRL (08 R194). -/
  | hwkLock (v : Word)
  /-- Stored Hawkmoth records are written once their event ring has room (08 R198). -/
  | hwkRecordDelivery
  /-- A Hawkmoth RC oscillator stops: the Cocoon half's (`true`) or the logic half's (08 R191). -/
  | hawkmothOscillatorStop (cocoonHalf : Bool)
  | hwkRulesLoad (d : Desc) (img : HostBytes)
  | hwkStatus (d : Desc)
  | hwkRulesRead (d : Desc)
  /-- The head of the committed order, when it is a call, is applied (09 R206). -/
  | monApplyCall
  | monApplyCancel
  | monApplyCarStatus
  | monApplyTick
  /-- The evaluation at the head of Monarch's queue finishes (09 R219). -/
  | monEvaluationComplete
  | monCall (d : Desc)
  | monCancel (d : Desc)
  | monCarMode (d : Desc)
  | monTripRead (d : Desc)
  | monCarRead (d : Desc)
  | monFttLoad (d : Desc) (img : HostBytes)
  | monConfigLoad (d : Desc) (img : HostBytes)
  | monConfigCommit (d : Desc)
  | monCarDoors (d : Desc)
  /-- The node sends its heartbeat (10 R228). -/
  | heartbeatSend
  /-- The heartbeat at the head of the records delivered is taken (10 R228). -/
  | heartbeatReceived
  | eventRecordReceived
  /-- A gap in the records of node `n` has stayed unfilled for SKEW plus 100 µs (10 R229). -/
  | gapRetx (n : Fin 16)
  | retxReceived
  /-- Node `n` is declared lost (10 R234). -/
  | grpPeerLost (n : Fin 16)
  | flushReceived
  /-- The coordinator's 1 ms wait for FLUSH ends (10 R235). -/
  | flushWaitExpiry
  | epochStartReceived
  | epochStartApply
  | epochStartTimeout
  | cutTimeout
  | snapReceived
  | grpSnapshotDone
  | installTimeout
  | groupFormation
  /-- A Solo part commits what its own watermark has passed (10 R246). -/
  | localCommit
  | grpConfig (d : Desc)
  | grpJoin (d : Desc)
  | grpLeave (d : Desc)
  | grpStatus (d : Desc)
  | grpSnapshotRead (d : Desc)
  /-- In-band status of port A or B (`portB`): link up, full duplex, speed code 0 down, 1 100 Mb/s, 2 1000 Mb/s
  (11 R253). -/
  | portLinkChange (portB up full : Bool) (speed : Nat)
  | portRecovery (portB : Bool)
  /-- A copy of a group frame from its Swallowtail header on; `fcsOk`: its FCS is correct (11 R257). -/
  | groupFrameCopyReceived (portB fcsOk : Bool) (bytes : List Byte)
  /-- The oldest skew window of sender `n` closes (11 R258). -/
  | skewWindowClose (n : Fin 16)
  | senderForget (n : Fin 16)
  /-- A gPTP message on a port: its domain, sequence number, two-step flag and body, and the DT of its start-frame
  delimiter (11 R262). -/
  | ptpMessageReceived (portB : Bool) (domain seq : Nat) (twoStep : Bool) (body : PtpBody) (sfd : Nat)
  | ptpSyncSend
  /-- A host frame, without its FCS, and the DT of its start-frame delimiter (11 R264). -/
  | hostFrameReceived (portB : Bool) (bytes : List Byte) (sfd : Nat)
  | hostFrameStart
  /-- A CAN frame valid at DT `t`; `rec`: the receive error counter after it (11 R266, R268). -/
  | canFrameReceived (n : Fin 4) (f : CanFrame) (t rec : Nat)
  /-- The attempt in progress ends; the error counters after it (11 R267, R268). -/
  | canTxAttemptEnd (n : Fin 4) (ok : Bool) (tec rec : Nat)
  | canBusoffRecovery (n : Fin 4)
  /-- The frame phase zero at which SPI port `m` begins a period (11 R269). -/
  | spiPeriod (m : Fin 2)
  /-- The transactions of a period end with the bytes received (11 R269). -/
  | spiTransactionsComplete (m : Fin 2) (bytes : List Byte)
  | stlCfgWrite (v : Word)
  | canCfgWrite (n : Fin 4) (v : Word)
  | spiCfgWrite (m : Fin 2) (v : Word)
  /-- `frame`: the bytes at the host address. -/
  | stlTx (d : Desc) (frame : HostBytes)
  | stlRx (d : Desc)
  | stlStatus (d : Desc)
  /-- `img`: the frame record at the host address. -/
  | canTx (d : Desc) (img : HostBytes)
  | canRx (d : Desc)
  | canRecover (d : Desc)
  | spiProg (d : Desc) (img : HostBytes)
  | spiRead (d : Desc)
  /-- A job of duty `id` is released (14 R314). -/
  | dutyRelease (id : Nat)
  /-- The output arbiter takes the oldest committed copy (12 R279, R280). -/
  | arbiterCopyCommit
  | dutyDeadline (id : Nat)
  /-- The spare has run the disputed period of duty `id` again; `out` and `state`: the bits of its output and
  state regions that a fault which does not stop the spare has flipped, none listed being none (12 R277, R281). -/
  | reexecutionComplete (id : Nat) (out state : List Word)
  /-- Engine `e` fail-stops on a cause of Table 12-2 at an instruction address (12 R277). -/
  | engFault (e : Fin 16) (cause addr : Nat)
  /-- The budget timer of the job that runs on engine `e` at a level expires (14 R326). -/
  | tlgOverrun (e : Fin 16) (level : Bool)
  | clusterUpComplete (c : Fin 4)
  | engStatus (d : Desc)
  | engClusterDown (d : Desc)
  | engClusterUp (d : Desc)
  /-- `test`: the result of the memory test, 0 pass, 1 instruction, 2 data (12 R293). -/
  | engRestart (d : Desc) (test : Nat)
  /-- Engine `e` executes the instruction its running kernel has come to (13 Table 13-3). -/
  | vNop (e : Fin 16)
  | vLoop (e : Fin 16) (k : Bool) (len : Fin 128) (n : BitVec 16)
  | vEnd (e : Fin 16)
  | vLdi (e d : Fin 16) (imm : BitVec 20)
  | vLdih (e d : Fin 16) (imm : BitVec 12)
  | vLda (e : Fin 16) (c : PtrClass) (j : Fin 8) (rel : Bool) (imm : BitVec 16)
  | vMva (e : Fin 16) (c : PtrClass) (j : Fin 8) (toD : Bool) (d : Fin 16)
  | vMov (e d x : Fin 16)
  | vSel (e d x t : Fin 16) (cond : SelCond)
  | vLd (e d : Fin 16) (am : Am)
  | vSt (e d : Fin 16) (am : Am)
  | vLd2 (e d d2 : Fin 16) (am1 am2 : Am)
  | vSta (e : Fin 16) (a : Fin 4) (r : Bool) (am : Am)
  | vAdd (e d x t : Fin 16) (sat : Bool)
  | vSub (e d x t : Fin 16) (sat : Bool)
  | vNeg (e d x : Fin 16) (sat : Bool)
  | vAbs (e d x : Fin 16) (sat : Bool)
  | vAnd (e d x t : Fin 16)
  | vOr (e d x t : Fin 16)
  | vXor (e d x t : Fin 16)
  | vShl (e d x : Fin 16) (sat : Bool) (k : Fin 24)
  | vShr (e d x : Fin 16) (k : Fin 24)
  | vCmp (e x t : Fin 16)
  | vMin (e d x t : Fin 16)
  | vMax (e d x t : Fin 16)
  | vAddi (e d x : Fin 16) (sat : Bool) (imm : BitVec 12)
  | vMac (e : Fin 16) (a : Fin 4) (sub clr : Bool) (x t : Fin 16)
  | vMac2 (e : Fin 16) (a : Fin 4) (sub clr : Bool) (x t u v : Fin 16)
  | vDmac (e : Fin 16) (a b : Fin 4) (x t u v : Fin 16) (subA subB : Bool)
  | vMacm (e : Fin 16) (a : Fin 4) (sub clr : Bool) (x : Fin 16) (am : Am)
  | vTapx (e : Fin 16) (a : Fin 4) (sub move : Bool) (pc pd : Fin 8) (dm dk : Fin 16) (xm : Fin 4) (dir : Bool)
  | vAdda (e : Fin 16) (a b : Fin 4) (sub : Bool)
  | vAccld (e : Fin 16) (a : Fin 4) (x : Fin 16) (pos : Fin 5)
  | vAsh (e : Fin 16) (a : Fin 4) (k : BitVec 5)
  | vRda (e : Fin 16) (a : Fin 4) (r : Bool) (view : AccView) (d : Fin 16)
  | vRdesr (e d : Fin 16)
  | vWresr (e : Fin 16) (clear : BitVec 6) (mask val : BitVec 3)
  | krnLoad (d : Desc) (img : HostBytes)
  | krnUnload (d : Desc)
  | krnRead (d : Desc)
  /-- The analysis in progress, or that of the copies to re-place, ends (14 R322, R324, R325). -/
  | ledgerAnalysisComplete
  | tlgCommit
  | tlgConfig (d : Desc) (img : HostBytes)
  | tlgCheck (d : Desc) (img : HostBytes)
  | tlgRead (d : Desc)
  | tlgMigrate (d : Desc)
  | tlgList (d : Desc)
  /-- The head descriptor of a queue pair, as fetched, is dispatched (15 R334). -/
  | descriptorDispatch (heads : List Desc)
  /-- Doorbell writes of queue pair `q` with the value written (R339). -/
  | sqTail (q : Fin 96) (v : Word)
  | cqHead (q : Fin 96) (v : Word)
  | eqHead (q : Fin 96) (v : Word)
  /-- The moderation time of vector `v` has passed (R340). -/
  | msixModerationTimeout (v : Fin 128)
  /-- The host writes the table entry of vector `v` with its mask bit clear (R340). -/
  | msixUnmask (v : Fin 128) (addr : Nat) (data : Word)
  /-- The class-4 duty of queue pair `q` is released and its credit restored (R335). -/
  | hiuCreditRelease (q : Fin 96)
  /-- A write of HIU_AQ_CTRL (R333); `queued` as for HIU_QP_DISABLE. -/
  | hiuAqCtrlWrite (v : Word) (queued : List Desc)
  /-- The last in-flight and flushed completion of queue pair `q` has been written (R344). -/
  | qpDrainComplete (q : Fin 96)
  /-- Function Level Reset, hot reset or link loss (R347). -/
  | hostSideReset
  /-- The PCIe link changes to the given state, width in lanes and rate code (R330, R347). -/
  | hiuLink (up : Bool) (width rate : Nat)
  /-- The host moves the function to D3hot (`true`) or D0 (`false`) (R330). -/
  | pcieDStateChange (d3hot : Bool)
  | hiuHello (d : Desc)
  | hiuIdentify (d : Desc)
  | hiuQpConfig (d : Desc)
  | hiuQpEnable (d : Desc)
  /-- `queued`: the descriptors that stand between head and tail of the queue pair named (R344). -/
  | hiuQpDisable (d : Desc) (queued : List Desc)
  /-- `queued`: the same (R346). -/
  | hiuAbort (d : Desc) (queued : List Desc)
  | hiuQpStatus (d : Desc)
  /-- The sample instant of channel `n`: pin voltage in 10 mV, the watch comparator's last transition
  into the new level since the last window that read the old one, and whether the output limits its
  current now (16 R353-R358). -/
  | fieldInputSample (n : Fin 48) (mv10 : Nat) (watch : Option Nat) (ilim : Bool)
  /-- The junction of channel `n` reaches its limit; `ma`: the group's current (16 R359). -/
  | outputThermalShutdown (n : Fin 48) (ma : Nat)
  /-- Group `g` has been above 3.0 A for 10 ms, or for 1 ms more (16 R359). -/
  | groupOvercurrent (g : Fin 6) (ma : Nat)
  /-- The turning time of channel `n` ends (16 R352). -/
  | channelTurningEnd (n : Fin 48)
  /-- WDT has passed without a valid downstream frame (16 R364). -/
  | cocWatchdog
  /-- VFIELD is measured, in 10 mV (16 R365). -/
  | vfieldMeasurement (mv10 : Nat)
  /-- VBRIDGE, VGATE and the bootstrap of each bridge are measured, in 10 mV (16 R373). -/
  | bridgeSupplyMeasurement (vbridge vgate : Nat) (boot : List Nat)
  /-- VFIELD falls below FS_MISSING (16 R367). -/
  | cocoonPowerLoss
  /-- VFIELD rises above 9.8 V, or PORST_N releases (16 R367, R377). -/
  | cocoonStart
  /-- Self-calibration ends: failing item (0: passed) and its bridge or channel (16 R377). -/
  | cocCalib (item object : Nat)
  /-- A sample of the current of tap `i`, µA (16 R368). -/
  | tapSample (j : Fin 8) (ua : Int)
  | tapDcWindowEnd (j : Fin 8)
  | tapAcTimeout (j : Fin 8)
  /-- A decision of the current cell of bridge `b`; `own`: the reading of its own
  shunt's amplifier, mA (16 R371, 07 R166). -/
  | currentCellDecision (b : Fin 16) (own : Int)
  /-- The high side of bridge `b` has been blind for 2 µs (16 R371). -/
  | blindPhaseTimeout (b : Fin 16)
  /-- A slot begins: `own` gives the reading of each bridge's own amplifier at that instant, in mA, `temp` the die temperature (16 R372, R374). -/
  | linkSlotStart (own : List Int) (temp : Int)
  | cocoonDownstreamFrameAccepted
  | cocoonUpstreamFrameAccepted
  /-- A slot ends without an accepted frame at Cocoon (`true`) or at the logic die (16 R376). -/
  | linkSlotMissed (cocoon : Bool)
  | linkTrainingStart
  | linkTrainingComplete
  | cocChConfig (d : Desc)
  | cocOutSet (d : Desc)
  | cocClear (d : Desc)
  | cocRelease (d : Desc)
  | cocRead (d : Desc)
  /-- PORST_N is driven low, and released with the outcome of the fuse load (17 R382, R392, 02 R27). -/
  | porstNLow
  | porstNRelease (fuseOk corrected : Bool)
  /-- Supply `i` of Table 17-1 falls below its threshold, and its monitor releases (R381). -/
  | supplyReset (j : Fin 4)
  | supplyMonitorRelease (j : Fin 4) (fuseOk corrected : Bool)
  /-- Power failure by PF_N low, by VDD_33 declared low, or both, with VDD_33 in 10 mV; and its end (R383). -/
  | pmuPowerFail (pfLow vddLow : Bool) (vdd : Nat)
  | pmuPowerOk (vdd : Nat)
  | pllLockLost
  | pllRelockRelease (fuseOk corrected : Bool)
  | rootPllLock
  /-- The PMU re-evaluates its target (R387). -/
  | powerTargetChange
  /-- The entry conditions of state `k` have held for its entry delay. -/
  | powerEntryDelayExpiry (k : Fin 5)
  | powerStateEntry
  | pmuState
  /-- A wake source of Table 17-4 and its object (R389). -/
  | pmuWake (source object : Nat)
  | pmuTimerExpiry
  /-- Bit t: the image of target t in slot A, and in slot B, passes its signature check; the package versions
  loaded, by target (R393). -/
  | firmwareLoadComplete (okA okB : Nat) (pkg : List Nat)
  | devReady
  | pmuReset (d : Desc)
  | pmuResetDelayExpiry (fuseOk corrected : Bool)
  | pmuStatus (d : Desc)
  /-- The scrub has found these errors and the mount ends; slots that fail MAGIC or CRC (18 R406). -/
  | chrMount (corrected uncorr : Nat) (badA badB : Bool)
  | chrPeriodExpiry
  | chrCommitted
  /-- The target in update runs its image (R409, R411). -/
  | updActivated
  /-- TRIAL_TIME of target `t` has passed (R411). -/
  | trialTimeout (t : Fin 5)
  | chrRead (d : Desc)
  | chrCommit (d : Desc)
  | updWrite (d : Desc) (img : HostBytes)
  /-- `sigOk`: the signature verifies against the firmware key (R407). -/
  | updVerify (d : Desc) (sigOk : Bool)
  | updActivate (d : Desc)
  | updConfirm (d : Desc)
  | updRollback (d : Desc)
deriving DecidableEq, Repr

end Sys2Proof
end

