-- ==== Sys2Proof/Decode.lean ====
section
/-! DEFINITION. The command a word of the opcode table spells: no row of the table has bits, since a command of
this block is an access, a record or an event and not a word of code (log entry 1). -/
namespace Sys2Proof

/-- The command that the low `nbits` bits of `w` spell: none. -/
def decodeTableWord (_nbits _w : Nat) : Option Instr := none

end Sys2Proof
end

