-- ==== Sys2Proof/Config.lean ====
section
/-! DEFINITION. What an implementation fixes and the values the spec leaves open. -/
namespace Sys2Proof.Config

/-- The free values of the model (log entry 4): the n-th value the spec leaves open. It has no
body, so nothing can be proved about it but what holds of every value. -/
opaque freeValue : Nat → BitVec 64

/-- The STATE byte of a trip context (09 Table 9-2), by the state's place in Table 9-3; FREE is 0 here.
The spec names the states and gives no codes (log entry 26). -/
opaque tripStateCode : Nat → BitVec 8

/-- The stepping of the Cocoon die, as HIU_DEVID.CSTEP shows it once the link has trained (19 Table 19-2).
The spec gives no value (log entry 38). -/
opaque cocoonStep : Nat → BitVec 8

/-- Byte `i` of the payload of an event record of a source and code with given fields, where no table settles the
fields' places: MON_STORE_FULL and CHR_MOUNT (log entry 45). -/
opaque payloadByte : Nat → Nat → List Int → Nat → BitVec 8

/-- A reserved byte of a link frame, from what the model's frame says beyond Tables 16-2 and 16-3 (log entry 23). -/
opaque linkByte : List Nat → Nat → BitVec 8

/-- The dwords of the PCI Express configuration space, where the spec gives none of their bits (log entry 42). -/
opaque configWord : Nat → BitVec 32

/-- The force of a friction or cogging table (its kind) whose XSTEP or PERIOD is 0, at a position and in a sense
(log entry 44). -/
opaque tableForce : Nat → Int → Int → BitVec 32

/-- The number LPE_LSTAT shows for a rate group of the MSQ, by the model's key of it (log entry 12). -/
opaque groupNumber : Nat → BitVec 8

/-- Field `k` of firmware duty `id` (14 Table 14-1, classes 2 and 6), none of whose numbers the spec gives: 0 class
(neither 2 nor 6: there is no such duty), 1 flags, 2 period, 3 offset, 4 phase, 5 deadline, 6 budget, 7 affinity, 8 and 9
input and output address, 10 to 13 words of its input, state and output area and of scratch (log entry 34). -/
opaque firmwareDuty : Nat → Nat → Nat

/-- The duty ID of CPF (04 R61), which the spec does not give (log entry 34). -/
opaque cpfDuty : Nat

/-- ID and deadline of the class-3 duty of a rate group of the MSQ, by the model's key of it (log entry 34). -/
opaque msqDuty : Nat → Nat × Nat

/-- The class-5 duty that a host frame belongs to, from its bytes: STL_TX names none (14 R321, log entry 34). -/
opaque frameDuty : List (BitVec 8) → Nat

/-- The shared-SRAM address at which an engine duty finds the result buffer of an SPI port (log entry 33). -/
opaque spiBufferAt : Nat → Nat

/-- Words 3 to 5 of the call that a CAN frame of a fixture makes, from its identifier, flags and data: fixture
protocols are not the spec's (11 R265, log entry 42). -/
opaque fixtureCall : Nat → Nat → List (BitVec 8) → Option (BitVec 32 × BitVec 32 × BitVec 32)

end Sys2Proof.Config
end

