-- ==== Sys2Proof/Machine/Bits.lean ====
section
/-! DEFINITION. Bit fields, signed readings, saturation, byte order and check sums (00 R5, R7). -/
namespace Sys2Proof.Machine

/-- Bits [hi:lo] of a number. -/
def natBits (n hi lo : Nat) : Nat := n / 2 ^ lo % 2 ^ (hi + 1 - lo)

/-- Bits [hi:lo] of a register word. -/
def bitsOf (w : Word) (hi lo : Nat) : Nat := natBits w.toNat hi lo

/-- Bit `i` of a register word. -/
def bitOf (w : Word) (i : Nat) : Bool := w.getLsbD i

/-- `w` with bits [hi:lo] holding `v`. -/
def setBitsOf (w : Word) (hi lo v : Nat) : Word :=
  BitVec.ofNat 32 (w.toNat - natBits w.toNat hi lo * 2 ^ lo + v % 2 ^ (hi + 1 - lo) * 2 ^ lo)

/-- The low `n` bits of `x` read in two's complement (00 R7: arithmetic on a named signed type wraps). -/
def wrapS (n : Nat) (x : Int) : Int :=
  let m := x % (2 ^ n : Int)
  if m < 2 ^ (n - 1) then m else m - 2 ^ n

/-- `x` modulo `2 ^ n` (an unsigned named type wraps). -/
def wrapU (n : Nat) (x : Int) : Nat := (x % (2 ^ n : Int)).toNat

/-- `sat(x, intN)` of 00 R7. -/
def satS (n : Nat) (x : Int) : Int := max (-(2 ^ (n - 1) : Int)) (min x (2 ^ (n - 1) - 1))

/-- `sat(x, uintN)` of 00 R7. -/
def satU (n : Nat) (x : Int) : Nat := (max 0 (min x (2 ^ n - 1))).toNat

/-- `a` clamped to `lo .. hi`. -/
def clampN (lo hi a : Nat) : Nat := max lo (min a hi)

/-- `a` clamped to `lo .. hi`. -/
def clampI (lo hi a : Int) : Int := max lo (min a hi)

/-- `a div b` of 00 R7: rounds toward minus infinity. -/
def idiv (a b : Int) : Int := Int.fdiv a b

/-- The signed reading of bits [hi:lo] of a word. -/
def sBitsOf (w : Word) (hi lo : Nat) : Int := wrapS (hi + 1 - lo) (bitsOf w hi lo)

/-- The word of a signed 32-bit number. -/
def wordI (x : Int) : Word := BitVec.ofInt 32 x

/-- The word of an unsigned number. -/
def wordN (x : Nat) : Word := BitVec.ofNat 32 x

/-- The signed reading of a word. -/
def sWord (w : Word) : Int := w.toInt

/-- The low and high words of a 64-bit value. -/
def lo64 (x : Nat) : Word := BitVec.ofNat 32 x
def hi64 (x : Nat) : Word := BitVec.ofNat 32 (x / 2 ^ 32)

/-- A 64-bit value from its low and high words. -/
def join64 (lo hi : Word) : Nat := hi.toNat * 2 ^ 32 + lo.toNat

/-- The value of a Bool as a bit. -/
def b2n (b : Bool) : Nat := if b then 1 else 0

/-- A counter that holds at its largest `n`-bit value. -/
def satInc (n x : Nat) : Nat := if x + 1 < 2 ^ n then x + 1 else 2 ^ n - 1

/-- A saturating addition on `n` bits. -/
def satAdd (n x y : Nat) : Nat := if x + y < 2 ^ n then x + y else 2 ^ n - 1

/-- Little-endian bytes of `v` (00 R5). -/
def leBytes : Nat → Nat → List Byte
  | 0, _ => []
  | n + 1, v => BitVec.ofNat 8 v :: leBytes n (v / 256)

/-- The number of a little-endian byte list. -/
def leNat : List Byte → Nat
  | [] => 0
  | b :: t => b.toNat + 256 * leNat t

/-- `n` bytes of a byte list from offset `off`, as a little-endian number; bytes beyond the end are 0. -/
def leAt (l : List Byte) (off n : Nat) : Nat := leNat ((l.drop off).take n)

/-- The same, read in two's complement. -/
def leAtS (l : List Byte) (off n : Nat) : Int := wrapS (8 * n) (leAt l off n)

/-- Big-endian number of a byte list. -/
def beNat (l : List Byte) : Nat := l.foldl (fun a b => a * 256 + b.toNat) 0

/-- Big-endian bytes of `v`. -/
def beBytes (n v : Nat) : List Byte := (leBytes n v).reverse

/-- The number of set bits among the low `n` bits of `x`. -/
def popcount : Nat → Nat → Nat
  | 0, _ => 0
  | n + 1, x => x % 2 + popcount n (x / 2)

/-- Is bit `i` of `x` set. -/
def tbit (x i : Nat) : Bool := x.testBit i

/-- `x` with bit `i` set or cleared. -/
def putBit (x i : Nat) (b : Bool) : Nat :=
  if x.testBit i then (if b then x else x - 2 ^ i) else (if b then x + 2 ^ i else x)

/-- Integer square root by bits, rounded down; `n` bits of result. -/
def isqrtBits : Nat → Nat → Nat → Nat
  | 0, _, r => r
  | n + 1, x, r => let c := r + 2 ^ n; isqrtBits n x (if c * c ≤ x then c else r)

/-- The largest r with r * r ≤ x, for x below 2 ^ 128. -/
def isqrt (x : Nat) : Nat := isqrtBits 64 x 0

/-- One byte into a reflected CRC-32 (IEEE 802.3 polynomial). -/
def crc32Byte (crc : BitVec 32) (b : Byte) : BitVec 32 :=
  (List.range 8).foldl
    (fun c _ => if c.getLsbD 0 then (c >>> 1) ^^^ 0xEDB88320#32 else c >>> 1)
    (crc ^^^ b.setWidth 32)

/-- CRC-32 of IEEE 802.3 over a byte list. -/
def crc32 (l : List Byte) : Word := ~~~ (l.foldl crc32Byte 0xFFFFFFFF#32)

/-- One byte into a CRC-16, polynomial 0x1021, most significant bit first. -/
def crc16Byte (crc : BitVec 16) (b : Byte) : BitVec 16 :=
  (List.range 8).foldl
    (fun c _ => if c.getLsbD 15 then (c <<< 1) ^^^ 0x1021#16 else c <<< 1)
    (crc ^^^ (b.setWidth 16 <<< 8))

/-- CRC-16, polynomial 0x1021, initial value 0xFFFF. -/
def crc16 (l : List Byte) : BitVec 16 := l.foldl crc16Byte 0xFFFF#16

/-- The element of a list at an index; an index outside it reads as `d`. -/
def lget {α : Type} (d : α) (l : List α) (i : Nat) : α := l.getD i d

/-! ## SHA-256 (FIPS 180-4) -/

def shaK0 : List Nat :=
  [0x428A2F98, 0x71374491, 0xB5C0FBCF, 0xE9B5DBA5, 0x3956C25B, 0x59F111F1, 0x923F82A4, 0xAB1C5ED5, 0xD807AA98, 0x12835B01, 0x243185BE, 0x550C7DC3, 0x72BE5D74, 0x80DEB1FE, 0x9BDC06A7, 0xC19BF174]
def shaK1 : List Nat :=
  [0xE49B69C1, 0xEFBE4786, 0x0FC19DC6, 0x240CA1CC, 0x2DE92C6F, 0x4A7484AA, 0x5CB0A9DC, 0x76F988DA, 0x983E5152, 0xA831C66D, 0xB00327C8, 0xBF597FC7, 0xC6E00BF3, 0xD5A79147, 0x06CA6351, 0x14292967]
def shaK2 : List Nat :=
  [0x27B70A85, 0x2E1B2138, 0x4D2C6DFC, 0x53380D13, 0x650A7354, 0x766A0ABB, 0x81C2C92E, 0x92722C85, 0xA2BFE8A1, 0xA81A664B, 0xC24B8B70, 0xC76C51A3, 0xD192E819, 0xD6990624, 0xF40E3585, 0x106AA070]
def shaK3 : List Nat :=
  [0x19A4C116, 0x1E376C08, 0x2748774C, 0x34B0BCB5, 0x391C0CB3, 0x4ED8AA4A, 0x5B9CCA4F, 0x682E6FF3, 0x748F82EE, 0x78A5636F, 0x84C87814, 0x8CC70208, 0x90BEFFFA, 0xA4506CEB, 0xBEF9A3F7, 0xC67178F2]
def shaK : List Nat := shaK0 ++ shaK1 ++ shaK2 ++ shaK3
def shaH : List Word := [0x6A09E667, 0xBB67AE85, 0x3C6EF372, 0xA54FF53A, 0x510E527F, 0x9B05688C, 0x1F83D9AB, 0x5BE0CD19].map (BitVec.ofNat 32)

/-- One more word of the message schedule, held newest first. -/
def shaExtend (w : List Word) : List Word :=
  let a := w.getD 14 0
  let b := w.getD 1 0
  let s0 := a.rotateRight 7 ^^^ a.rotateRight 18 ^^^ (a >>> 3)
  let s1 := b.rotateRight 17 ^^^ b.rotateRight 19 ^^^ (b >>> 10)
  (w.getD 15 0 + s0 + w.getD 6 0 + s1) :: w

def shaSchedule : Nat → List Word → List Word
  | 0, w => w.reverse
  | n + 1, w => shaSchedule n (shaExtend w)

def shaRound (h : List Word) (kw : Word) : List Word :=
  let g (i : Nat) : Word := h.getD i 0
  let s1 := (g 4).rotateRight 6 ^^^ (g 4).rotateRight 11 ^^^ (g 4).rotateRight 25
  let ch := (g 4 &&& g 5) ^^^ (~~~ (g 4) &&& g 6)
  let t1 := g 7 + s1 + ch + kw
  let s0 := (g 0).rotateRight 2 ^^^ (g 0).rotateRight 13 ^^^ (g 0).rotateRight 22
  let mj := (g 0 &&& g 1) ^^^ (g 0 &&& g 2) ^^^ (g 1 &&& g 2)
  [t1 + s0 + mj, g 0, g 1, g 2, g 3 + t1, g 4, g 5, g 6]

/-- The hash after one block of 64 bytes. -/
def shaBlock (h : List Word) (b : List Byte) : List Word :=
  let w := (List.range 16).map (fun i => BitVec.ofNat 32 (beNat ((b.drop (4 * i)).take 4)))
  let ws := shaSchedule 48 w.reverse
  let r := (ws.zip shaK).foldl (fun h (x, k) => shaRound h (x + BitVec.ofNat 32 k)) h
  (h.zip r).map (fun (a, b) => a + b)

/-- The hash over the first `n` blocks of a padded message. -/
def shaBlocks : Nat → List Byte → List Word → List Word
  | 0, _, h => h
  | n + 1, m, h => shaBlocks n (m.drop 64) (shaBlock h (m.take 64))

/-- SHA-256 of a byte list, as eight words. -/
def sha256 (m : List Byte) : List Word :=
  let l := m.length
  let pad := m ++ [0x80] ++ List.replicate ((119 - l % 64) % 64) 0 ++ beBytes 8 (8 * l)
  shaBlocks (pad.length / 64) pad shaH

/-- SHA-256 as bytes. -/
def sha256Bytes (m : List Byte) : List Byte := (sha256 m).flatMap (fun w => beBytes 4 w.toNat)

end Sys2Proof.Machine
end

