-- ==== Sys2Proof/Machine/KMap.lean ====
section
/-! DEFINITION. The named operations over a keyed table: one read, one write that keeps the
canonical form, and the form itself. -/
namespace Sys2Proof.Machine

/-- The value under key `k`; an unlisted key reads as `d`. -/
def kget {α : Type} (d : α) : KMap α → Nat → α
  | [], _ => d
  | (i, v) :: t, k => if i = k then v else kget d t k

/-- The table with key `k` listed as `v`, in rising order of keys. -/
def kins {α : Type} (k : Nat) (v : α) : KMap α → KMap α
  | [] => [(k, v)]
  | (i, w) :: t =>
    if k < i then (k, v) :: (i, w) :: t
    else if k = i then (k, v) :: t
    else (i, w) :: kins k v t

/-- The table without key `k`. -/
def kdel {α : Type} (k : Nat) : KMap α → KMap α
  | [] => []
  | (i, w) :: t => if i = k then kdel k t else (i, w) :: kdel k t

/-- Write `v` under key `k`; writing the value an unlisted key reads as removes the entry. -/
def kput {α : Type} [DecidableEq α] (d : α) (m : KMap α) (k : Nat) (v : α) : KMap α :=
  if v = d then kdel k m else kins k v m

/-- Change the value under key `k`. -/
def kmod {α : Type} [DecidableEq α] (d : α) (m : KMap α) (k : Nat) (f : α → α) : KMap α :=
  kput d m k (f (kget d m k))

/-- Every listed key is `lo` or above, keys rise, and no entry holds the unlisted value. -/
def kwfFrom {α : Type} [DecidableEq α] (d : α) : Nat → KMap α → Bool
  | _, [] => true
  | lo, (i, v) :: t => decide (lo ≤ i) && decide (v ≠ d) && kwfFrom d (i + 1) t

/-- The canonical form of a table whose unlisted keys read as `d`. -/
def kwf {α : Type} [DecidableEq α] (d : α) (m : KMap α) : Bool := kwfFrom d 0 m

end Sys2Proof.Machine
end

