-- ==== Sys2Proof/Machine/RegTable.lean ====
section
/-! DEFINITION. The setup registers of the block (19 R424, Table 19-4): the offset of each, which of
its bits the host may write, which bits it clears by writing 1, which take the first write only, and
its reset value, as the tables of the chapters give them. -/
namespace Sys2Proof.Machine

/-- A setup register, or a row of like registers at `base + stride * n`: its RW, W1C and WL bits and
its reset value. -/
structure RegDef where
  base : Nat
  stride : Nat
  count : Nat
  rw : Nat
  w1c : Nat
  wl : Nat
  reset : Nat
deriving DecidableEq, Repr

/-! Offsets. -/

def Reg.capPart : Nat := 0xD000
def Reg.capEngines : Nat := 0xD004
def Reg.capAxes : Nat := 0xD008
def Reg.capFeedback : Nat := 0xD00C
def Reg.capField : Nat := 0xD010
def Reg.capComms : Nat := 0xD014
def Reg.capDispatch : Nat := 0xD018
def Reg.capPdOff : Nat := 0xD01C
def Reg.capFuseStatus : Nat := 0xD020
def Reg.pfiQcfg (n : Nat) : Nat := 0x3000 + 64 * n
def Reg.pfiQsoftlo (n : Nat) : Nat := 0x3004 + 64 * n
def Reg.pfiQsofthi (n : Nat) : Nat := 0x3008 + 64 * n
def Reg.pfiQidxper (n : Nat) : Nat := 0x300C + 64 * n
def Reg.pfiQidxref (n : Nat) : Nat := 0x3010 + 64 * n
def Reg.pfiQspdhi (n : Nat) : Nat := 0x3014 + 64 * n
def Reg.pfiQspdlo (n : Nat) : Nat := 0x3018 + 64 * n
def Reg.pfiQest (n : Nat) : Nat := 0x301C + 64 * n
def Reg.pfiQstat (n : Nat) : Nat := 0x3020 + 64 * n
def Reg.pfiScfg (n : Nat) : Nat := 0x3200 + 64 * n
def Reg.pfiSclk (n : Nat) : Nat := 0x3204 + 64 * n
def Reg.pfiSper (n : Nat) : Nat := 0x3208 + 64 * n
def Reg.pfiSjump (n : Nat) : Nat := 0x320C + 64 * n
def Reg.pfiSstat (n : Nat) : Nat := 0x3210 + 64 * n
def Reg.pfiPtcfg : Nat := 0x3300
def Reg.cpfCfg : Nat := 0x3800
def Reg.cpfK0 : Nat := 0x3804
def Reg.cpfK1 : Nat := 0x3808
def Reg.cpfKs : Nat := 0x380C
def Reg.cpfTapeofs : Nat := 0x3810
def Reg.cpfDeckofs : Nat := 0x3814
def Reg.cpfGain : Nat := 0x3818
def Reg.cpfDiswarn : Nat := 0x381C
def Reg.cpfDislim : Nat := 0x3820
def Reg.cpfVane : Nat := 0x3824
def Reg.cpfDzin : Nat := 0x3828
def Reg.cpfSlip : Nat := 0x382C
def Reg.cpfStretch : Nat := 0x3830
def Reg.cpfRope : Nat := 0x3834
def Reg.cpfMass : Nat := 0x3838
def Reg.cpfGrowth : Nat := 0x383C
def Reg.cpfUnc : Nat := 0x3840
def Reg.cpfReval : Nat := 0x3844
def Reg.cpfLearn : Nat := 0x3848
def Reg.cpfCorr : Nat := 0x384C
def Reg.cpfTsw : Nat := 0x3850
def Reg.cpfStat : Nat := 0x3854
def Reg.cpfTabinfo : Nat := 0x3858
def Reg.msqHcfg : Nat := 0x4000
def Reg.msqHvmax : Nat := 0x4004
def Reg.msqHamax : Nat := 0x4008
def Reg.msqHjmax : Nat := 0x400C
def Reg.msqHvlimlo : Nat := 0x4010
def Reg.msqHvlimhi : Nat := 0x4014
def Reg.msqHdwell : Nat := 0x4018
def Reg.msqHlev : Nat := 0x401C
def Reg.msqHrelev : Nat := 0x4020
def Reg.msqHrelevt : Nat := 0x4024
def Reg.msqHspdv : Nat := 0x4028
def Reg.msqHto : Nat := 0x402C
def Reg.msqHstat : Nat := 0x4030
def Reg.drvCfg : Nat := 0xA800
def Reg.drvTxph : Nat := 0xA804
def Reg.drvRxwin : Nat := 0xA808
def Reg.drvStat : Nat := 0xA80C
def Reg.drvCnt : Nat := 0xA810
def Reg.msqDcfg (n : Nat) : Nat := 0x4100 + 128 * n
def Reg.msqDk (n : Nat) : Nat := 0x4104 + 128 * n
def Reg.msqDcpr (n : Nat) : Nat := 0x4108 + 128 * n
def Reg.msqDalign (n : Nat) : Nat := 0x410C + 128 * n
def Reg.msqDvmax (n : Nat) : Nat := 0x4110 + 128 * n
def Reg.msqDamax (n : Nat) : Nat := 0x4114 + 128 * n
def Reg.msqDjmax (n : Nat) : Nat := 0x4118 + 128 * n
def Reg.msqDstroke (n : Nat) : Nat := 0x411C + 128 * n
def Reg.msqDmass (n : Nat) : Nat := 0x4120 + 128 * n
def Reg.msqDenergy (n : Nat) : Nat := 0x4124 + 128 * n
def Reg.msqDforce (n : Nat) : Nat := 0x4128 + 128 * n
def Reg.msqDkf (n : Nat) : Nat := 0x412C + 128 * n
def Reg.msqDobs (n : Nat) : Nat := 0x4130 + 128 * n
def Reg.msqDobsz (n : Nat) : Nat := 0x4134 + 128 * n
def Reg.msqDsw (n : Nat) : Nat := 0x4138 + 128 * n
def Reg.msqDband (n : Nat) : Nat := 0x413C + 128 * n
def Reg.msqDgear (n : Nat) : Nat := 0x4140 + 128 * n
def Reg.msqDgr1 (n : Nat) : Nat := 0x4144 + 128 * n
def Reg.msqDgr2 (n : Nat) : Nat := 0x4148 + 128 * n
def Reg.msqDgchg (n : Nat) : Nat := 0x414C + 128 * n
def Reg.msqDtol (n : Nat) : Nat := 0x4150 + 128 * n
def Reg.msqDmisc (n : Nat) : Nat := 0x4154 + 128 * n
def Reg.msqDstat (n : Nat) : Nat := 0x4158 + 128 * n
def Reg.msqBcfg (n : Nat) : Nat := 0x4400 + 4 * n
def Reg.lpeFrame : Nat := 0x5000
def Reg.lpeStat : Nat := 0x5004
def Reg.lpeSlots : Nat := 0x5008
def Reg.lpeTrig (n : Nat) : Nat := 0x5010 + 4 * n
def Reg.lpeLstat (n : Nat) : Nat := 0x5100 + 4 * n
def Reg.hwkCtrl : Nat := 0x6000
def Reg.hwkCrc : Nat := 0x6004
def Reg.hwkLockin0 : Nat := 0x6008
def Reg.hwkLockin1 : Nat := 0x600C
def Reg.hwkZonein : Nat := 0x6010
def Reg.hwkMiscin : Nat := 0x6014
def Reg.hwkResetin : Nat := 0x6018
def Reg.hwkZonespd : Nat := 0x601C
def Reg.hwkWin : Nat := 0x6020
def Reg.hwkInspspd : Nat := 0x6024
def Reg.hwkRecspd : Nat := 0x6028
def Reg.hwkUnrefspd : Nat := 0x602C
def Reg.hwkInsplo : Nat := 0x6030
def Reg.hwkInsphi : Nat := 0x6034
def Reg.hwkReflo : Nat := 0x6038
def Reg.hwkRefhi : Nat := 0x603C
def Reg.hwkReftol : Nat := 0x6040
def Reg.hwkCurvecfg : Nat := 0x6044
def Reg.hwkLatch : Nat := 0x6048
def Reg.hwkEnc : Nat := 0x604C
def Reg.hwkCpos (n : Nat) : Nat := 0x6100 + 8 * n
def Reg.hwkClim (n : Nat) : Nat := 0x6104 + 8 * n
def Reg.hwkStat : Nat := 0x6080
def Reg.hwkCause : Nat := 0x6084
def Reg.hwkPos : Nat := 0x6088
def Reg.hwkSpeed : Nat := 0x608C
def Reg.monStat : Nat := 0x8000
def Reg.monVer : Nat := 0x8004
def Reg.monTrips : Nat := 0x8008
def Reg.monTokens : Nat := 0x800C
def Reg.monEvalt : Nat := 0x8010
def Reg.monEvalmax : Nat := 0x8014
def Reg.monLatecnt : Nat := 0x8018
def Reg.monDigestLo : Nat := 0x801C
def Reg.monDigestHi : Nat := 0x8020
def Reg.monSdigestLo : Nat := 0x8024
def Reg.monSdigestHi : Nat := 0x8028
def Reg.monEvcfg : Nat := 0x802C
def Reg.grpCfg : Nat := 0x9800
def Reg.grpId : Nat := 0x9804
def Reg.grpSkew : Nat := 0x9808
def Reg.grpStat : Nat := 0x980C
def Reg.grpEpoch : Nat := 0x9810
def Reg.grpView : Nat := 0x9814
def Reg.grpFrontLo : Nat := 0x9818
def Reg.grpFrontHi : Nat := 0x981C
def Reg.grpCnt : Nat := 0x9820
def Reg.stlCfg : Nat := 0x9000
def Reg.stlMaclo : Nat := 0x9004
def Reg.stlMachi : Nat := 0x9008
def Reg.stlSkewwin : Nat := 0x900C
def Reg.stlVlan : Nat := 0x9010
def Reg.stlPtp : Nat := 0x9014
def Reg.stlLata : Nat := 0x9018
def Reg.stlLatb : Nat := 0x901C
def Reg.stlStat : Nat := 0x9020
def Reg.stlPathfail : Nat := 0x9024
def Reg.stlCnt0 : Nat := 0x9028
def Reg.stlCnt1 : Nat := 0x902C
def Reg.stlOffset : Nat := 0x9030
def Reg.canCfg (n : Nat) : Nat := 0xA000 + 384 * n
def Reg.canNbt (n : Nat) : Nat := 0xA004 + 384 * n
def Reg.canDbt (n : Nat) : Nat := 0xA008 + 384 * n
def Reg.canStat (n : Nat) : Nat := 0xA00C + 384 * n
def Reg.canDrop (n : Nat) : Nat := 0xA010 + 384 * n
def Reg.canFid (n k : Nat) : Nat := 0xA040 + 0x180 * n + 8 * k
def Reg.canFmsk (n k : Nat) : Nat := 0xA044 + 0x180 * n + 8 * k
def Reg.spiCfg (n : Nat) : Nat := 0xA600 + 128 * n
def Reg.spiStat (n : Nat) : Nat := 0xA604 + 128 * n
def Reg.engStat : Nat := 0xB000
def Reg.engCluster : Nat := 0xB004
def Reg.engCfg : Nat := 0xB008
def Reg.engArb : Nat := 0xB00C
def Reg.engNoout : Nat := 0xB010
def Reg.engEcc : Nat := 0xB014
def Reg.engSpare : Nat := 0xB018
def Reg.engLastfault : Nat := 0xB01C
def Reg.krnStat : Nat := 0xB100
def Reg.krnLasterr : Nat := 0xB104
def Reg.krnUsedLo : Nat := 0xB108
def Reg.krnUsedHi : Nat := 0xB10C
def Reg.tlgStat : Nat := 0x2000
def Reg.tlgLastref : Nat := 0x2004
def Reg.tlgCommits : Nat := 0x2008
def Reg.tlgOvr : Nat := 0x200C
def Reg.tlgHostbw : Nat := 0x2010
def Reg.tlgPortbw : Nat := 0x2014
def Reg.tlgUtil (n : Nat) : Nat := 0x2020 + 4 * n
def Reg.hiuStatus : Nat := 0x0040
def Reg.hiuIfver : Nat := 0x0044
def Reg.hiuAqCtrl : Nat := 0x0048
def Reg.hiuAqSqbaseLo : Nat := 0x0050
def Reg.hiuAqSqbaseHi : Nat := 0x0054
def Reg.hiuAqCqbaseLo : Nat := 0x0058
def Reg.hiuAqCqbaseHi : Nat := 0x005C
def Reg.hiuAqEqbaseLo : Nat := 0x0060
def Reg.hiuAqEqbaseHi : Nat := 0x0064
def Reg.hiuAqVec : Nat := 0x0068
def Reg.hiuLatTol : Nat := 0x006C
def Reg.hiuLtr : Nat := 0x0070
def Reg.hiuEvroute0 : Nat := 0x0080
def Reg.hiuEvroute1 : Nat := 0x0084
def Reg.hiuEvroute2 : Nat := 0x0088
def Reg.hiuEvroute3 : Nat := 0x008C
def Reg.hiuEvsev : Nat := 0x0090
def Reg.hiuCnt : Nat := 0x0094
def Reg.hiuDlmiss : Nat := 0x0098
def Reg.hiuMod (n : Nat) : Nat := 0x0400 + 4 * n
def Reg.cocStat : Nat := 0x7000
def Reg.cocFs : Nat := 0x7004
def Reg.cocWd : Nat := 0x7008
def Reg.cocTapcfg : Nat := 0x700C
def Reg.cocVmon : Nat := 0x7010
def Reg.cocVmon2 : Nat := 0x7014
def Reg.cocTapstat : Nat := 0x7018
def Reg.cocLinkcnt : Nat := 0x701C
def Reg.cocCh (n : Nat) : Nat := 0x7100 + 4 * n
def Reg.cocChstat (n : Nat) : Nat := 0x7200 + 4 * n
def Reg.cocBrcfg (n : Nat) : Nat := 0x7300 + 8 * n
def Reg.cocBroc (n : Nat) : Nat := 0x7304 + 8 * n
def Reg.cocBrstat (n : Nat) : Nat := 0x7400 + 4 * n
def Reg.pmuCfg : Nat := 0x1000
def Reg.pmuStat : Nat := 0x1004
def Reg.pmuTol : Nat := 0x1008
def Reg.pmuWake : Nat := 0x100C
def Reg.pmuWakein0 : Nat := 0x1010
def Reg.pmuWakein1 : Nat := 0x1014
def Reg.pmuTimer : Nat := 0x1018
def Reg.pmuLastwake : Nat := 0x101C
def Reg.pmuDom : Nat := 0x1020
def Reg.pmuBoot : Nat := 0x1024
def Reg.pmuRstcause : Nat := 0x1028
def Reg.pmuPf : Nat := 0x102C
def Reg.chrStat : Nat := 0xC000
def Reg.chrCfg : Nat := 0xC004
def Reg.chrGenLo : Nat := 0xC008
def Reg.chrGenHi : Nat := 0xC00C
def Reg.chrLastLo : Nat := 0xC010
def Reg.chrLastHi : Nat := 0xC014
def Reg.updStat : Nat := 0xC100
def Reg.updCfg : Nat := 0xC104
def Reg.updSlot (n : Nat) : Nat := 0xC110 + 4 * n
def Reg.hiuId : Nat := 0x0000
def Reg.hiuDevid : Nat := 0x0004
def Reg.hiuPkgver : Nat := 0x0008
def Reg.hiuPkgmin : Nat := 0x000C
def Reg.hiuSerialLo : Nat := 0x0010
def Reg.hiuSerialHi : Nat := 0x0014
def Reg.hiuVerUse : Nat := 0x0018
def Reg.hiuVerImpl : Nat := 0x001C
def Reg.hiuFmt : Nat := 0x0020
def Reg.hiuDtLo : Nat := 0x0024
def Reg.hiuDtHi : Nat := 0x0028
def Reg.hiuLocks : Nat := 0x002C

/-- The CAP registers. -/
def regsCap : List RegDef :=
  [⟨0xD000, 0, 1, 0x0, 0x0, 0x0, 0x56120121⟩,
   ⟨0xD004, 0, 1, 0x0, 0x0, 0x0, 0xC07⟩,
   ⟨0xD008, 0, 1, 0x0, 0x0, 0x0, 0x27⟩,
   ⟨0xD00C, 0, 1, 0x0, 0x0, 0x0, 0x3FF⟩,
   ⟨0xD010, 0, 1, 0x0, 0x0, 0x0, 0xF03F30⟩,
   ⟨0xD014, 0, 1, 0x0, 0x0, 0x0, 0xEF⟩,
   ⟨0xD018, 0, 1, 0x0, 0x0, 0x0, 0x1000008⟩,
   ⟨0xD01C, 0, 1, 0x0, 0x0, 0x0, 0x10⟩,
   ⟨0xD020, 0, 1, 0x0, 0x0, 0x0, 0x1⟩]

/-- The PFI registers. -/
def regsPfi : List RegDef :=
  [⟨0x3000, 64, 8, 0x3F1FF7, 0x0, 0x0, 0x10444⟩,
   ⟨0x3004, 64, 8, 0xFFFFFFFF, 0x0, 0x0, 0x80000000⟩,
   ⟨0x3008, 64, 8, 0xFFFFFFFF, 0x0, 0x0, 0x7FFFFFFF⟩,
   ⟨0x300C, 64, 8, 0xFFFFFF, 0x0, 0x0, 0x8000⟩,
   ⟨0x3010, 64, 8, 0xFFFFFFFF, 0x0, 0x0, 0x0⟩,
   ⟨0x3014, 64, 8, 0xFFFFFF, 0x0, 0x0, 0x4E20⟩,
   ⟨0x3018, 64, 8, 0xFFFFFF, 0x0, 0x0, 0x3E80⟩,
   ⟨0x301C, 64, 8, 0xFFFF, 0x0, 0x0, 0x6414⟩,
   ⟨0x3020, 64, 8, 0x0, 0x143, 0x0, 0x0⟩,
   ⟨0x3200, 64, 2, 0x3F1F03, 0x0, 0x0, 0x1800⟩,
   ⟨0x3204, 64, 2, 0x3F1F01FF, 0x0, 0x0, 0x14000032⟩,
   ⟨0x3208, 64, 2, 0xFF3F, 0x0, 0x0, 0x5⟩,
   ⟨0x320C, 64, 2, 0xFFFFFFFF, 0x0, 0x0, 0x0⟩,
   ⟨0x3210, 64, 2, 0x0, 0x9, 0x0, 0x0⟩,
   ⟨0x3300, 0, 1, 0x1F3, 0x0, 0x0, 0x0⟩]

/-- The CPF registers. -/
def regsCpf : List RegDef :=
  [⟨0x3800, 0, 1, 0x3F, 0x0, 0x0, 0x0⟩,
   ⟨0x3804, 0, 1, 0xFFFFFFFF, 0x0, 0x0, 0x0⟩,
   ⟨0x3808, 0, 1, 0xFFFFFFFF, 0x0, 0x0, 0x0⟩,
   ⟨0x380C, 0, 1, 0xFFFFFFFF, 0x0, 0x0, 0x0⟩,
   ⟨0x3810, 0, 1, 0xFFFFFFFF, 0x0, 0x0, 0x0⟩,
   ⟨0x3814, 0, 1, 0xFFFFFFFF, 0x0, 0x0, 0x0⟩,
   ⟨0x3818, 0, 1, 0xFFFFFFFF, 0x0, 0x0, 0x320400⟩,
   ⟨0x381C, 0, 1, 0xFFFFFFFF, 0x0, 0x0, 0x1388⟩,
   ⟨0x3820, 0, 1, 0xFFFFFFFF, 0x0, 0x0, 0x61A8⟩,
   ⟨0x3824, 0, 1, 0xFFFFFFFF, 0x0, 0x0, 0x1F40BB8⟩,
   ⟨0x3828, 0, 1, 0xFFFFFFFF, 0x0, 0x0, 0xFFFFFFFF⟩,
   ⟨0x382C, 0, 1, 0xFFFFFFFF, 0x0, 0x0, 0x0⟩,
   ⟨0x3830, 0, 1, 0xFFFFFFFF, 0x0, 0x0, 0x0⟩,
   ⟨0x3834, 0, 1, 0xFFFFFFFF, 0x0, 0x0, 0x0⟩,
   ⟨0x3838, 0, 1, 0xFFFF, 0x0, 0x0, 0x0⟩,
   ⟨0x383C, 0, 1, 0xFFFFFFFF, 0x0, 0x0, 0xC807D0⟩,
   ⟨0x3840, 0, 1, 0xFFFFFFFF, 0x0, 0x0, 0xFA03E8⟩,
   ⟨0x3844, 0, 1, 0xFFFFFFFF, 0x0, 0x0, 0x2710⟩,
   ⟨0x3848, 0, 1, 0xFFFFFFFF, 0x0, 0x0, 0x7D0012C⟩,
   ⟨0x384C, 0, 1, 0xFF00FFFF, 0x0, 0x0, 0x6400012C⟩,
   ⟨0x3850, 0, 1, 0xFF, 0x0, 0x0, 0x14⟩,
   ⟨0x3854, 0, 1, 0x0, 0x1C00, 0x0, 0x4⟩,
   ⟨0x3858, 0, 1, 0x0, 0x0, 0x0, 0x0⟩]

/-- The MSQ registers. -/
def regsMsq : List RegDef :=
  [⟨0x4000, 0, 1, 0x3, 0x0, 0x0, 0x0⟩,
   ⟨0x4004, 0, 1, 0xFFFFFFFF, 0x0, 0x0, 0x0⟩,
   ⟨0x4008, 0, 1, 0xFFFFFFFF, 0x0, 0x0, 0x0⟩,
   ⟨0x400C, 0, 1, 0xFFFFFFFF, 0x0, 0x0, 0x0⟩,
   ⟨0x4010, 0, 1, 0xFFFFFFFF, 0x0, 0x0, 0x80000000⟩,
   ⟨0x4014, 0, 1, 0xFFFFFFFF, 0x0, 0x0, 0x7FFFFFFF⟩,
   ⟨0x4018, 0, 1, 0xFFFF, 0x0, 0x0, 0x1F4⟩,
   ⟨0x401C, 0, 1, 0xFFFFFFFF, 0x0, 0x0, 0xBB803E8⟩,
   ⟨0x4020, 0, 1, 0xFFFFFFFF, 0x0, 0x0, 0x27100032⟩,
   ⟨0x4024, 0, 1, 0xFFFF, 0x0, 0x0, 0xC8⟩,
   ⟨0x4028, 0, 1, 0xFFFFFFFF, 0x0, 0x0, 0x99CF0⟩,
   ⟨0x402C, 0, 1, 0xFFFFFFFF, 0x0, 0x0, 0x7D007D0⟩,
   ⟨0x4030, 0, 1, 0x0, 0x80, 0x0, 0x0⟩,
   ⟨0x4100, 128, 5, 0xFF00FE, 0x0, 0x0, 0x40040⟩,
   ⟨0x4104, 128, 5, 0xFFFFFFFF, 0x0, 0x0, 0x0⟩,
   ⟨0x4108, 128, 5, 0xFFFFFF, 0x0, 0x0, 0x0⟩,
   ⟨0x410C, 128, 5, 0xFFFFFFFF, 0x0, 0x0, 0x0⟩,
   ⟨0x4110, 128, 5, 0xFFFFFFFF, 0x0, 0x0, 0x0⟩,
   ⟨0x4114, 128, 5, 0xFFFFFFFF, 0x0, 0x0, 0x0⟩,
   ⟨0x4118, 128, 5, 0xFFFFFFFF, 0x0, 0x0, 0x0⟩,
   ⟨0x411C, 128, 5, 0xFFFFFFFF, 0x0, 0x0, 0x0⟩,
   ⟨0x4120, 128, 5, 0xFFFFFFFF, 0x0, 0x0, 0x0⟩,
   ⟨0x4124, 128, 5, 0xFFFFFFFF, 0x0, 0x0, 0xFA02710⟩,
   ⟨0x4128, 128, 5, 0xFFFFFF00, 0x0, 0x0, 0x967800⟩,
   ⟨0x412C, 128, 5, 0xFFFFFFFF, 0x0, 0x0, 0x0⟩,
   ⟨0x4130, 128, 5, 0xFFFFFF00, 0x0, 0x0, 0x320300⟩,
   ⟨0x4134, 128, 5, 0xFFFF, 0x0, 0x0, 0x14⟩,
   ⟨0x4138, 128, 5, 0xFFFFFFFF, 0x0, 0x0, 0x4B00320⟩,
   ⟨0x413C, 128, 5, 0xFFFFFFFF, 0x0, 0x0, 0xA00028⟩,
   ⟨0x4140, 128, 5, 0xFFFFFF03, 0x0, 0x0, 0x0⟩,
   ⟨0x4144, 128, 5, 0xFFFFFFFF, 0x0, 0x0, 0x0⟩,
   ⟨0x4148, 128, 5, 0xFFFFFFFF, 0x0, 0x0, 0x0⟩,
   ⟨0x414C, 128, 5, 0xFFFFFFFF, 0x0, 0x0, 0x0⟩,
   ⟨0x4150, 128, 5, 0xFFFFFFFF, 0x0, 0x0, 0x7D01388⟩,
   ⟨0x4154, 128, 5, 0xFFFFFFFF, 0x0, 0x0, 0x271001F4⟩,
   ⟨0x4158, 128, 5, 0x0, 0x8C00, 0x0, 0x0⟩,
   ⟨0x4400, 4, 16, 0xFFFF0001, 0x0, 0x0, 0x3E80000⟩]

/-- The DRV registers. -/
def regsDrv : List RegDef :=
  [⟨0xA800, 0, 1, 0xF3, 0x0, 0x0, 0x30⟩,
   ⟨0xA804, 0, 1, 0xFF, 0x0, 0x0, 0xE1⟩,
   ⟨0xA808, 0, 1, 0xFF, 0x0, 0x0, 0x64⟩,
   ⟨0xA80C, 0, 1, 0x0, 0xB8, 0x0, 0x0⟩,
   ⟨0xA810, 0, 1, 0x0, 0x0, 0x0, 0x0⟩]

/-- The LPE registers. -/
def regsLpe : List RegDef :=
  [⟨0x5000, 0, 1, 0x0, 0x0, 0x0, 0x0⟩,
   ⟨0x5004, 0, 1, 0x0, 0x1E, 0x0, 0x0⟩,
   ⟨0x5008, 0, 1, 0x0, 0x0, 0x0, 0x100⟩,
   ⟨0x5010, 4, 16, 0x80003F03, 0x0, 0x0, 0x0⟩,
   ⟨0x5100, 4, 64, 0x0, 0xC0, 0x0, 0x1FFFF00⟩]

/-- The HWK registers. -/
def regsHwk : List RegDef :=
  [⟨0x6000, 0, 1, 0x0, 0x0, 0x1, 0x0⟩,
   ⟨0x6004, 0, 1, 0x0, 0x0, 0xFFFFFFFF, 0x0⟩,
   ⟨0x6008, 0, 1, 0x0, 0x0, 0xFFFFFFFF, 0x0⟩,
   ⟨0x600C, 0, 1, 0x0, 0x0, 0xFFFFFFFF, 0x0⟩,
   ⟨0x6010, 0, 1, 0x0, 0x0, 0xFFFFFFFF, 0x0⟩,
   ⟨0x6014, 0, 1, 0x0, 0x0, 0xFFFFFFFF, 0x0⟩,
   ⟨0x6018, 0, 1, 0x0, 0x0, 0xFFFF, 0x0⟩,
   ⟨0x601C, 0, 1, 0x0, 0x0, 0xFFFFFF, 0x0⟩,
   ⟨0x6020, 0, 1, 0x0, 0x0, 0xFFFF0F0F, 0x202⟩,
   ⟨0x6024, 0, 1, 0x0, 0x0, 0xFFFFFF, 0x0⟩,
   ⟨0x6028, 0, 1, 0x0, 0x0, 0xFFFFFF, 0x0⟩,
   ⟨0x602C, 0, 1, 0x0, 0x0, 0xFFFFFF, 0x0⟩,
   ⟨0x6030, 0, 1, 0x0, 0x0, 0xFFFFFFFF, 0x0⟩,
   ⟨0x6034, 0, 1, 0x0, 0x0, 0xFFFFFFFF, 0x0⟩,
   ⟨0x6038, 0, 1, 0x0, 0x0, 0xFFFFFFFF, 0x0⟩,
   ⟨0x603C, 0, 1, 0x0, 0x0, 0xFFFFFFFF, 0x0⟩,
   ⟨0x6040, 0, 1, 0x0, 0x0, 0xFFFF, 0x0⟩,
   ⟨0x6044, 0, 1, 0x0, 0x0, 0x3F, 0x0⟩,
   ⟨0x6048, 0, 1, 0x0, 0x0, 0xFFFF, 0x6120⟩,
   ⟨0x604C, 0, 1, 0x0, 0x0, 0xFF, 0x0⟩,
   ⟨0x6100, 8, 32, 0x0, 0x0, 0xFFFFFFFF, 0x0⟩,
   ⟨0x6104, 8, 32, 0x0, 0x0, 0xFFFFFFFF, 0x0⟩,
   ⟨0x6080, 0, 1, 0x0, 0x1000, 0x0, 0x0⟩,
   ⟨0x6084, 0, 1, 0x0, 0x0, 0x0, 0x1⟩,
   ⟨0x6088, 0, 1, 0x0, 0x0, 0x0, 0x0⟩,
   ⟨0x608C, 0, 1, 0x0, 0x0, 0x0, 0x0⟩]

/-- The MON registers. -/
def regsMon : List RegDef :=
  [⟨0x8000, 0, 1, 0x0, 0x1C, 0x0, 0x0⟩,
   ⟨0x8004, 0, 1, 0x0, 0x0, 0x0, 0x20100⟩,
   ⟨0x8008, 0, 1, 0x0, 0x0, 0x0, 0x0⟩,
   ⟨0x800C, 0, 1, 0x0, 0x0, 0x0, 0x40⟩,
   ⟨0x8010, 0, 1, 0x0, 0x0, 0x0, 0x0⟩,
   ⟨0x8014, 0, 1, 0x0, 0x0, 0x0, 0x0⟩,
   ⟨0x8018, 0, 1, 0x0, 0x0, 0x0, 0x0⟩,
   ⟨0x801C, 0, 1, 0x0, 0x0, 0x0, 0x0⟩,
   ⟨0x8020, 0, 1, 0x0, 0x0, 0x0, 0x0⟩,
   ⟨0x8024, 0, 1, 0x0, 0x0, 0x0, 0x0⟩,
   ⟨0x8028, 0, 1, 0x0, 0x0, 0x0, 0x0⟩,
   ⟨0x802C, 0, 1, 0x1, 0x0, 0x0, 0x0⟩]

/-- The GRP registers. -/
def regsGrp : List RegDef :=
  [⟨0x9800, 0, 1, 0x0, 0x0, 0x0, 0x0⟩,
   ⟨0x9804, 0, 1, 0x0, 0x0, 0x0, 0x0⟩,
   ⟨0x9808, 0, 1, 0x3FF, 0x0, 0x0, 0x320⟩,
   ⟨0x980C, 0, 1, 0x0, 0x28, 0x0, 0x0⟩,
   ⟨0x9810, 0, 1, 0x0, 0x0, 0x0, 0x0⟩,
   ⟨0x9814, 0, 1, 0x0, 0x0, 0x0, 0x0⟩,
   ⟨0x9818, 0, 1, 0x0, 0x0, 0x0, 0x0⟩,
   ⟨0x981C, 0, 1, 0x0, 0x0, 0x0, 0x0⟩,
   ⟨0x9820, 0, 1, 0x0, 0x0, 0x0, 0x0⟩]

/-- The STL registers. -/
def regsStl : List RegDef :=
  [⟨0x9000, 0, 1, 0xF31, 0x0, 0x0, 0x0⟩,
   ⟨0x9004, 0, 1, 0xFFFFFFFF, 0x0, 0x0, 0x0⟩,
   ⟨0x9008, 0, 1, 0xFFFF, 0x0, 0x0, 0x0⟩,
   ⟨0x900C, 0, 1, 0x1F, 0x0, 0x0, 0xA⟩,
   ⟨0x9010, 0, 1, 0x1FFFF, 0x0, 0x0, 0xE000⟩,
   ⟨0x9014, 0, 1, 0xFF0FFF, 0x0, 0x0, 0x3205FF⟩,
   ⟨0x9018, 0, 1, 0xFFFFFFFF, 0x0, 0x0, 0x0⟩,
   ⟨0x901C, 0, 1, 0xFFFFFFFF, 0x0, 0x0, 0x0⟩,
   ⟨0x9020, 0, 1, 0x0, 0x803C, 0x0, 0x0⟩,
   ⟨0x9024, 0, 1, 0x0, 0x0, 0x0, 0x0⟩,
   ⟨0x9028, 0, 1, 0x0, 0x0, 0x0, 0x0⟩,
   ⟨0x902C, 0, 1, 0x0, 0x0, 0x0, 0x0⟩,
   ⟨0x9030, 0, 1, 0x0, 0x0, 0x0, 0x0⟩]

/-- The CAN registers. -/
def regsCan : List RegDef :=
  [⟨0xA000, 384, 4, 0x7F7FFF3F, 0x0, 0x0, 0x8⟩,
   ⟨0xA004, 384, 4, 0x7F7FFFFF, 0x0, 0x0, 0x3030E09⟩,
   ⟨0xA008, 384, 4, 0xF0F1F1F, 0x0, 0x0, 0x1010604⟩,
   ⟨0xA00C, 384, 4, 0x0, 0x380000, 0x0, 0x0⟩,
   ⟨0xA010, 384, 4, 0x0, 0x0, 0x0, 0x0⟩,
   ⟨0xA040, 8, 32, 0xFFFFFFFF, 0x0, 0x0, 0x0⟩,
   ⟨0xA1C0, 8, 32, 0xFFFFFFFF, 0x0, 0x0, 0x0⟩,
   ⟨0xA340, 8, 32, 0xFFFFFFFF, 0x0, 0x0, 0x0⟩,
   ⟨0xA4C0, 8, 32, 0xFFFFFFFF, 0x0, 0x0, 0x0⟩,
   ⟨0xA044, 8, 32, 0x3FFFFFFF, 0x0, 0x0, 0x0⟩,
   ⟨0xA1C4, 8, 32, 0x3FFFFFFF, 0x0, 0x0, 0x0⟩,
   ⟨0xA344, 8, 32, 0x3FFFFFFF, 0x0, 0x0, 0x0⟩,
   ⟨0xA4C4, 8, 32, 0x3FFFFFFF, 0x0, 0x0, 0x0⟩]

/-- The SPI registers. -/
def regsSpi : List RegDef :=
  [⟨0xA600, 128, 2, 0xF3FFF07, 0x0, 0x0, 0x1140A00⟩,
   ⟨0xA604, 128, 2, 0x0, 0x6, 0x0, 0x0⟩]

/-- The ENG registers. -/
def regsEng : List RegDef :=
  [⟨0xB000, 0, 1, 0x0, 0x0, 0x0, 0x0⟩,
   ⟨0xB004, 0, 1, 0x0, 0x0, 0x0, 0x70⟩,
   ⟨0xB008, 0, 1, 0x1, 0x0, 0x0, 0x1⟩,
   ⟨0xB00C, 0, 1, 0x0, 0x0, 0x0, 0x0⟩,
   ⟨0xB010, 0, 1, 0x0, 0x0, 0x0, 0x0⟩,
   ⟨0xB014, 0, 1, 0x0, 0x0, 0x0, 0x0⟩,
   ⟨0xB018, 0, 1, 0x0, 0x0, 0x0, 0x0⟩,
   ⟨0xB01C, 0, 1, 0x0, 0x0, 0x0, 0x0⟩]

/-- The KRN registers. -/
def regsKrn : List RegDef :=
  [⟨0xB100, 0, 1, 0x0, 0x0, 0x0, 0x1000040⟩,
   ⟨0xB104, 0, 1, 0x0, 0x0, 0x0, 0x0⟩,
   ⟨0xB108, 0, 1, 0x0, 0x0, 0x0, 0x0⟩,
   ⟨0xB10C, 0, 1, 0x0, 0x0, 0x0, 0x0⟩]

/-- The TLG registers. -/
def regsTlg : List RegDef :=
  [⟨0x2000, 0, 1, 0x0, 0x0, 0x0, 0x0⟩,
   ⟨0x2004, 0, 1, 0x0, 0x0, 0x0, 0x0⟩,
   ⟨0x2008, 0, 1, 0x0, 0x0, 0x0, 0x0⟩,
   ⟨0x200C, 0, 1, 0x0, 0x0, 0x0, 0x0⟩,
   ⟨0x2010, 0, 1, 0x0, 0x0, 0x0, 0x0⟩,
   ⟨0x2014, 0, 1, 0x0, 0x0, 0x0, 0x0⟩,
   ⟨0x2020, 4, 16, 0x0, 0x0, 0x0, 0x0⟩]

/-- The HIU registers. -/
def regsHiu : List RegDef :=
  [⟨0x0040, 0, 1, 0x0, 0x18, 0x0, 0x0⟩,
   ⟨0x0044, 0, 1, 0x0, 0x0, 0x0, 0x302⟩,
   ⟨0x0048, 0, 1, 0x1F1F3F, 0x0, 0x0, 0x408⟩,
   ⟨0x0050, 0, 1, 0xFFFFFFFF, 0x0, 0x0, 0x0⟩,
   ⟨0x0054, 0, 1, 0xFFFFFFFF, 0x0, 0x0, 0x0⟩,
   ⟨0x0058, 0, 1, 0xFFFFFFFF, 0x0, 0x0, 0x0⟩,
   ⟨0x005C, 0, 1, 0xFFFFFFFF, 0x0, 0x0, 0x0⟩,
   ⟨0x0060, 0, 1, 0xFFFFFFFF, 0x0, 0x0, 0x0⟩,
   ⟨0x0064, 0, 1, 0xFFFFFFFF, 0x0, 0x0, 0x0⟩,
   ⟨0x0068, 0, 1, 0xFFFF, 0x0, 0x0, 0x0⟩,
   ⟨0x006C, 0, 1, 0xFFFF, 0x0, 0x0, 0x0⟩,
   ⟨0x0070, 0, 1, 0x0, 0x0, 0x0, 0x0⟩,
   ⟨0x0080, 0, 1, 0xFFFFFF00, 0x0, 0x0, 0x80808000⟩,
   ⟨0x0084, 0, 1, 0xFFFFFFFF, 0x0, 0x0, 0x80808080⟩,
   ⟨0x0088, 0, 1, 0xFFFFFFFF, 0x0, 0x0, 0x80808080⟩,
   ⟨0x008C, 0, 1, 0xFFFFFF, 0x0, 0x0, 0x808080⟩,
   ⟨0x0090, 0, 1, 0xF, 0x0, 0x0, 0x8⟩,
   ⟨0x0094, 0, 1, 0x0, 0x0, 0x0, 0x0⟩,
   ⟨0x0098, 0, 1, 0x0, 0x0, 0x0, 0x0⟩,
   ⟨0x0400, 4, 128, 0xFFFF00FF, 0x0, 0x0, 0x1⟩,
   ⟨0x0000, 0, 1, 0x0, 0x0, 0x0, 0x434C3536⟩,
   ⟨0x0004, 0, 1, 0x0, 0x0, 0x0, 0x56121100⟩,
   ⟨0x0008, 0, 1, 0x0, 0x0, 0x0, 0x0⟩,
   ⟨0x000C, 0, 1, 0x0, 0x0, 0x0, 0x0⟩,
   ⟨0x0010, 0, 1, 0x0, 0x0, 0x0, 0x2C000A37⟩,
   ⟨0x0014, 0, 1, 0x0, 0x0, 0x0, 0x1⟩,
   ⟨0x0018, 0, 1, 0x0, 0x0, 0x0, 0x0⟩,
   ⟨0x001C, 0, 1, 0x0, 0x0, 0x0, 0x2132⟩,
   ⟨0x0020, 0, 1, 0x0, 0x0, 0x0, 0x101⟩,
   ⟨0x0024, 0, 1, 0x0, 0x0, 0x0, 0x0⟩,
   ⟨0x0028, 0, 1, 0x0, 0x0, 0x0, 0x0⟩,
   ⟨0x002C, 0, 1, 0x0, 0x0, 0x0, 0x0⟩]

/-- The COC registers. -/
def regsCoc : List RegDef :=
  [⟨0x7000, 0, 1, 0x0, 0x300, 0x0, 0x0⟩,
   ⟨0x7004, 0, 1, 0x81FF01FF, 0x0, 0x0, 0xC000A0⟩,
   ⟨0x7008, 0, 1, 0x8001FFFF, 0x0, 0x0, 0x3E8⟩,
   ⟨0x700C, 0, 1, 0xFF00FF, 0x0, 0x0, 0x190000⟩,
   ⟨0x7010, 0, 1, 0x0, 0x0, 0x0, 0x0⟩,
   ⟨0x7014, 0, 1, 0x0, 0x0, 0x0, 0x0⟩,
   ⟨0x7018, 0, 1, 0x0, 0x0, 0x0, 0x0⟩,
   ⟨0x701C, 0, 1, 0x0, 0x0, 0x0, 0x0⟩,
   ⟨0x7100, 4, 48, 0x0, 0x0, 0x0, 0x10200⟩,
   ⟨0x7200, 4, 48, 0x0, 0x0, 0x0, 0x0⟩,
   ⟨0x7300, 8, 16, 0xFFFF031F, 0x0, 0x0, 0x4E200105⟩,
   ⟨0x7304, 8, 16, 0xFFFF, 0x0, 0x0, 0xBB8⟩,
   ⟨0x7400, 4, 16, 0x0, 0x0, 0x0, 0x0⟩]

/-- The PMU registers. -/
def regsPmu : List RegDef :=
  [⟨0x1000, 0, 1, 0xFFFF1F, 0x0, 0x0, 0xA0A01⟩,
   ⟨0x1004, 0, 1, 0x0, 0x0, 0x0, 0x0⟩,
   ⟨0x1008, 0, 1, 0x0, 0x0, 0x0, 0xFFFFFFFF⟩,
   ⟨0x100C, 0, 1, 0x7E0, 0x0, 0x0, 0x3E0⟩,
   ⟨0x1010, 0, 1, 0xFFFFFFFF, 0x0, 0x0, 0x0⟩,
   ⟨0x1014, 0, 1, 0xFFFF, 0x0, 0x0, 0x0⟩,
   ⟨0x1018, 0, 1, 0xFFFFFFFF, 0x0, 0x0, 0x0⟩,
   ⟨0x101C, 0, 1, 0x0, 0x0, 0x0, 0x0⟩,
   ⟨0x1020, 0, 1, 0x0, 0x0, 0x0, 0x1⟩,
   ⟨0x1024, 0, 1, 0x0, 0x0, 0x0, 0x0⟩,
   ⟨0x1028, 0, 1, 0x0, 0x0, 0x0, 0x1⟩,
   ⟨0x102C, 0, 1, 0x0, 0x4, 0x0, 0x1⟩]

/-- The CHR registers. -/
def regsChr : List RegDef :=
  [⟨0xC000, 0, 1, 0x0, 0x0, 0x0, 0x0⟩,
   ⟨0xC004, 0, 1, 0xFF, 0x0, 0x0, 0xA⟩,
   ⟨0xC008, 0, 1, 0x0, 0x0, 0x0, 0x0⟩,
   ⟨0xC00C, 0, 1, 0x0, 0x0, 0x0, 0x0⟩,
   ⟨0xC010, 0, 1, 0x0, 0x0, 0x0, 0x0⟩,
   ⟨0xC014, 0, 1, 0x0, 0x0, 0x0, 0x0⟩]

/-- The UPD registers. -/
def regsUpd : List RegDef :=
  [⟨0xC100, 0, 1, 0x0, 0x0, 0x0, 0x0⟩,
   ⟨0xC104, 0, 1, 0xFFFF, 0x0, 0x0, 0x3C⟩,
   ⟨0xC110, 4, 5, 0x0, 0x0, 0x0, 0x0⟩]

/-- Every setup register. -/
def regTable : List RegDef :=
  regsCap ++ regsPfi ++ regsCpf ++ regsMsq ++ regsDrv ++ regsLpe ++ regsHwk ++ regsMon ++ regsGrp ++ regsStl ++ regsCan ++ regsSpi ++ regsEng ++ regsKrn ++ regsTlg ++ regsHiu ++ regsCoc ++ regsPmu ++ regsChr ++ regsUpd

/-- Does `r` hold the register at `off`. -/
def RegDef.covers (r : RegDef) (off : Nat) : Bool :=
  if r.count = 1 then off = r.base
  else decide (r.base ≤ off) && (off - r.base) % r.stride == 0 && decide ((off - r.base) / r.stride < r.count)

/-- The register at a BAR0 offset; an offset that no table occupies is reserved (19 R415). -/
def regDef? (off : Nat) : Option RegDef := regTable.find? (fun r => r.covers off)

/-- The reset value of the register at an offset; reserved space reads zero (00 R6). -/
def regReset (off : Nat) : Word :=
  match regDef? off with
  | some r => BitVec.ofNat 32 r.reset
  | none => 0

end Sys2Proof.Machine
end

