-- ==== Sys2Proof/Machine/State.lean ====
section
/-! DEFINITION. The state of the block: every register, counter, buffer, mode and pin the spec gives
it, the queue of waiting commands, and the reasons a step can stop. -/
namespace Sys2Proof.Machine

/-- The twelve parts of 00 Table 0-1. -/
inductive Part where
  | cl5600c | cl5602c | cl5602f | cl5604f | cl5610c | cl5612c | cl5612f | cl5614f
  | cl5620c | cl5622c | cl5622f | cl5624f
deriving DecidableEq, Repr

/-- Completion status codes (15 Table 15-12). -/
inductive Status where
  | done | badVersion | badDescriptor | refusedLedger | refusedInterlock | reconfigBusy | hwFault
  | notInVariant | aborted | abortApplied | abortTooLate | flushed | timeout | unreachable
deriving DecidableEq, Repr

/-- A completion entry as written to a completion ring (15 Tables 15-4, R336): its index, phase and
contents; `ext` says that result words 4-9 follow in a continuation entry. -/
structure Completion where
  qp : Nat
  index : Nat
  phase : Bool
  tag : Word
  status : Status
  ext : Bool
  sqHead : Nat
  commit : Nat
  result : List Word
deriving DecidableEq, Repr

/-- An event record (15 Table 15-5); `payload` holds the fields its chapter's event table names, in
the table's order. -/
structure Event where
  source : Nat
  severity : Nat
  lost : Bool
  code : Nat
  object : Nat
  time : Nat
  payload : List Int
deriving DecidableEq, Repr

/-- What the block sends, in the order sent (log entry 4). -/
inductive Output where
  /-- A completion entry written to a host or LOCAL ring. -/
  | completion (c : Completion)
  /-- An event record written to the event ring of a queue pair, at an index and phase. -/
  | event (qp index : Nat) (phase : Bool) (e : Event)
  /-- Bytes written to host memory (or shared SRAM for a LOCAL ring) for a command. -/
  | hostWrite (addr : Nat) (bytes : List Byte)
  /-- An MSI-X message. -/
  | msix (vector addr : Nat) (data : Word)
  /-- The value a BAR0 read at an offset returns. -/
  | barRead (off : Nat) (v : Word)
  /-- A group frame sent on the ports of a mask (1 A, 2 B), with its FCS (11 R254, R256). -/
  | groupSend (ports : Nat) (bytes : List Byte)
  /-- A gPTP message sent on a port, with its sequence number and the time it passes the medium (11 R262). -/
  | ptpSend (port : Nat) (body : PtpBody) (seq time : Nat)
  /-- A host frame sent on the ports of a mask. -/
  | hostFrame (ports : Nat) (bytes : List Byte)
  /-- A CAN frame sent or a transmission begun by a controller. -/
  | canSend (n : Nat) (f : CanFrame)
  /-- A frame sent on the Drive Port. -/
  | drvFrame (bytes : List Byte)
  /-- A port's transactions begin: the SPI mode, and the chip select and bytes of each (11 R269). -/
  | spiRun (m mode : Nat) (txns : List (Nat × List Byte))
  /-- A pin of 20 changes level. -/
  | pin (p : Pin) (level : Bool)
  /-- An answer handed to a fixture duty (09 R224). -/
  | answer (trip car deck : Nat) (late : Bool)
  /-- A duty's output leaves the arbiter (12 R279). -/
  | dutyOutput (duty : Nat) (bytes : List Byte)
  /-- A frame of the isolation link, to Cocoon or (`true`) from it (16 R374). -/
  | linkFrame (up : Bool) (bytes : List Byte)
deriving DecidableEq, Repr

/-- A quadrature channel (03 R34-R48). Instants are DT in ns. -/
structure Chan where
  /-- Accepted levels of QAn, QBn and QZn. -/
  qa : Bool
  qb : Bool
  qz : Bool
  /-- The 48-bit raw counter (R35). -/
  raw : BitVec 48
  /-- The signed offset (R35). -/
  offset : Int
  /-- Confirmed direction DIR: true negative (R38). -/
  dirNeg : Bool
  /-- The extreme e, a raw count (R38). -/
  ext : BitVec 48
  /-- Speed edges since the restart, newest first: instant and raw count (R39, R40). -/
  edges : List (Nat × BitVec 48)
  /-- The speed estimate of the last evaluation, signed Q24.8 (R42). -/
  speed : Int
  /-- Window mode in force (R41). -/
  win : Bool
  /-- DT of the last accepted count (R43). -/
  tEdge : Nat
  /-- The phase-zero snapshot: p, speed, t_edge (R43). -/
  snapP : Int
  snapSpeed : Int
  snapEdge : Nat
  /-- The snapshot of the last CPF frame (04 Table 4-1): p and speed at t_k. -/
  tkP : Int
  tkSpeed : Int
  /-- The index is active; it went active while the channel was enabled; lowest u since (R45). -/
  idxActive : Bool
  idxTaken : Bool
  idxX : Int
  idxSeen : Bool
  /-- Levels of QAn, QBn and QZn at the last sample (R34). -/
  pinA : Bool
  pinB : Bool
  pinZ : Bool
  /-- Consecutive samples that have shown a level other than the accepted one (R34). -/
  runA : Nat
  runB : Nat
  runZ : Nat
  /-- E has reached ZTO since the last speed edge (R39). -/
  timedOut : Bool
deriving DecidableEq, Repr

def Chan.reset : Chan :=
  ⟨false, false, false, 0, 0, false, 0, [], 0, false, 0, 0, 0, 0, 0, 0, false, false, 0, false,
   false, false, false, 0, 0, 0, false⟩

/-- A compare slot (03 R49-R52, Table 3-10). -/
structure Slot where
  armed : Bool
  /-- A one-shot slot has fired since it was armed (R52). -/
  fired : Bool
  pos : Int
  dirf : Nat
  immediate : Bool
  repeat_ : Bool
  event : Bool
  latch : Bool
  trig : Bool
  trigLine : Nat
  latchMask : Nat
  behind : Bool
deriving DecidableEq, Repr

def Slot.reset : Slot :=
  ⟨false, false, 0, 0, false, false, false, false, false, 0, 0, false⟩

/-- A good read of an SSI channel: position and sample time (03 R56). -/
structure SsiRead where
  pos : Int
  at_ : Nat
deriving DecidableEq, Repr

/-- An SSI channel (03 R55, R56). -/
structure Ssi where
  /-- Sample time of the read in progress. -/
  reading : Option Nat
  good : Option SsiRead
  prevGood : Option SsiRead
  /-- The last good reads, newest first: those of more than a CPF period (04 R62). -/
  recent : List SsiRead
  /-- The previous read, good or failed. -/
  prevRead : Option Int
  fails : Nat
  goods : Nat
  fail : Bool
  stale : Bool
deriving DecidableEq, Repr

def Ssi.reset : Ssi := ⟨none, none, none, [], none, 0, 0, false, false⟩

/-- The Position Feedback Interface (03). -/
structure Pfi where
  chans : KMap Chan
  /-- Slot k of channel n under 64 n + k. -/
  slots : KMap Slot
  ssis : KMap Ssi
  /-- Pass-through output state 0-3 and the counts toward the next one (R53). -/
  ptState : Nat
  ptCount : Int
  /-- A division that a write of DIVM1 replaces from the next output state change (R53). -/
  ptOld : Option Nat
deriving DecidableEq, Repr

def Pfi.reset : Pfi := ⟨[], [], [], 0, 0, none⟩

/-- One entry of the landing table (04 Table 4-7); positions in µm. -/
structure Landing where
  sill : Int
  vlo : Int
  vhi : Int
  flags : Nat
  vchat : Nat
deriving DecidableEq, Repr

/-- A landing table (04 Tables 4-6, 4-7). -/
structure LandingTable where
  gen : Nat
  ntsLo : Int
  ntsHi : Int
  tapeOfs : Int
  deckMeas : Int
  slip0 : Int
  chatter : Nat
  entries : List Landing
deriving DecidableEq, Repr

/-- The CPF states of 04 Table 4-4, with their codes in order. -/
inductive CpfState where
  | valid | degraded | suspect | lost | unreferenced | learning | correcting
deriving DecidableEq, Repr

/-- The three tracks (04 R64). -/
inductive Track where
  | t0 | t1 | ts
deriving DecidableEq, Repr

/-- What CPF keeps of a track (04 R64, R65, R68, R70, R74). -/
structure TrackState where
  /-- The track value of the last period, µm. -/
  value : Int
  /-- Anchor a_i and the count it stands for. -/
  anchor : Int
  nAnc : Int
  /-- Anchor uncertainty and CPE travel since the anchor, µm. -/
  uAnc : Nat
  travel : Nat
  healthy : Bool
  excluded : Bool
deriving DecidableEq, Repr

def TrackState.reset : TrackState := ⟨0, 0, 0, 0, 0, false, false⟩

/-- The track values and counts of one past period, for interpolation at t_e (04 R65). -/
structure TrackSample where
  tk : Nat
  v0 : Int
  v1 : Int
  vs : Int
  n0 : Int
  n1 : Int
  str : Int
deriving DecidableEq, Repr

/-- The inputs CPF_DZIN names (04 R63). -/
inductive ZoneInput where
  | dz0 | dz1 | ntsLo | ntsHi
deriving DecidableEq, Repr

/-- A reported edge of a zone input: new level, Cocoon timestamp, arrival instant. -/
structure ZoneEdge where
  input : ZoneInput
  level : Bool
  te : Nat
  arrived : Nat
deriving DecidableEq, Repr

/-- An edge recorded during the learning run: step it came in and its position in each track
(04 R79, R81). -/
structure LearnEdge where
  step : Nat
  edge : ZoneEdge
  p0 : Int
  p1 : Int
  ps : Int
deriving DecidableEq, Repr

/-- A learning or correction run in progress (04 R81, R84). -/
structure CpfRun where
  /-- true: learning run; false: correction run. -/
  learning : Bool
  /-- The command to complete; none for an automatic correction run. -/
  desc : Option Desc
  /-- Learning: step 1-5. Correction: 1 vane phase, 2 terminal phase, 3 reversing to the nearest
  landing after the terminal, 4 levelling. -/
  step : Nat
  expected : Nat
  stageOnly : Bool
  forceTerminal : Bool
  passStart : Nat
  edges : List LearnEdge
  vanes : Nat
  /-- Correction: result phase (1 vane, 2 terminal), rv and the landing to level at. -/
  phase : Nat
  rv : Int
  landing : Nat
  /-- The abort code that ends the run, once one applies (Table 4-8). -/
  abort : Option Nat
  /-- Correction, after the terminal: the last vane edge met was accepted under Table 4-3 (R84). -/
  accepted : Bool
  /-- T0 and T1 that stood excluded when the run started (log entry 9). -/
  excl0 : Bool
  excl1 : Bool
  /-- First edges of the chattering edges already reported (R79). -/
  chattered : List Nat
  /-- CPF_SLIP, CPF_TAPEOFS and the staged table before step 4, and the shift z of the frame (R81, R82). -/
  saved : Option (Word × Word × Option LandingTable × Int)
deriving DecidableEq, Repr

/-- The stored position record (04 R83); `serial`: its own GEN among its MRAM copies (18 R402). -/
structure StoredPos where
  serial : Nat
  x : Int
  u : Nat
  landing : Nat
  gen : Nat
  dt : Nat
  crc : Nat
deriving DecidableEq, Repr

/-- Car position fusion (04). Positions µm, speeds µm/s. -/
structure Cpf where
  state : CpfState
  /-- The present period's t_k. -/
  tk : Nat
  /-- The t_k of the estimate published last (R69). -/
  pubTk : Nat
  /-- The CPF setup registers as they stood at the last period: the values in force (R86). -/
  inForce : KMap Word
  x : Int
  v : Int
  a : Int
  u : Nat
  reference : Option Track
  propagation : Option Track
  t0 : TrackState
  t1 : TrackState
  ts : TrackState
  /-- What is taken off TS during a learning run with tape, so that all tracks start at 0 (R81). -/
  tsBase : Int
  mRawPrev : Int
  slp : Int
  strAnc : Int
  /-- Samples of the three most recent periods, newest first. -/
  history : List TrackSample
  /-- The CPE speeds of the last four periods, newest first (R67). -/
  speeds : List Int
  load : Nat
  /-- A count has set PHASE_ERR of Q0 or Q1 since the previous period (R70). -/
  phase0 : Bool
  phase1 : Bool
  /-- Disagreement above WARN stood in the previous period (R71). -/
  warned : Bool
  /-- Consecutive periods an excluded TS has kept within WARN (R74). -/
  tsWithin : Nat
  /-- VANE_MISSED in a row, and a miss or mismatch since the last accepted edge (R76). -/
  missedRow : Nat
  flawed : Bool
  /-- Table edges (landing, upper) already processed since the car last passed them, of DZ0 (R73). -/
  seenEdges : List (Nat × Bool)
  /-- How far the reference has been followed for missed edges: upward, position (R73). -/
  followed : Option (Bool × Int)
  zoneEdges : List ZoneEdge
  table : Option LandingTable
  /-- The table that the last commit replaced, and the instant of that commit (R78). -/
  replaced : Option (Nat × Option LandingTable)
  staged : Option LandingTable
  run : Option CpfRun
  /-- Speed the run drives the car at, µm/s (R81, R84). -/
  drive : Int
  stored : Option StoredPos
  /-- Re-validation has been attempted since the start in UNREFERENCED (R83). -/
  revalDone : Bool
  /-- EN was cleared by a write and takes effect at the end of the period (R86). -/
  closing : Bool
  /-- CPF_CORRECT, CPF_SET_LOAD and CPF_TABLE_COMMIT awaiting the next period. -/
  waitCorrect : List Desc
  waitLoad : List Desc
  waitCommit : List Desc
  /-- The car was at rest at the previous period (R83). -/
  wasAtRest : Bool
deriving DecidableEq, Repr

def Cpf.reset : Cpf :=
  { state := .unreferenced, tk := 0, pubTk := 0, inForce := [], x := 0, v := 0, a := 0, u := 0xFFFFFFFF,
    reference := none, propagation := none, t0 := .reset, t1 := .reset, ts := .reset,
    tsBase := 0, mRawPrev := 0, slp := 0, strAnc := 0, history := [], speeds := [], load := 0,
    phase0 := false, phase1 := false, warned := false, tsWithin := 0, missedRow := 0,
    flawed := false, seenEdges := [], followed := none, zoneEdges := [], table := none, replaced := none, staged := none, run := none,
    drive := 0, stored := none, revalDone := false, closing := false, waitCorrect := [],
    waitLoad := [], waitCommit := [], wasAtRest := true }

/-- A point of motion, held exactly (05 R91): position in 1 / (6 * 10^27) µm, speed in
1 / (2 * 10^18) µm/s, acceleration in 10^-9 µm/s². -/
structure Kin where
  x : Int
  v : Int
  a : Int
deriving DecidableEq, Repr

/-- A segment of constant jerk: jerk in µm/s³ and duration in whole ns (05 R91). -/
structure Seg where
  jerk : Int
  dur : Nat
deriving DecidableEq, Repr

/-- A planned profile (05 R90, R91, R94): from `k0` at instant `t0` through `segs`. When they end the
car is at `target` exactly, or keeps its speed when there is no target. -/
structure Plan where
  t0 : Nat
  k0 : Kin
  segs : List Seg
  target : Option Int
  /-- The speed kept when there is no target, µm/s. -/
  vEnd : Int
deriving DecidableEq, Repr

/-- What a hoist motion is for. -/
inductive HKind where
  | goto | speed | stopPoint | relevel | interim | cpfSpeed | cpfLevel
deriving DecidableEq, Repr

/-- A hoist motion (05 R94, R95, R99, R103, R104). -/
structure HMotion where
  kind : HKind
  /-- The command completed by this motion, if any. -/
  desc : Option Desc
  landing : Nat
  deck : Nat
  target : Option Int
  /-- Speed cap in mm/s, 0 none; the speed set-point of a speed motion, µm/s. -/
  cap : Nat
  setPoint : Int
  pretorque : Int
  inspection : Bool
  /-- Completion flags. -/
  clamped : Bool
  vlimit : Bool
  /-- The stop is the interim stop of a reversal; it follows an abort (05 R95, R103). -/
  afterAbort : Bool
  interimLanding : Nat
deriving DecidableEq, Repr

/-- Where the hoist stands in a run (05 R100, R102, R95, R103). -/
inductive HPhase where
  | rest | waitEnable | waitReady | waitBrake | travel | settle | dwell | braking | quickStop | coasting
deriving DecidableEq, Repr

/-- The hoist axis of the MSQ (05). -/
structure Hoist where
  enabled : Bool
  phase : HPhase
  /-- The instant the present phase began (grant, last sample, dwell or stop command). -/
  since : Nat
  /-- The last sample computed and its instant; the sample before it (05 R89). -/
  kin : Kin
  prior : Kin
  sampleAt : Nat
  plan : Option Plan
  /-- Planned peak speed, µm/s. -/
  peak : Int
  active : Option HMotion
  /-- The goto to run when the dwell ends (05 R95). -/
  next : Option HMotion
  /-- Commands awaiting their decision instant, in dispatch order (05 R93). -/
  waiting : List (Desc × Nat)
  /-- Aborts accepted after a period's instant and before its profile step, which may still commit the target at that
  instant: target, abort, acceptance (05 R102, 15 R345). -/
  aborts : List (Desc × Desc × Nat)
  /-- Stop and disable commands to complete at rest. -/
  stops : List Desc
  disables : List Desc
  /-- Frame command bits (05 Table 5-5). -/
  run : Bool
  brakeLift : Bool
  qstop : Bool
  pretorque : Int
  levelling : Bool
  inspection : Bool
  /-- Target of the last goto that completed DONE at a landing, for re-levelling (05 R104). -/
  levelled : Option (Nat × Nat × Int)
  /-- Since when the CPE has been beyond RELEV_START of it. -/
  offSince : Option Nat
  /-- Speed and CPF state acted on at the last step (05 R98). -/
  lastCpf : CpfState
  /-- The inverter reported FAULT and no DRV_FAULT_RESET has completed since (05 R105). -/
  faultHeld : Bool
  /-- Setup registers as the last profile step, and as the last profile planned, took them (05 R112). -/
  stepRegs : KMap Word
  planRegs : KMap Word
  /-- Peak |CPE acceleration| of the run, µm/s², and travel not yet counted, µm (18 R399, R400). -/
  peakAcc : Nat
  travelled : Nat
  /-- Travel of the present run, µm (04 CPF_CFG.SLIPADAPT). -/
  runTravel : Nat
deriving DecidableEq, Repr

def Hoist.reset : Hoist :=
  { enabled := false, phase := .rest, since := 0, kin := ⟨0, 0, 0⟩, prior := ⟨0, 0, 0⟩, sampleAt := 0, plan := none,
    peak := 0, active := none, next := none, waiting := [], aborts := [], stops := [], disables := [],
    run := false, brakeLift := false, qstop := false, pretorque := 0, levelling := false,
    inspection := false, levelled := none, offSince := none, lastCpf := .unreferenced,
    faultHeld := false, stepRegs := [], planRegs := [], peakAcc := 0, travelled := 0, runTravel := 0 }

/-- A status frame as received, in the fields of version 2 (05 Tables 5-6, 5-8). -/
structure DrvStatus where
  status : Nat
  faultCode : Nat
  speed : Int
  torque : Int
  dcBus : Nat
  temp : Int
  bytes : List Byte
deriving DecidableEq, Repr

def DrvStatus.reset : DrvStatus := ⟨0, 0, 0, 0, 0, 0, []⟩

/-- The Drive Port (05 R106-R114). -/
structure Drv where
  running : Bool
  /-- Frame version in use; 0 not settled. -/
  version : Nat
  /-- HELLO frames sent while negotiating; none when not negotiating. -/
  hellos : Option Nat
  /-- Hoist periods since the version was settled. -/
  settledFor : Nat
  enableDesc : Option Desc
  seq : Nat
  /-- SEQ of the set-point frame that waits for its status frame, and the instant that frame ended. -/
  awaiting : Option Nat
  sentEnd : Nat
  /-- t_k of the hoist period of the last frame sent. -/
  sentFor : Option Nat
  badRow : Nat
  goodRow : Nat
  linkUp : Bool
  last : DrvStatus
  /-- A good status frame not yet consumed by a profile step. -/
  fresh : Bool
  missing : Nat
  bad : Nat
  /-- FAULT_RESET set-point frames still to send, its command, fault code and start instant (05 R114). -/
  faultReset : Nat
  resetDesc : Option (Desc × Nat × Nat)
deriving DecidableEq, Repr

def Drv.reset : Drv :=
  { running := false, version := 0, hellos := none, settledFor := 0, enableDesc := none, seq := 0,
    awaiting := none, sentEnd := 0, sentFor := none, badRow := 0, goodRow := 0, linkUp := false, last := .reset, fresh := false,
    missing := 0, bad := 0, faultReset := 0, resetDesc := none }

/-- An entry of a cam table (06 Table 6-4). -/
structure CamEntry where
  pos : Int
  noObs : Bool
  mark : Bool
deriving DecidableEq, Repr

/-- A cam table that has passed its check, or is staged for it, with its image (06 Tables 6-3, 6-4). -/
structure Cam where
  kind : Nat
  rate : Nat
  xstep : Nat
  x0 : Nat
  entries : List CamEntry
deriving DecidableEq, Repr

/-- A cam slot: its current table, the image staged for a check, and its load command (06 R122, R126). -/
structure CamSlot where
  current : Option Cam
  /-- The image of the current table, for its re-check (06 R126). -/
  image : List Byte
  valid : Bool
  staged : List Byte
  loading : Option Desc
deriving DecidableEq, Repr

def CamSlot.reset : CamSlot := ⟨none, [], false, [], none⟩

/-- The axis states of 06 Table 6-7, coded as `DState.code`. -/
inductive DState where
  | disabled | closed | opening | open_ | closing | stopped | advWait | fault | positioning
deriving DecidableEq, Repr

/-- The generator of a motion (06 R124, R125, R128, R148). -/
inductive Gen where
  | none
  /-- A cam of a slot, its table and phase. -/
  | cam (slot : Nat) (table : Cam) (phi : Nat)
  /-- Gearing: slot, sense, start, master count at start and at the ratio change. -/
  | gear (slot : Nat) (sense : Int) (start : Int) (m0 : Int) (mc : Option Int)
  /-- A position target, in 2^-8 µm. -/
  | goto (target : Int)
  /-- Homing: the axis closes at 50 mm/s (R121). -/
  | home
deriving DecidableEq, Repr

/-- A door axis or axis A (06). -/
structure Axis where
  state : DState
  /-- Enable in progress: its command, HOME still to do, and since when aligning or clamped. -/
  enabling : Option Desc
  homing : Bool
  aligning : Option Nat
  clampSince : Option Nat
  pRef : Int
  /-- Follower (R120), in 2^-8 µm, µm/s, µm/s². -/
  pf : Int
  vf : Int
  af : Int
  gen : Gen
  pGen : Int
  vGen : Int
  /-- The virtual master and its fraction (R128). -/
  virt : Int
  virtFrac : Int
  /-- Setup registers as the last motion start took them (06 R146). -/
  regs : KMap Word
  /-- The motion: its command, sense, end position (2^-8 µm), flags and start. -/
  desc : Option Desc
  /-- Decided with its set, and waiting for the axes of it that wait for the car (06 R143). -/
  together : Bool
  sense : Int
  pEnd : Int
  nudge : Bool
  /-- The NUDGE that applies from the next door step (06 Table 6-7). -/
  nudgeNext : Option Bool
  advance : Bool
  gear : Bool
  start : Nat
  /-- The axis is stopping under its limits; the disables to complete then. -/
  stopping : Bool
  disabling : List Desc
  stopDescs : List Desc
  /-- Commutation and limiter. -/
  iq : Int
  setU : Int
  setV : Int
  setW : Int
  theta : Nat
  strong : Bool
  offSince : Option Nat
  shunts : List Int
  lastE : Nat
  overRow : Nat
  tripped : Bool
  bridgesSafe : Bool
  obsRow : Nat
  relief : Bool
  forceClamp : Bool
  energyClamp : Bool
  reopen : Bool
  /-- Trigger line 1 has pulsed since the wait began (R142). -/
  advPulse : Bool
  openedOnce : Bool
  /-- The axis has been enabled, so its end position is a target (R144). -/
  referenced : Bool
  /-- DSAFE applies at the next commutation step (R141). -/
  immediate : Bool
  /-- The door-open permit at the last door step (R139). -/
  permit : Bool
deriving DecidableEq, Repr

def Axis.reset : Axis :=
  { state := .disabled, enabling := none, homing := false, aligning := none, clampSince := none,
    pRef := 0, pf := 0, vf := 0, af := 0, gen := .none, pGen := 0, vGen := 0, virt := 0,
    virtFrac := 0, regs := [], desc := none, together := false, sense := 0, pEnd := 0, nudge := false,
    nudgeNext := none, advance := false,
    gear := false, start := 0, stopping := false, disabling := [], stopDescs := [], iq := 0,
    setU := 0, setV := 0, setW := 0, theta := 0, strong := false, offSince := none, shunts := [],
    lastE := 0, overRow := 0, tripped := false, bridgesSafe := true, obsRow := 0, relief := false,
    forceClamp := false, energyClamp := false, reopen := false, advPulse := false,
    openedOnce := false, referenced := false, immediate := false, permit := false }

/-- A general half-bridge: duty in use, duty for the next frame, cut for this frame (06 R145). -/
structure Bridge where
  duty : Nat
  next : Nat
  cut : Bool
deriving DecidableEq, Repr

def Bridge.reset : Bridge := ⟨0, 0, false⟩

/-- The first quarter of the reset sine table, entries 0-256 (06 R130). -/
def sineQuarter0 : List Int :=
  [0, 201, 402, 603, 804, 1005, 1206, 1407, 1608, 1809, 2009, 2210, 2410, 2611, 2811, 3012, 3212, 3412, 3612, 3811, 4011, 4210, 4410, 4609, 4808, 5007, 5205, 5404, 5602, 5800, 5998, 6195, 6393, 6590, 6786, 6983, 7179, 7375, 7571, 7767, 7962, 8157, 8351, 8545, 8739, 8933, 9126, 9319, 9512, 9704, 9896, 10087, 10278, 10469, 10659, 10849, 11039, 11228, 11417, 11605, 11793, 11980, 12167, 12353]

def sineQuarter1 : List Int :=
  [12539, 12725, 12910, 13094, 13279, 13462, 13645, 13828, 14010, 14191, 14372, 14553, 14732, 14912, 15090, 15269, 15446, 15623, 15800, 15976, 16151, 16325, 16499, 16673, 16846, 17018, 17189, 17360, 17530, 17700, 17869, 18037, 18204, 18371, 18537, 18703, 18868, 19032, 19195, 19357, 19519, 19680, 19841, 20000, 20159, 20317, 20475, 20631, 20787, 20942, 21096, 21250, 21403, 21554, 21705, 21856, 22005, 22154, 22301, 22448, 22594, 22739, 22884, 23027]

def sineQuarter2 : List Int :=
  [23170, 23311, 23452, 23592, 23731, 23870, 24007, 24143, 24279, 24413, 24547, 24680, 24811, 24942, 25072, 25201, 25329, 25456, 25582, 25708, 25832, 25955, 26077, 26198, 26319, 26438, 26556, 26674, 26790, 26905, 27019, 27133, 27245, 27356, 27466, 27575, 27683, 27790, 27896, 28001, 28105, 28208, 28310, 28411, 28510, 28609, 28706, 28803, 28898, 28992, 29085, 29177, 29268, 29358, 29447, 29534, 29621, 29706, 29791, 29874, 29956, 30037, 30117, 30195]

def sineQuarter3 : List Int :=
  [30273, 30349, 30424, 30498, 30571, 30643, 30714, 30783, 30852, 30919, 30985, 31050, 31113, 31176, 31237, 31297, 31356, 31414, 31470, 31526, 31580, 31633, 31685, 31736, 31785, 31833, 31880, 31926, 31971, 32014, 32057, 32098, 32137, 32176, 32213, 32250, 32285, 32318, 32351, 32382, 32412, 32441, 32469, 32495, 32521, 32545, 32567, 32589, 32609, 32628, 32646, 32663, 32678, 32692, 32705, 32717, 32728, 32737, 32745, 32752, 32757, 32761, 32765, 32766]

def sineQuarter4 : List Int :=
  [32767]

def sineQuarter : List Int :=
  sineQuarter0 ++ sineQuarter1 ++ sineQuarter2 ++ sineQuarter3 ++ sineQuarter4

/-- The sine table at reset (06 R130): round (32767 sin (2 pi k / 1024)), by the symmetry of the sine. -/
def sineReset : List Int :=
  sineQuarter ++ (sineQuarter.take 256).reverse
    ++ ((sineQuarter.drop 1).map (fun x => -x)
      ++ ((sineQuarter.drop 1).take 255).reverse.map (fun x => -x))

/-- The door and auxiliary axes and the general bridges (06). Axis n under key n, 4 = A; slot s of
axis n under 4 n + s. -/
structure Door where
  axes : KMap Axis
  cams : KMap CamSlot
  /-- Commands awaiting their decision instant with their dispatch instants (R138). -/
  waiting : List (Desc × Nat)
  sine : List Int
  /-- Sine tables read from host memory that wait for their decision instant (R130, R138). -/
  sines : List (Desc × List Int)
  bridges : KMap Bridge
  /-- The hoist goto that advance openings wait on has ended since the last step: commit, or abort
  (R139, R142). -/
  gotoDone : Bool
  gotoLost : Bool
deriving DecidableEq, Repr

def Door.reset : Door := ⟨[], [], [], sineReset, [], [], false, false⟩

/-- The parameters of one mode of a loop (07 Table 7-10); for LAW 2, kp..ka are b0, b1, b2, a1, a2. -/
structure LoopParams where
  law : Nat
  flags : Nat
  sp : Nat
  y : Nat
  vff : Nat
  aff : Nat
  pos : Nat
  tables : Nat
  kp : Int
  ki : Int
  kd : Int
  kv : Int
  ka : Int
  kt : Int
  alpha : Nat
  blend : Nat
  umin : Int
  umax : Int
  slew : Nat
  imax : Nat
  stepLim : Nat
deriving DecidableEq, Repr

def LoopParams.reset : LoopParams := ⟨0, 0, 0, 0, 0, 0, 0, 0, 0, 0, 0, 0, 0, 0, 0, 0, 0, 0, 0, 0, 0⟩

/-- A hand-over decided and not yet made (07 R168, R169); `bank`: from the old bank of the active mode
to its new one (R171). -/
structure Hand where
  loop : Nat
  mode : Nat
  bank : Bool
  at_ : Nat
  desc : Option Desc
deriving DecidableEq, Repr

/-- A blend in progress: u_hold, samples done, B (07 R168). -/
structure Blend where
  hold : Int
  done_ : Nat
  n : Nat
deriving DecidableEq, Repr

/-- A loop (07 R155-R160, R172). -/
structure Loop where
  /-- Slot in its last frame; 0x1FF not admitted. -/
  slot : Nat
  /-- No evaluation since it was admitted. -/
  first : Bool
  mode : Nat
  iacc : Int
  df : Int
  yPrev : Int
  ePrev : Int
  x1 : Int
  x2 : Int
  u1 : Int
  u2 : Int
  satHi : Bool
  satLo : Bool
  /-- The integrator each mode last held. -/
  held : KMap Int
  blend : Option Blend
  ffOnly : Bool
  chain : Int
  /-- Output of the last evaluation, when its group releases it, and the output before it. -/
  u : Int
  relAt : Nat
  old : Int
  lastFrame : Nat
deriving DecidableEq, Repr

def Loop.reset : Loop :=
  ⟨0x1FF, true, 0, 0, 0, 0, 0, 0, 0, 0, 0, false, false, [], none, false, 0, 0, 0, 0, 0⟩

/-- An admitted rate group (07 R154). -/
structure RateGroup where
  period : Nat
  offset : Nat
  release : Nat
  mask : Nat
deriving DecidableEq, Repr

/-- A feed-forward table (07 Tables 7-3, 7-4): entries (OPEN, CLOSE), or (FORCE, 0). -/
structure FfTable where
  kind : Nat
  shift : Nat
  chan : Nat
  x0 : Int
  step : Nat
  entries : List (Int × Int)
deriving DecidableEq, Repr

/-- A staged table that waits for its swap (07 R163). -/
structure FfStage where
  table : FfTable
  at_ : Nat
  desc : Desc
deriving DecidableEq, Repr

/-- A parameter commit that waits for its phase zero (07 R171). -/
structure LpeCommit where
  mask : Nat
  blend : Bool
  at_ : Nat
  desc : Desc
deriving DecidableEq, Repr

/-- The Loop Engine (07). -/
structure Lpe where
  /-- The number of the present frame, and of the frames begun since reset. -/
  frame : Nat
  frames : Nat
  /-- DT of the last phase zero. -/
  phaseAt : Nat
  loops : KMap Loop
  /-- Active bank of mode m of loop l under 8 l + m, shadow bank under 8 l + 4 + m. -/
  banks : KMap LoopParams
  hands : List Hand
  commits : List LpeCommit
  tables : KMap (Option FfTable)
  staged : KMap (Option FfStage)
  /-- Admitted groups by number; 64-66 are the MSQ's own (log entry 12). -/
  groups : KMap (Option RateGroup)
  /-- Engine mailbox words. -/
  mailbox : KMap Int
deriving DecidableEq, Repr

def Lpe.reset : Lpe := ⟨0, 0, 0, [], [], [], [], [], [], [], []⟩

/-- A stored event record of Hawkmoth that waits for its event ring (08 R198). -/
structure HwkRecord where
  severity : Nat
  code : Nat
  time : Nat
  payload : List Int
deriving DecidableEq, Repr

/-- A set of Hawkmoth permits: motion, door deck 0, door deck 1 (08 R178, R190). -/
structure Permits where
  motion : Bool
  door0 : Bool
  door1 : Bool
deriving DecidableEq, Repr

def Permits.none : Permits := ⟨false, false, false⟩

/-- What a half tells the other in a link frame (08 R178). -/
structure HwkReport where
  permits : Permits
  active : Nat
  latched : Nat
deriving DecidableEq, Repr

/-- Before lock NOT_ARMED stands and nothing is granted (08 R195). -/
def HwkReport.reset : HwkReport := ⟨.none, 1, 0⟩

/-- An enable output on the 10 kHz timebase (08 R191): gated, level driven, consecutive wrong
readbacks. -/
structure EnableOut where
  gated : Bool
  level : Bool
  wrong : Nat
deriving DecidableEq, Repr

/-- The logic half of Hawkmoth (08). -/
structure HwkLogic where
  /-- Its RC oscillator runs (R191). -/
  osc : Bool
  locked : Bool
  lockErr : Bool
  /-- Lock error reason, 0-6 (R197). -/
  reason : Nat
  armed : Bool
  /-- The rule set has passed its checks and waits for the Cocoon half, with the command. -/
  confirming : Bool
  lockDesc : Option Desc
  /-- The edge at which LOCK was written (R197). -/
  lockAt : Nat
  /-- CRC computed at the last lock. -/
  crc : Word
  /-- Rule-set registers that have taken their first write, by offset (R194). -/
  written : KMap Bool
  h : Int
  /-- Net count since the last speed update, and of the intervals of 100 µs before it, newest first
  (R183). -/
  net : Int
  nets : List Int
  s : Int
  qa : Bool
  qb : Bool
  /-- Consecutive samples against the accepted levels (R183). -/
  runA : Nat
  runB : Nat
  referenced : Bool
  /-- h at the last DZ0 edge (R185). -/
  lastDz0 : Option Int
  active : Nat
  latched : Nat
  /-- Unlatched speed causes that are held until S has read 0 for 500 ms (R179). -/
  held : Nat
  /-- Causes found by the last speed update (R186, R187). -/
  speedCauses : Nat
  /-- Causes raised since the last evaluation by an edge or a load (R184, R185, R189). -/
  pulse : Nat
  /-- The conditions present at the last evaluation, for R192. -/
  cond : Nat
  /-- UCM triggers since the last evaluation: number and the anchor or h_park (R189). -/
  triggers : List (Nat × Int)
  clkBad : Bool
  clkPasses : Nat
  /-- Consecutive speed updates with S = 0 (R179, R192). -/
  zeroRow : Nat
  /-- Anchor of deck d; the last valid reading of each lock was open (R188). -/
  anchor0 : Option Int
  anchor1 : Option Int
  lockOpen : KMap Bool
  insp : Bool
  recallOn : Bool
  /-- Consecutive evaluations without the half's own motion permit; h_park (R189). -/
  parkRow : Nat
  park : Option Int
  permits : Permits
  /-- Instant (DT), h and S of the last evaluations, newest first (R198). -/
  recent : List (Nat × Int × Int)
  /-- The Cocoon half's last report, and whether one has come since reset. -/
  other : HwkReport
  seen : Bool
  /-- The Cocoon half is armed, as last told (Table 8-7). -/
  fieldArmed : Bool
  /-- The first toggle of MOTION_EN that the last frame told (R198). -/
  toggled : Option Nat
  /-- The permits both halves give, as last known here (Table 8-7). -/
  both : Permits
  /-- The latches the Cocoon half kept have been adopted (R192). -/
  adopted : Bool
  records : List HwkRecord
  dropped : Nat
deriving DecidableEq, Repr

def HwkLogic.reset : HwkLogic :=
  { osc := true, locked := false, lockErr := false, reason := 0, armed := false, confirming := false,
    lockDesc := none, lockAt := 0, crc := 0, written := [], h := 0, net := 0, nets := [], s := 0, qa := false,
    qb := false, runA := 0, runB := 0, referenced := false, lastDz0 := none, active := 1, latched := 0,
    held := 0, speedCauses := 0, pulse := 0, cond := 1, triggers := [], clkBad := true,
    clkPasses := 0, zeroRow := 0, anchor0 := none, anchor1 := none, lockOpen := [], insp := false,
    recallOn := false, parkRow := 0, park := none, permits := .none, recent := [], other := .reset,
    seen := false, fieldArmed := false, toggled := none, both := .none, adopted := false, records := [], dropped := 0 }

/-- The Cocoon half of Hawkmoth (08). -/
structure HwkField where
  osc : Bool
  armed : Bool
  /-- Its copy of the rule set: the words of 0x6008-0x604F and 0x6100-0x61FF (R194). -/
  rules : List Word
  active : Nat
  latched : Nat
  /-- Its copy of the logic half's latched causes (R192). -/
  copy : Nat
  /-- The logic half's last report. -/
  logic : HwkReport
  /-- Consecutive frames without, and with, a valid logic-half permit; LINK (Table 8-1). -/
  badRow : Nat
  goodRow : Nat
  link : Bool
  permits : Permits
  /-- Instant of the last evaluation that changed its report (model time). -/
  evalAt : Nat
  /-- Instant of the first toggle of MOTION_EN since it was last gated on (R191). -/
  toggleAt : Option Nat
  timebase : Bool
  motionEn : EnableOut
  doorEn : EnableOut
deriving DecidableEq, Repr

def HwkField.reset : HwkField :=
  { osc := true, armed := false, rules := [], active := 1, latched := 0, copy := 0, logic := .reset,
    badRow := 2, goodRow := 0, link := true, permits := .none, evalAt := 0, toggleAt := none,
    timebase := false, motionEn := ⟨false, false, 0⟩, doorEn := ⟨false, false, 0⟩ }

/-- A car record (09 Table 9-4). TARGET 0xFF: none. -/
structure CarRec where
  mode : Nat
  phase : Nat
  dir : Nat
  doors : Nat
  o : Nat
  ncl : Nat
  load0 : Nat
  load1 : Nat
  tRef : Nat
  target : Nat
deriving DecidableEq, Repr

/-- A car record before its first car-status event (DESIGN CHOICE, log entry 25). -/
def CarRec.reset : CarRec := ⟨0, 0, 0, 0, 0, 0, 0, 0, 0, 0xFF⟩

/-- Trip states (09 Table 9-3), least advanced first. -/
inductive TripState where
  | unassigned | assigned | frozen | pickup | riding
deriving DecidableEq, Repr

/-- A trip context (09 Table 9-2). Landings 0xFFFF: none; car 0xFF: none. -/
structure Trip where
  id : Nat
  type : Nat
  state : TripState
  origin : Nat
  dest : Nat
  up : Bool
  late : Bool
  acc : Bool
  pref : Nat
  reann : Bool
  pax : Nat
  car : Nat
  deck : Nat
  tEv : Nat
  cost : Int
  pickEst : Nat
  dropEst : Nat
  reassigns : Nat
  attach : Nat
  tPick : Nat
  tag : Word
deriving DecidableEq, Repr

/-- The arguments of a call as its event carries them (10 Table 10-2): MON_CALL word 4 in `w4`. -/
structure CallBody where
  id : Nat
  lo : Nat
  ld : Nat
  w4 : Word
  tag : Word
deriving DecidableEq, Repr

/-- What an event record carries (10 Table 10-2). -/
inductive EventBody where
  | status (r : CarRec)
  | call (c : CallBody)
  | cancel (id : Nat)
deriving DecidableEq, Repr

/-- A group event (10 R226, R229). -/
structure GroupEvent where
  node : Nat
  gseq : Nat
  tEv : Nat
  epoch : Nat
  body : EventBody
deriving DecidableEq, Repr

/-- What is committed, in order: a real event or an implicit tick (09 R200, R201). -/
inductive Committed where
  | tick (t : Nat)
  | event (e : GroupEvent)
deriving DecidableEq, Repr

/-- What an evaluation is for (09 Table 9-3, R217). -/
inductive EvalKind where
  | call | tick | ineligible
deriving DecidableEq, Repr

/-- A queued evaluation (09 R202, R219). -/
structure EvalJob where
  trip : Nat
  kind : EvalKind
  tEv : Nat
deriving DecidableEq, Repr

/-- A call of this node's host that is not answered, or is tracked (09 R224). -/
structure MonCall where
  desc : Desc
  id : Nat
  track : Bool
  sentAt : Option Nat
  late : Bool
  /-- The trip that carries it, once the call is answered, and the cause. -/
  trip : Option Nat
  cause : Nat
  /-- An abort accepted after the send instant. -/
  abort : Option Desc
deriving DecidableEq, Repr

/-- Monarch (09). -/
structure Mon where
  trips : KMap (Option Trip)
  cars : KMap CarRec
  /-- Token bucket (R218). -/
  tok : Nat
  tFill : Nat
  rrptr : Nat
  /-- The active image, and its flight-time images by class; an empty image is absent. -/
  cfg : List Byte
  ftt : KMap (List Byte)
  digest : Nat
  stagedCfg : List Byte
  stagedFtt : KMap (List Byte)
  sdigest : Nat
  /-- The staged set is offered: the MON_CONFIG_COMMIT commands that wait. -/
  offered : List Desc
  committed : List Committed
  jobs : List EvalJob
  jobStart : Nat
  /-- t_ev of the event whose evaluations are running: its freeze rule is still to come. -/
  running : Option Nat
  lastEval : Nat
  maxEval : Nat
  lateCnt : Nat
  calls : List MonCall
  cancels : List (Desc × Nat × Nat)
  /-- The node's own last trip sequence. -/
  seq : Nat
  /-- MODE of the own car, and the DOORS bits set by MON_CAR_DOORS at this halt (R207). -/
  mode : Nat
  doors : Nat
  /-- The own car record last formed, and its T_REF. -/
  own : Option CarRec
  tRef : Nat
deriving DecidableEq, Repr

def Mon.reset : Mon :=
  { trips := [], cars := [], tok := 64, tFill := 0, rrptr := 0, cfg := [], ftt := [], digest := 0,
    stagedCfg := [], stagedFtt := [], sdigest := 0, offered := [], committed := [], jobs := [],
    jobStart := 0, running := none, lastEval := 0, maxEval := 0, lateCnt := 0, calls := [],
    cancels := [], seq := 0, mode := 0, doors := 0, own := none, tRef := 0 }

/-- A heartbeat as received (10 Table 10-1). -/
structure Heartbeat where
  proto : Nat
  protoMin : Nat
  protoMax : Nat
  node : Nat
  flags : Nat
  costMin : Nat
  costMax : Nat
  hbT : Nat
  epoch : Nat
  coord : Nat
  view : Nat
  cap : Word
  active : Nat
  staged : Nat
  gseq : Nat
  groupId : Nat
  capacity : Nat
  members : Nat
  skew : Nat
deriving DecidableEq, Repr

/-- A FLUSH record (10 R235). Not part of the record: `view`, the VIEW of its sender as its heartbeats announce it, 0 for
a node that joins; `told`, whether one of the last 2 ms did or the first since has; `came`, when it came. -/
structure Flush where
  node : Nat
  proposed : Nat
  epoch : Nat
  coord : Nat
  hbT : Nat
  recv : List Nat
  view : Nat
  told : Bool
  came : Nat
deriving DecidableEq, Repr

/-- An EPOCH_START record (10 R235); `snaps`: the nodes and CRCs of merge snapshots. -/
structure EpochStart where
  coord : Nat
  view : Nat
  epoch : Nat
  proto : Nat
  costver : Nat
  cause : Nat
  merge : Bool
  tS : Nat
  cut : List Nat
  active : Nat
  snaps : List (Nat × Word)
deriving DecidableEq, Repr

/-- A view change in progress (10 R234, R235). -/
structure Change where
  proposed : Nat
  cause : Nat
  merge : Bool
  flushAt : Nat
  /-- The coordinator of this node has sent its EPOCH_START; the one taken, and when. -/
  sent : Bool
  start : Option EpochStart
  startAt : Nat
deriving DecidableEq, Repr

/-- What a node keeps of a peer (10 R228-R230, R234). -/
structure Peer where
  hb : Option Heartbeat
  hbAt : Nat
  /-- Highest GSEQ held without a gap; records beyond a gap; GSEQ known to be sent and not held, ascending, with
  when each was first known; the last GSEQ asked for with RETX. -/
  recv : Nat
  beyond : List GroupEvent
  marks : List (Nat × Nat)
  asked : Option Nat
  /-- HB_T of the last heartbeat that follows no gap. -/
  safeT : Nat
deriving DecidableEq, Repr

def Peer.reset : Peer := ⟨none, 0, 0, [], [], none, 0⟩

/-- Group replication (10). -/
structure Grp where
  en : Bool
  node : Nat
  members : Nat
  capacity : Nat
  groupId : Nat
  member : Bool
  joining : Bool
  /-- Leaving: the LEAVING heartbeats sent. -/
  leaving : Option Nat
  epoch : Nat
  coord : Nat
  view : Nat
  proto : Nat
  costver : Nat
  tS : Nat
  /-- When the epoch's EPOCH_START was applied here. -/
  startedAt : Nat
  /-- Group time of the next tick. -/
  tick : Nat
  /-- Cars eligible under R233. -/
  eligible : Nat
  peers : KMap Peer
  /-- Last GSEQ sent; the last records held of every node, for re-sending. -/
  gseq : Nat
  log : List GroupEvent
  /-- Events formed and not sent: body and t_ev. -/
  unsent : List (EventBody × Nat)
  /-- Events of the epoch that are not committed. -/
  held : List GroupEvent
  frontier : Nat
  change : Option Change
  /-- FLUSH records received since the last change, and causes that wait for the next one. -/
  flushes : List Flush
  /-- FLUSH records that came after EPOCH_START was taken: they belong to the next change. -/
  later : List Flush
  triggers : List (Nat × Bool)
  /-- A snapshot install in progress since; the snapshot chunks received, by sender. -/
  install : Option Nat
  snaps : KMap (List (Nat × List Byte))
  /-- Records delivered by Swallowtail and not yet taken. -/
  inbox : List (List Byte)
  hw : KMap Nat
  changes : Nat
  merges : Nat
  joinDesc : Option Desc
  leaveDesc : Option Desc
  /-- When joining began, or a member was last heard. -/
  quietAt : Nat
  /-- The present membership was formed under R245; its snapshot has been installed. -/
  formed : Bool
  installed : Bool
  /-- The node joins again when PD5 is on after a power state or a Monarch update (R243, 18 R409). -/
  back : Bool
deriving DecidableEq, Repr

def Grp.reset : Grp :=
  { en := false, node := 0, members := 0, capacity := 0, groupId := 0, member := false,
    joining := false, leaving := none, epoch := 0, coord := 0, view := 0, proto := 0, costver := 0,
    tS := 0, startedAt := 0, tick := 0, eligible := 0, peers := [], gseq := 0, log := [], unsent := [], held := [],
    frontier := 0, change := none, flushes := [], later := [], triggers := [], install := none, snaps := [],
    inbox := [], hw := [], changes := 0, merges := 0, joinDesc := none, leaveDesc := none,
    quietAt := 0, formed := false, installed := false, back := false }

/-- A copy of a group frame that waits for its window to close (11 R258). -/
structure StlWindow where
  sseq : Nat
  portB : Bool
  len : Nat
  pcrc : Nat
  record : List Byte
  closes : Nat
  /-- Delivered already, since the other path had failed (R258). -/
  delivered : Bool
deriving DecidableEq, Repr

/-- An invalid copy that is remembered for one skew window: SSEQ, port, instant. -/
structure StlInvalid where
  sseq : Nat
  portB : Bool
  at_ : Nat
deriving DecidableEq, Repr

/-- A delivered sequence (11 R259): SSEQ, LEN, PCRC, when its window closed, and the port it is still
owed on, if its other copy may yet count (R258 row 3). -/
structure StlDone where
  sseq : Nat
  len : Nat
  pcrc : Nat
  closed : Nat
deriving DecidableEq, Repr

/-- A path of a sender (11 R260): the sequences recorded on it since its last transition, valid or missing, and failed. -/
structure StlPath where
  marks : List (Nat × Bool)
  failed : Bool
deriving DecidableEq, Repr

/-- A known sender (11 R257-R260). -/
structure StlSender where
  known : Bool
  /-- L: the highest SSEQ delivered. -/
  top : Nat
  lastValid : Nat
  windows : List StlWindow
  invalid : List StlInvalid
  history : List StlDone
  pathA : StlPath
  pathB : StlPath
  lateAt : Option Nat
deriving DecidableEq, Repr

def StlSender.reset : StlSender :=
  ⟨false, 0, 0, [], [], [], ⟨[], false⟩, ⟨[], false⟩, none⟩

/-- A port (11 R252, R253): link up at full duplex, speed code, failed, since when it has held. -/
structure StlPort where
  link : Bool
  speed : Nat
  failed : Bool
  upSince : Nat
  /-- Until when the frames sent since the bandwidth test failed use up the admitted rate (14 R321). -/
  paidTo : Nat
deriving DecidableEq, Repr

/-- A host frame that waits for its transmission (11 R264). -/
structure StlTx where
  desc : Desc
  bytes : List Byte
  ports : Nat
deriving DecidableEq, Repr

/-- A received host frame: its bytes and receive DT. -/
structure HostFrame where
  bytes : List Byte
  at_ : Nat
deriving DecidableEq, Repr

/-- What gPTP holds for a port (11 R262): the last announce message with the time it came, the Sync that waits for its
Follow_Up (source, sequence, receive time), the peer delay in ns, the number and send time of the last delay request,
and its response (receipt time, receive time). -/
structure PtpPort where
  announced : Option (PtpVector × Nat)
  sync : Option (Nat × Nat × Nat)
  delay : Option Int
  reqSeq : Nat
  reqAt : Option Nat
  resp : Option (Nat × Nat)
deriving DecidableEq, Repr

def PtpPort.reset : PtpPort := ⟨none, none, none, 0, none, none⟩

/-- Swallowtail (11). -/
structure Stl where
  portA : StlPort
  portB : StlPort
  /-- Frames sent: the next SSEQ is one more. -/
  sseq : Nat
  senders : KMap StlSender
  mismatch : Nat
  late : Nat
  seqErr : Nat
  pcrcErr : Nat
  /-- gPTP: grandmaster identity, selected port, steps removed; GM, SYNC, STEPPED; last offset and rate
  correction, ppm (R262, R263). -/
  gmId : Nat
  gmPort : Nat
  gmSteps : Nat
  gm : Bool
  sync : Bool
  stepped : Bool
  /-- DT may still be stepped in the present stay outside membership (R263). -/
  stepLeft : Bool
  offset : Int
  rate : Int
  /-- When this grandmaster last sent Sync. -/
  syncAt : Option Nat
  ptpA : PtpPort
  ptpB : PtpPort
  /-- The port synchronisation comes from; the next sequence number; when the requests of the next second are due. -/
  slave : Option Bool
  ptpSeq : Nat
  ptpAt : Nat
  fifoA : List HostFrame
  fifoB : List HostFrame
  dropsA : Nat
  dropsB : Nat
  rxWait : List Desc
  tx : List StlTx
deriving DecidableEq, Repr

def Stl.reset : Stl :=
  { portA := ⟨false, 0, false, 0, 0⟩, portB := ⟨false, 0, false, 0, 0⟩, sseq := 0, senders := [],
    mismatch := 0, late := 0, seqErr := 0, pcrcErr := 0, gmId := 0, gmPort := 0, gmSteps := 0,
    gm := false, sync := false, stepped := false, stepLeft := true, offset := 0, rate := 0, syncAt := none, ptpA := .reset, ptpB := .reset,
    slave := none, ptpSeq := 0, ptpAt := 0, fifoA := [], fifoB := [],
    dropsA := 0, dropsB := 0, rxWait := [], tx := [] }

/-- A frame in a CAN transmit buffer (11 R267): an attempt is in progress since; an abort waits. -/
structure CanTx where
  desc : Desc
  frame : CanFrame
  order : Nat
  attempt : Option Nat
  abort : Option Desc
deriving DecidableEq, Repr

/-- A received CAN frame: filter, queue pair, valid instant. -/
structure CanRx where
  frame : CanFrame
  filter : Nat
  qp : Nat
  at_ : Nat
deriving DecidableEq, Repr

/-- A CAN controller (11 R265-R268). -/
structure Can where
  tx : List CanTx
  order : Nat
  rx : List CanRx
  rxWait : List Desc
  tec : Nat
  rec_ : Nat
  state : Nat
  dropped : Nat
deriving DecidableEq, Repr

def Can.reset : Can := ⟨[], 0, [], [], 0, 0, 0, 0⟩

/-- A transaction of an SPI program (11 R271). -/
structure SpiTxn where
  cs : Nat
  bytes : List Byte
deriving DecidableEq, Repr

/-- An SPI port (11 R269): its program, the staged one with its command, the result buffer and its
sample time, periods running, a stop that waits for the period's end, the period in progress. -/
structure Spi where
  program : List SpiTxn
  staged : Option (List SpiTxn × Desc)
  result : List Byte
  sampleAt : Nat
  run : Bool
  stopAsked : Bool
  period : Option Nat
deriving DecidableEq, Repr

def Spi.reset : Spi := ⟨[], none, [], 0, false, false, none⟩

/-- A hardware loop in progress (13 R305): counter, first and last word of its body, count, and what LC
holds. -/
structure HwLoop where
  k : Bool
  start : Nat
  stop : Nat
  count : Nat
  lc : Nat
deriving DecidableEq, Repr

/-- A register bank of an engine (12 Table 12-4), under register numbers. -/
structure Bank where
  d : KMap (BitVec 24)
  a : KMap (BitVec 56)
  p : KMap (BitVec 16)
  n : KMap (BitVec 16)
  /-- Active lengths of M0-M7, and the pending ones (R289). -/
  m : KMap (BitVec 16)
  pend : KMap (Option (BitVec 16))
  b : KMap (BitVec 16)
  /-- Loops in progress, innermost first (LC0 and LC1). -/
  loops : List HwLoop
  /-- ESR without BANK (Table 12-6). -/
  esr : Word
  pc : Nat
deriving DecidableEq, Repr

/-- A bank at reset: registers read 0 (DESIGN CHOICE, log entry 2), ESR as Table 12-6 gives. -/
def Bank.reset : Bank := ⟨[], [], [], [], [], [], [], [], 4#32, 0⟩

/-- A loaded kernel (13 Table 13-1). -/
structure Kernel where
  tag : Word
  modes : Nat
  region : Nat
  inOfs : Nat
  inLen : Nat
  stateOfs : Nat
  stateLen : Nat
  outOfs : Nat
  outLen : Nat
  code : List Word
  init : List Word
  cycles : Nat
deriving DecidableEq, Repr

/-- A duty descriptor (14 Table 14-2); `args`: bytes 24-55. -/
structure DutyDesc where
  id : Nat
  cls : Nat
  flags : Nat
  period : Nat
  offset : Nat
  phase : Nat
  deadline : Nat
  budget : Nat
  affinity : Nat
  op : Nat
  args : List Byte
deriving DecidableEq, Repr

/-- A job of a copy of a duty on an engine (14 R314, R326): the duty and kernel as they stood at its
release. -/
structure Job where
  desc : DutyDesc
  kernel : Kernel
  standby : Bool
  release : Nat
  deadline : Nat
  cost : Nat
  /-- Region base in the local data memory. -/
  base : Nat
  /-- Time run before `since`, and since when it runs. -/
  spent : Nat
  since : Nat
deriving DecidableEq, Repr

/-- A Hynum engine (12): state 0 off, 1 in service, 2 FAULTED, 3 RETIRED. -/
structure Engine where
  state : Nat
  /-- Bank 1 is in use. -/
  level1 : Bool
  bank0 : Bank
  bank1 : Bank
  run0 : Option Job
  run1 : Option Job
  waiting : List Job
  /-- Local data memory, 32-bit words (Table 12-1). -/
  mem : KMap Word
  /-- Local instruction memory: the code that the job of each level runs, loaded at its start (log entry 34). -/
  code0 : List Word
  code1 : List Word
deriving DecidableEq, Repr

def Engine.reset : Engine := ⟨0, false, .reset, .reset, none, none, [], [], [], []⟩

/-- A copy that has committed and waits for the arbiter (12 R279): the engine and region it ran in, and
its output and state areas. -/
structure CopyOut where
  job : Job
  engine : Nat
  at_ : Nat
  out : List Word
  state : List Word
deriving DecidableEq, Repr

/-- What the arbiter holds of the present period of a duty (12 R278-R281). -/
structure Period where
  desc : DutyDesc
  release : Nat
  deadline : Nat
  /-- Input and primary state regions as they stood at release. -/
  input : List Word
  state : List Word
  /-- The forwarded copy, and the one that differed from it. -/
  first : Option CopyOut
  differ : Option CopyOut
  /-- The deadline has passed. -/
  closed : Bool
  /-- Engine and state area of a copy that overran: it is replaced before the next release (14 R326). -/
  overran : Option (Nat × Nat)
deriving DecidableEq, Repr

/-- The engines and the output arbiter (12). -/
structure Eng where
  engines : KMap Engine
  /-- Powered clusters, and the instants at which clusters coming up were commanded, with the command. -/
  pwr : Nat
  rising : KMap (Option (Option Desc))
  /-- A cluster that goes down once its last job has ended, with the command and the count of duties
  migrated (R292). -/
  falling : Option (Nat × Option Desc × Nat)
  committed : List CopyOut
  periods : KMap (Option Period)
  mismatches : Nat
  reexecs : Nat
  noOut : Nat
  corr : Nat
  uncorr : Nat
  lastFault : Word
  /-- Arbiter output buffers of the engines, words under 1024 e + i (Table 12-1). -/
  outBuf : KMap Word
deriving DecidableEq, Repr

def Eng.reset : Eng := ⟨[], 0, [], none, [], [], 0, 0, 0, 0, 0, 0, []⟩

/-- The kernel store (13 R299, R310). -/
structure Krn where
  store : KMap (Option Kernel)
  lastErr : Word
deriving DecidableEq, Repr

def Krn.reset : Krn := ⟨[], 0⟩

/-- A placed copy: engine and region base; until its state has been copied, the engine and region base it moves from;
and whether the first job after a migration is still to come (14 R324). -/
structure Copy where
  engine : Nat
  base : Nat
  moved : Option (Nat × Nat)
  first : Bool
deriving DecidableEq, Repr

/-- An admitted duty (14). -/
structure Duty where
  desc : DutyDesc
  primary : Option Copy
  standby : Option Copy
  overruns : Nat
  /-- Its commit instant: releases come at or after it. -/
  since : Nat
deriving DecidableEq, Repr

/-- What an analysis is for (14 R322, R324, R325, 18 R409). -/
inductive LedgerTask where
  | config (image : List Byte)
  | check (image : List Byte)
  | migrate (id sel mask : Nat)
  | clusterDown (c : Nat)
  /-- A cluster is taken down for the update in progress. -/
  | update (c : Nat)
  /-- Re-place copies that have lost their engine. -/
  | replace
deriving DecidableEq, Repr

/-- A copy that moves: duty, standby, old and new engine (0xFF none). -/
structure Move where
  id : Nat
  standby : Bool
  old : Nat
  new : Nat
deriving DecidableEq, Repr

/-- What a commit puts in place (14 R323): the duties after it, what it adds and removes, the copies it
moves, and the copies that are lost: duty, engine lost. -/
structure LedgerPlan where
  duties : KMap (Option Duty)
  added : List Nat
  removed : List Nat
  moved : List Move
  lost : List (Nat × Nat)
deriving DecidableEq, Repr

/-- A commit that is pending: what for, the end of the analysis, the plan, and the plan of a second
commit that follows it (R324). -/
structure LedgerCommit where
  task : LedgerTask
  desc : Option Desc
  ready : Nat
  plan : LedgerPlan
  second : Option LedgerPlan
  /-- When the clusters it needs are out of retention (17 R387). -/
  restored : Nat
deriving DecidableEq, Repr

/-- The Timing Ledger (14). -/
structure Tlg where
  duties : KMap (Option Duty)
  /-- Analyses that run, oldest first. -/
  tasks : List (LedgerTask × Option Desc)
  pending : Option LedgerCommit
  /-- Copies wait for an engine: the ledger re-places them. -/
  replace : Bool
  lastRef : Word
  refused : Nat
  commits : Nat
  overruns : Nat
  /-- Ports whose bandwidth test has failed (R321). -/
  bwLost : Nat
deriving DecidableEq, Repr

def Tlg.reset : Tlg := ⟨[], [], none, false, 0, 0, 0, 0, 0⟩

/-- A drain in progress on a queue pair (15 R344): its instant, the descriptors flushed and in flight
at that instant, and the disable to complete (none for HIU_AQ_CTRL.EN = 0). -/
structure Drain where
  tx : Nat
  flushed : Nat
  inFlight : Nat
  desc : Option Desc
deriving DecidableEq, Repr

/-- A queue pair (15 R332-R344). -/
structure QPair where
  configured : Bool
  enabled : Bool
  draining : Option Drain
  isLocal : Bool
  sqBase : Nat
  cqBase : Nat
  eqBase : Nat
  sqLog : Nat
  cqLog : Nat
  /-- log2 of the event ring's size; 0 none. -/
  eqLog : Nat
  cqVec : Option Nat
  eqVec : Option Nat
  sqHead : Nat
  sqTail : Nat
  cqHead : Nat
  cqTail : Nat
  eqHead : Nat
  eqTail : Nat
  cqPhase : Bool
  eqPhase : Bool
  /-- CQ entries reserved for dispatched, uncompleted descriptors. -/
  reserved : Nat
  /-- Flushed descriptors whose completions wait for room, in ring order. -/
  flushWait : List Desc
  /-- Tags of the descriptors flushed by the present or last drain, with its t_x. -/
  flushedTags : List (Word × Nat)
  /-- Host-side resets it has been through (R347; the model's own, log entry 35). -/
  era : Nat
deriving DecidableEq, Repr

/-- A queue pair after reset: not configured (DESIGN CHOICE, log entry 2), not enabled. -/
def QPair.reset : QPair :=
  ⟨false, false, none, false, 0, 0, 0, 0, 0, 0, none, none, 0, 0, 0, 0, 0, 0, true, true, 0, [], [], 0⟩

/-- A dispatched, uncompleted descriptor and its dispatch instant (15 R334). -/
structure InFlight where
  desc : Desc
  at_ : Nat
deriving DecidableEq, Repr

/-- An abort accepted for a descriptor not yet dispatched (15 R346). -/
structure EarlyAbort where
  qp : Nat
  tag : Word
  at_ : Nat
deriving DecidableEq, Repr

/-- A run of dropped event records of one source (15 R338). -/
structure DropRun where
  count : Nat
  first : Nat
deriving DecidableEq, Repr

/-- An MSI-X vector (15 R340). -/
structure Vector where
  addr : Nat
  data : Word
  masked : Bool
  pending : Bool
  count : Nat
  oldest : Option Nat
deriving DecidableEq, Repr

/-- After reset every vector is masked (PRESUMED from the PCI Express specification the spec cites,
log entry 6). -/
def Vector.reset : Vector := ⟨0, 0, true, false, 0, none⟩

/-- The Host Interface Unit (15). -/
structure Hiu where
  /-- Interface version in force; 0 none. -/
  ifver : Nat
  linkUp : Bool
  linkWidth : Nat
  linkRate : Nat
  d3hot : Bool
  /-- Queue pair 0 reads enabled until its drain completes (R333). -/
  qps : KMap QPair
  inFlight : List InFlight
  earlyAborts : List EarlyAbort
  dropRuns : KMap (Option DropRun)
  vectors : KMap Vector
  lostCpl : Nat
  evDrop : Nat
  dlMiss : Nat
  /-- The LTR Mechanism Enable bit and the Max Snoop and Max No-Snoop Latency registers of the configuration space, each
a value [9:0] and a scale [12:10] (R348). -/
  ltrOn : Bool
  ltrSnoop : Nat
  ltrNoSnoop : Nat
  /-- Bytes spent of the class-4 credit of each queue pair in its present period (R335). -/
  spent : KMap Nat
  /-- Dispatched, uncompleted descriptors whose host side was reset: their completions are discarded (R347). -/
  orphans : List InFlight
  /-- Completions discarded since the link was lost (payload of HIU_LINK). -/
  discarded : Nat
  /-- The clock edge of the last dispatch, and the queue pair served last in turn (R334, R335). -/
  lastDispatch : Option Nat
  turn : Nat
  /-- Absolute deadline of the present period of a queue pair's class-4 duty; none before its first release. -/
  dueAt : KMap (Option Nat)
  /-- What waits for DMA while the function is in D3hot, oldest first (R330). -/
  held : List Output
  /-- Outcomes of the targets of aborts in flight: queue pair and tag of the abort (R346). -/
  fates : List (Nat × Word × Status)
  /-- Captured upper halves of the six 64-bit pairs (19 R421), by the offset of the _HI register. -/
  capture : KMap Word
deriving DecidableEq, Repr

def Hiu.reset : Hiu :=
  ⟨0, false, 0, 0, false, [], [], [], [], [], 0, 0, 0, false, 0, 0, [], [], 0, none, 0, [], [], [], []⟩

/-- The directions of a field channel (16 R352). -/
inductive Dir where
  | off | input | output | turning
deriving DecidableEq, Repr

/-- Configuration of a field channel, as COC_CH_CONFIG gives it (16 Table 16-6). -/
structure ChCfg where
  dir : Dir
  deb : Nat
  per : Nat
  safe : Bool
  edgeEv : Bool
deriving DecidableEq, Repr

def ChCfg.reset : ChCfg := ⟨.off, 1, 1, false, false⟩

/-- A field channel on the Cocoon die (16 R352-R361). Instants are the model's own time, ns. -/
structure FioChan where
  cfg : ChCfg
  /-- End of the turning time and the records that are acknowledged at it, each with the channel's turning as it
found it (R352, R379). -/
  turnEnd : Nat
  turnAcks : List (Nat × Bool)
  /-- The last sample (R353). -/
  sample : Bool
  /-- Accepted level, or output readback. -/
  level : Bool
  valid : Bool
  /-- It has been valid since it became an input (R356). -/
  everValid : Bool
  /-- Samples so far of a change that is being debounced, and its stamp (R354, R355). -/
  row : Nat
  stamp : Nat
  cmd : Bool
  cmdAt : Nat
  ilim : Bool
  mismatch : Nat
  backfeed : Bool
  overload : Bool
  rbfail : Bool
deriving DecidableEq, Repr

def FioChan.reset : FioChan :=
  { cfg := .reset, turnEnd := 0, turnAcks := [], sample := false, level := false, valid := false,
    everValid := false, row := 0, stamp := 0, cmd := false, cmdAt := 0,
    ilim := false, mismatch := 0, backfeed := false, overload := false, rbfail := false }

/-- A safety-chain tap (16 R368). -/
structure Tap where
  /-- State at the last report; a sample in the band keeps the last sample's state. -/
  energised : Bool
  sample : Bool
  /-- Sign of the last signed sample: the current was negative. -/
  neg : Bool
  /-- Some, and every, sample of the running half-cycle or window was energised. -/
  any : Bool
  all : Bool
  lastAt : Nat
  /-- The last report was a time-out of AC mode. -/
  late : Bool
deriving DecidableEq, Repr

def Tap.reset : Tap := ⟨false, false, false, false, true, 0, false⟩

/-- A bridge's entry in the downstream frame (16 Table 16-2): mode, set-point or DUTY, band or ILIM,
strong, DSAFE brake, and whether its axis or the general bridge is enabled (log entry 23). -/
structure BridgeSet where
  mode : Nat
  set_ : Int
  band : Nat
  strong : Bool
  brake : Bool
  enabled : Bool
deriving DecidableEq, Repr

def BridgeSet.reset : BridgeSet := ⟨0, 0, 0, false, false, false⟩

/-- The gate in conduction. -/
inductive Side where
  | none | high | low
deriving DecidableEq, Repr

/-- A half-bridge's gate drivers and current cell on the Cocoon die (16 R369-R373). -/
structure Cell where
  set_ : BridgeSet
  side : Side
  /-- Instant at which the present side turned on, or the gates went off. -/
  since : Nat
  /-- The side that waits for its dead time. -/
  next : Side
  /-- The last decision was the high side. -/
  want : Side
  /-- The high side has been blind since. -/
  blind : Option Nat
  ocRow : Nat
  /-- The high side is off for the rest of the frame that began then (06 R145). -/
  cut : Option Nat
  oc : Bool
  boot : Bool
  bootRow : Nat
  vsup : Bool
  /-- The supply fault it holds is VBRIDGE above its range: its low side is on (Table 16-1). -/
  vhigh : Bool
  /-- An axis bridge that a sag or a supply fault has stopped, until a frame gives it another mode (R366). -/
  held : Bool
  /-- The last reading of its own shunt's amplifier, mA (R371). -/
  amp : Int
  /-- Sum and number of the converter's samples kept in this slot (R372). -/
  convSum : Int
  convN : Nat
  /-- Phase current reported in the last frame, mA (R372). -/
  iph : Int
deriving DecidableEq, Repr

def Cell.reset : Cell :=
  ⟨.reset, .none, 0, .none, .none, none, 0, none, false, false, 0, false, false, false, 0, 0, 0, 0⟩

/-- A threshold declaration over consecutive measurements (16 R365): the rows below and above it. -/
structure Watch where
  below : Bool
  lowRow : Nat
  highRow : Nat
deriving DecidableEq, Repr

/-- One side's view of the link (16 R376). -/
structure LinkSide where
  up : Bool
  /-- Consecutive slots without an accepted frame, and consecutive accepted frames. -/
  missed : Nat
  accepted : Nat
  /-- Slots without an accepted frame since the last acceptance before the outage. -/
  outage : Nat
  /-- Model time of the last acceptance, or of the last down declaration. -/
  lastAt : Nat
  lastFseq : Nat
  /-- The last frame accepted says that the other side has declared its link down (log entry 23). -/
  told : Bool
deriving DecidableEq, Repr

def LinkSide.reset : LinkSide := ⟨false, 0, 0, 0, 0, 0, true⟩

/-- A sender's records of one direction (16 R375): the queue with their RSEQ, the ones whose first
sending was in each of the last frames, newest first, the next RSEQ, and the first that no frame has carried. -/
structure Records (α : Type) where
  queue : List (Nat × α)
  sent : List (List (Nat × α))
  rseq : Nat
  fresh : Nat
deriving DecidableEq, Repr

def Records.empty {α : Type} : Records α := ⟨[], [], 0, 0⟩

/-- What a configuration acknowledge says of a downstream record (16 R375, type 5). -/
inductive AckRes where
  | done | refused | void
deriving DecidableEq, Repr

/-- Records to Cocoon (16 R375, 0x81-0x85). -/
inductive DownRec where
  /-- The record of a command aborted before its commit: it does nothing (15 R345). -/
  | void
  | config (ch : Nat) (cfg : ChCfg)
  | clear (mask : Nat)
  | release (sag wdt : Bool)
  /-- Words 2i and 2i + 1 of the rule set (0x85; 08 R194). -/
  | rules (i : Nat) (a b : Word)
  /-- The rule set is whole: its CRC, and the Cocoon half's latches as the logic half knows them. -/
  | ruleEnd (crc : Word) (latches : Nat)
  /-- COC_BRCFGn and COC_BROCn of a bridge (0x84). -/
  | bridgeCfg (b : Nat) (cfg oc : Word)
  /-- COC_FS, COC_WD or COC_TAPCFG, numbered from 0 (0x85). -/
  | setting (i : Nat) (v : Word)
  /-- The latches a reset key cleared (08 R192; log entry 19). -/
  | unlatch (mask : Nat)
deriving DecidableEq, Repr

/-- Records from Cocoon (16 R375, 1-6); instants are Cocoon's ticks. -/
inductive UpRec where
  | edge (ch : Nat) (level : Bool) (te acc : Nat)
  | fault (ch kind cause : Nat) (value : Int) (at_ : Nat)
  | tap (i : Nat) (energised ac : Bool) (at_ : Nat)
  | bridge (b cause : Nat) (value : Int) (at_ : Nat)
  | supply (state value at_ : Nat)
  | watchdog (fseq wdt at_ : Nat)
  | calib (item object at_ : Nat)
  | rulesAck (agree : Bool)
  /-- The record with this RSEQ has taken effect, or been refused, at `at_`; the data its command's result needs. -/
  | ack (rseq : Nat) (res : AckRes) (data at_ : Nat)
  /-- The output command with this number has; the channels held off. -/
  | outAck (no : Nat) (res : AckRes) (held at_ : Nat)
deriving DecidableEq, Repr

/-- A COC_OUT_SET as a downstream frame marks it: its number, the channels it names, the RSEQ that the records before
it end at, and whether it has been aborted (log entry 23). -/
structure OutMark where
  no : Nat
  mask : Nat
  after : Nat
  void : Bool
deriving DecidableEq, Repr

/-- A downstream frame (16 Table 16-2). -/
structure DownFrame where
  fseq : Nat
  slot : Nat
  dt0 : Nat
  train : Bool
  /-- The logic die's link is up (log entry 23). -/
  linkUp : Bool
  /-- The logic half's permits and masks; false: its oscillator has stopped. -/
  hwkValid : Bool
  hwk : HwkReport
  adopted : Bool
  /-- Commanded output levels, bit n = FIOn, and the output commands they come from. -/
  out : Nat
  outs : List OutMark
  bridges : List BridgeSet
  records : List (Nat × DownRec)
deriving DecidableEq, Repr

/-- A channel's state as an upstream frame tells it (16 Tables 16-3, 16-6). -/
structure ChState where
  level : Bool
  valid : Bool
  ilim : Bool
  cmd : Bool
  rbfail : Bool
  overload : Bool
  backfeed : Bool
  turning : Bool
deriving DecidableEq, Repr

def ChState.reset : ChState := ⟨false, false, false, false, false, false, false, false⟩
def ChState.faulty (c : ChState) : Bool := c.rbfail || c.overload || c.backfeed

/-- An upstream frame (16 Table 16-3), with the slot start in DT and Cocoon's tick count at it. -/
structure UpFrame where
  fseq : Nat
  train : Bool
  /-- Cocoon's link is up; the records it has dropped (log entry 23). -/
  linkUp : Bool
  drops : Nat
  dt0 : Nat
  tc0 : Nat
  min : Bool
  low : Bool
  wdTrip : Bool
  sag : Bool
  calOk : Bool
  vgLow : Bool
  vbOut : Bool
  taps : Nat
  chans : List ChState
  hwk : HwkReport
  hwkArmed : Bool
  hwkAt : Nat
  toggle : Option Nat
  latches : Nat
  iph : List Int
  brst : List Nat
  vfield : Nat
  vbridge : Nat
  vgate : Nat
  temp : Int
  records : List (Nat × UpRec)
deriving DecidableEq, Repr

/-- The Cocoon die (16). -/
structure CocField where
  /-- It has power (R367). -/
  running : Bool
  /-- It has trained since its start: it knows the slot number (R374). -/
  trained : Bool
  chans : KMap FioChan
  taps : KMap Tap
  cells : KMap Cell
  /-- Supply declarations and latches (R365-R367). -/
  low : Watch
  min : Watch
  sag : Bool
  vfield : Nat
  vbridge : Nat
  vgate : Nat
  vbLow : Watch
  vbHigh : Watch
  vgLow : Watch
  calDone : Bool
  calOk : Bool
  /-- Watchdog running, last acceptance, tripped (R364). -/
  wdOn : Bool
  wdAt : Nat
  wdTrip : Bool
  temp : Int
  link : LinkSide
  tx : Records UpRec
  /-- Records a full queue has dropped since its start (R375). -/
  drops : Nat
  /-- RSEQ of the next downstream record to apply, and the number of the next output command. -/
  rxNext : Nat
  outNext : Nat
  /-- When the next channel of a group above 3.0 A is turned off (R359). -/
  groups : KMap (Option Nat)
  /-- The settings that records have brought: COC_FS, COC_WD, COC_TAPCFG, and COC_BRCFGn and COC_BROCn by bridge
  (01 R8). -/
  fs : Word
  wd : Word
  tap : Word
  brcfg : KMap Word
  broc : KMap Word
deriving DecidableEq, Repr

/-- The field die at its first power-up: everything off, every supply state as R367 sets it. -/
def CocField.reset : CocField :=
  { running := true, trained := false, chans := [], taps := [], cells := [], low := ⟨true, 0, 0⟩, min := ⟨true, 0, 0⟩,
    sag := true, vfield := 0, vbridge := 0, vgate := 0, vbLow := ⟨false, 0, 0⟩,
    vbHigh := ⟨false, 0, 0⟩, vgLow := ⟨false, 0, 0⟩, calDone := false, calOk := false, wdOn := false,
    wdAt := 0, wdTrip := false, temp := 0, link := .reset, tx := .empty, drops := 0, rxNext := 0, outNext := 0, groups := [],
    fs := 0x00C000A0, wd := 0x3E8, tap := 0x00190000, brcfg := [], broc := [] }

/-- A command whose record has gone to Cocoon and that waits for its acknowledge (16 R379). -/
structure CocWait where
  rseq : Nat
  record : DownRec
  desc : Desc
deriving DecidableEq, Repr

/-- A COC_OUT_SET that waits for its acknowledge: its number, channels and levels, the RSEQ that the records before it
end at, whether a frame has carried it, and whether it has been aborted (16 R374, R379). -/
structure OutCmd where
  no : Nat
  mask : Nat
  levels : Nat
  after : Nat
  sent : Bool
  void : Bool
  desc : Desc
deriving DecidableEq, Repr

/-- The logic die's side of Cocoon (16). -/
structure Coc where
  field : CocField
  link : LinkSide
  training : Bool
  trained : Bool
  /-- No training has completed since the logic die's reset (17 R394). -/
  fresh : Bool
  tx : Records DownRec
  rxNext : Nat
  /-- The settings and configurations still to be sent: channel n, 48 + bridge, 64 + setting, 67 + pair of rule words,
  108 the end of the rule set (R376). -/
  feed : List Nat
  waits : List CocWait
  /-- Commanded output levels that Cocoon has acknowledged, and the output commands after them. -/
  out : Nat
  outs : List OutCmd
  outNo : Nat
  /-- Aborts whose outcome Cocoon's acknowledge will tell: target, abort, acceptance instant (15 R345). -/
  aborts : List (Desc × Desc × Nat)
  /-- Cocoon's count of dropped records, as last told. -/
  drops : Nat
  /-- The frames of the present slot. -/
  down : Option DownFrame
  up : Option UpFrame
  /-- The last upstream frame accepted since reset. -/
  mirror : Option UpFrame
  /-- Configuration of the channels, as COC_CHn reads (R378). -/
  cfgs : KMap ChCfg
  /-- A calibration has failed (R377). -/
  calFail : Bool
  repeated : Nat
  downs : Nat
deriving DecidableEq, Repr

def Coc.reset : Coc :=
  { field := .reset, link := .reset, training := false, trained := false, fresh := true, tx := .empty,
    rxNext := 0, feed := [], waits := [], out := 0, outs := [], outNo := 0, aborts := [], drops := 0, down := none, up := none, mirror := none, cfgs := [], calFail := false,
    repeated := 0, downs := 0 }

/-- Where the PMU is in its power sequences (17 R388). -/
inductive PmuPhase where
  | settled
  /-- An entry before its commit instant, to a state. -/
  | entering (dest : Nat)
  /-- An entry after it. -/
  | isolated (dest : Nat)
  /-- An exit, to a state. -/
  | leaving (dest : Nat)
deriving DecidableEq, Repr

/-- The power management unit (17). States: 0 BREW, 1 POUR, 2 DRIP, 3 STEEP, 4 BEAN. -/
structure Pmu where
  /-- PDn on. -/
  pwr : Nat
  /-- Clusters that an exit from STEEP or BEAN powers again (R386). -/
  parked : Nat
  /-- CPF has written a stored position record at rest since the last motion (R387). -/
  posStored : Bool
  state : Nat
  target : Nat
  phase : PmuPhase
  /-- Instants since which the entry conditions of DRIP, STEEP and BEAN have held. -/
  dripSince : Option Nat
  steepSince : Option Nat
  beanSince : Option Nat
  /-- Step 2 of an entry has begun; the duties are suspended from its step 3 to the exit (R388). -/
  stored : Bool
  suspended : Bool
  /-- Commit instant of the last entry, from which PMU_TIMER counts (R389). -/
  entryAt : Nat
  lastWake : Word
  /-- What holds the logic die in reset: bit 0 PORST_N, bits 1-4 the supplies of Table 17-1, bit 5 the root PLL. -/
  held : Nat
  /-- The root PLL has locked since the reset: device time counts (R384). -/
  locked : Bool
  /-- DEV_READY. -/
  ready : Bool
  stage : Nat
  /-- The firmware load has ended; PMU_BOOT.ERR; targets loaded from slot B at it (R393). -/
  loaded : Bool
  bootErr : Nat
  bootSlots : Nat
  /-- PE_WAKE_N is asserted (R391). -/
  peWake : Bool
  cocAbsent : Bool
  rstCause : Nat
  /-- VDD_33 declared low; level of PF_N; power-fail detection is armed (R383). -/
  vddLow : Bool
  pfN : Bool
  pfArmed : Bool
  /-- When the reset of PMU_RESET is due (R396). -/
  resetAt : Option Nat
deriving DecidableEq, Repr

/-- PMU_DOM and PMU_RSTCAUSE read 1 after PORST_N; PORST_N is still low. -/
def Pmu.reset : Pmu :=
  { pwr := 1, parked := 0, posStored := false, state := 0, target := 0, phase := .settled, dripSince := none, steepSince := none,
    beanSince := none, stored := false, suspended := false, entryAt := 0, lastWake := 0, held := 1, locked := false, ready := false, stage := 0, loaded := false, bootErr := 0, bootSlots := 0, peWake := false,
    cocAbsent := false, rstCause := 1, vddLow := false, pfN := true, pfArmed := true, resetAt := none }

/-- A record as a slot of the MRAM holds it (18 R401): header fields and body. -/
structure ChrRecord where
  format : Nat
  compat : Nat
  gen : Nat
  at_ : Nat
  serial : Nat
  body : List Byte
deriving DecidableEq, Repr

/-- A commit in progress (18 R403): its cause, the commands it serves, its GEN, its start, and the
working copy as it stood then. -/
structure ChrRun where
  cause : Nat
  descs : List Desc
  gen : Nat
  at_ : Nat
  start : KMap Nat
deriving DecidableEq, Repr

/-- Chrysalis (18 R398-R406); the slots, the archive and the GEN of a commit that was lost are kept in
MRAM. -/
structure Chry where
  mounted : Bool
  fresh : Bool
  archived : Bool
  format : Nat
  gen : Nat
  last : Nat
  /-- Slot B is current. -/
  cur : Bool
  slotA : Option ChrRecord
  slotB : Option ChrRecord
  archive : List ChrRecord
  /-- The two copies of the landing table and of the stored position record in MRAM (Table 18-3). -/
  tabA : Option LandingTable
  tabB : Option LandingTable
  posA : Option StoredPos
  posB : Option StoredPos
  run : Option ChrRun
  /-- End of the last commit, or the mount: the period counts from it (R404). -/
  since : Nat
  /-- The commit period in force, min: CHR_CFG as it stood at the last commit or the mount (R412). -/
  period : Nat
  lost : Option Nat
deriving DecidableEq, Repr

def Chry.reset : Chry := ⟨false, false, false, 0, 0, 0, false, none, none, [], none, none, none, none, none, 0, 10, none⟩

/-- A target of firmware update (18 R407, R408): the update record's fields for it, kept in MRAM, and
what it runs. Slot B is `true`. -/
structure UpdTarget where
  active : Bool
  trial : Bool
  tslot : Bool
  pkgA : Nat
  pkgB : Nat
  verA : Bool
  verB : Bool
  /-- The slot it runs from and the package running. -/
  run : Bool
  runPkg : Nat
  /-- Start and length of the trial, ns (R412). -/
  trialAt : Nat
  trialFor : Nat
  /-- A rollback waits: its cause, 0 none (R411). -/
  back : Nat
deriving DecidableEq, Repr

def UpdTarget.reset : UpdTarget := ⟨false, false, false, 0, 0, false, false, false, 0, 0, 0, 0⟩

/-- An update in progress (18 R409, R411): target, the slot it loads, cause of a rollback (0 activation,
1 command, 2 fault, 3 mismatch), the command, and its commit instant once it has passed. -/
structure UpdOp where
  target : Nat
  slot : Bool
  cause : Nat
  desc : Option Desc
  commit : Option Nat
deriving DecidableEq, Repr

/-- In-service update (18 R407-R411). `flash`: the words of the external flash. -/
structure Upd where
  targets : KMap UpdTarget
  op : Option UpdOp
  flash : KMap Word
deriving DecidableEq, Repr

def Upd.reset : Upd := ⟨[], none, []⟩

/-- Everything in the block but the queue of waiting commands. -/
structure Dev where
  /-- The part and its fuse status (02 R18, R27). -/
  part : Part
  fuseOk : Bool
  eccCorr : Bool
  /-- Device time, ns since the root PLL locked (00 Table 0-2, 17 R384). -/
  dt : Nat
  /-- ns of the model's own time, which a reset does not restart (log entry 1). -/
  time : Nat
  /-- The part of the next ns of `time` that has passed, in parts of 10^6 plus the rate correction (11 R263). -/
  timePart : Nat
  /-- How many free values have been drawn (log entry 4; the model's own). -/
  freeCtr : Nat
  /-- What the block has sent, oldest first (log entry 4; the model's own). -/
  out : List Output
  /-- The retained configuration store: the stored bits of every setup register (19 R423). -/
  cfg : KMap Word
  /-- Chrysalis counters of the working record: counter i of section t under 1024 t + i (18 R399). -/
  chr : KMap Nat
  /-- The shared SRAM, 32-bit words under their byte address divided by 4 (12 Table 12-1). -/
  sram : KMap Word
  pfi : Pfi
  cpf : Cpf
  hoist : Hoist
  drv : Drv
  door : Door
  lpe : Lpe
  hiu : Hiu
  hwk : HwkLogic
  hwkF : HwkField
  coc : Coc
  mon : Mon
  grp : Grp
  stl : Stl
  canCtl : KMap Can
  spiPort : KMap Spi
  eng : Eng
  krn : Krn
  tlg : Tlg
  chry : Chry
  upd : Upd
  pmu : Pmu
deriving DecidableEq, Repr

def Dev.reset : Dev :=
  { part := .cl5612f, fuseOk := true, eccCorr := false, dt := 0, time := 0, timePart := 0, freeCtr := 0, out := [],
    cfg := [], chr := [], sram := [], pfi := .reset, cpf := .reset, hoist := .reset, drv := .reset,
    door := .reset, lpe := .reset, hiu := .reset, hwk := .reset, hwkF := .reset, coc := .reset,
    mon := .reset, grp := .reset, stl := .reset, canCtl := [], spiPort := [], eng := .reset, krn := .reset, tlg := .reset,
    chry := .reset, upd := .reset, pmu := .reset }

/-- Why a step can stop with a fault: no command of this block does (every stop of the spec is a
completion status, an event or a flag). Safe: nothing raises it. -/
inductive Fault where
  /-- Raised by nothing: kept so that the type has a member. Safe. -/
  | none_
deriving DecidableEq, Repr

/-- Why a command has no meaning. -/
inductive Refusal where
  /-- Raised by exec for a command that has no meaning yet. Safe: the run stops. -/
  | notModelled (mnemonic : String)
deriving DecidableEq, Repr

/-- The state: the block and the queue of commands that wait, first in, first out. -/
structure State where
  dev : Dev
  pending : List Instr
deriving DecidableEq, Repr

/-- The block right after reset, with no command waiting. -/
def State.reset : State := ⟨Dev.reset, []⟩


end Sys2Proof.Machine
end

