-- ==== Sys2Proof/Machine/Ops.lean ====
section
/-! DEFINITION. The named operations every block shares: answering a command, setup register
fields, free values, outputs, the variant's resources, host memory, completions and events. -/
namespace Sys2Proof.Machine

/-! ## Answering a command -/

/-- The outcome of a command that changes the block by `f` and leaves the queue. -/
def State.upd (s : State) (f : Dev → Dev) : Host.Outcome State Fault Refusal :=
  .next { s with dev := f s.dev }

/-- Power domain PDn is on and the logic die is not held in reset (01 R9, 17 R382, Table 17-8). -/
def Dev.powered (s : Dev) (pd : Nat) : Bool := s.pmu.held == 0 && tbit s.pmu.pwr pd

/-- A row of the start-up sequence is the last completed one (17 Table 17-6). -/
def Dev.bootStage (s : Dev) (n : Nat) : Dev :=
  { s with pmu := { s.pmu with stage := if s.pmu.ready then s.pmu.stage else n } }

/-- A block in a domain that is off executes nothing and takes no command (01 R9). -/
def whenOn (pd : Nat) (f : Dev → Dev) (s : Dev) : Dev := if s.powered pd then f s else s

/-- A BAR access is answered only while PD7 is on, and not in D3hot (15 R330, 19 R423). -/
def whenBar (f : Dev → Dev) (s : Dev) : Dev := if s.powered 7 && !s.hiu.d3hot then f s else s

/-! ## Setup registers (19) -/

/-- The stored word of the register at `off` (19 R423). -/
def Dev.reg (s : Dev) (off : Nat) : Word := kget (regReset off) s.cfg off

/-- Bits [hi:lo] of a stored register. -/
def Dev.fld (s : Dev) (off hi lo : Nat) : Nat := bitsOf (s.reg off) hi lo

/-- The same, read in two's complement. -/
def Dev.sfld (s : Dev) (off hi lo : Nat) : Int := sBitsOf (s.reg off) hi lo

/-- Bit `i` of a stored register. -/
def Dev.bit (s : Dev) (off i : Nat) : Bool := bitOf (s.reg off) i

/-- Store a register's word. -/
def Dev.setReg (s : Dev) (off : Nat) (w : Word) : Dev :=
  { s with cfg := kput (regReset off) s.cfg off w }

/-- Store a field of a register. -/
def Dev.setFld (s : Dev) (off hi lo v : Nat) : Dev := s.setReg off (setBitsOf (s.reg off) hi lo v)

/-- Set or clear one bit of a register, for example a sticky W1C bit. -/
def Dev.setBit (s : Dev) (off i : Nat) (b : Bool) : Dev := s.setFld off i i (b2n b)

/-- `v` with the bits of `mask` taken from `old` (fields a write leaves unchanged). -/
def keepBits (old v : Word) (mask : Nat) : Word :=
  (v &&& ~~~ (wordN mask)) ||| (old &&& wordN mask)

/-- What a write of `v` leaves in a register whose RW and W1C bits are given: RW bits take `v`, W1C
bits written 1 clear, all others keep (00 Table 0-3). -/
def writeBits (old v : Word) (rw w1c : Nat) : Word :=
  (v &&& wordN rw) ||| (old &&& ~~~ (wordN rw) &&& ~~~ (v &&& wordN w1c))

/-! ## Free values, outputs, counters -/

/-- The next free value and the block that has drawn it (log entry 4). -/
def Dev.free (s : Dev) : Nat := (Config.freeValue s.freeCtr).toNat
def Dev.drawn (s : Dev) : Dev := { s with freeCtr := s.freeCtr + 1 }

/-- Send something. -/
def Dev.emit (s : Dev) (o : Output) : Dev := { s with out := s.out ++ [o] }

/-- A write or message to the host: DMA stops in D3hot, and it waits until D0 (15 R330, log entry 7). -/
def Dev.toHost (s : Dev) (o : Output) : Dev :=
  if s.hiu.d3hot then { s with hiu := { s.hiu with held := s.hiu.held ++ [o] } } else s.emit o

/-- Add to counter `i` of section `sec` of the Chrysalis working record, which saturates (18 R398). -/
def Dev.chrAdd (s : Dev) (sec i n : Nat) : Dev :=
  { s with chr := kmod 0 s.chr (1024 * sec + i) (fun x => satAdd 64 x n) }

def Dev.chrInc (s : Dev) (sec i : Nat) : Dev := s.chrAdd sec i 1

/-! ## The variant (02) -/

/-- Tier digit: 0 Solo, 1 Group, 2 Tower (02 R20). -/
def Part.tier : Part → Nat
  | .cl5600c | .cl5602c | .cl5602f | .cl5604f => 0
  | .cl5610c | .cl5612c | .cl5612f | .cl5614f => 1
  | .cl5620c | .cl5622c | .cl5622f | .cl5624f => 2

/-- Door digit (02 R19). -/
def Part.doors : Part → Nat
  | .cl5600c | .cl5610c | .cl5620c => 0
  | .cl5602c | .cl5602f | .cl5612c | .cl5612f | .cl5622c | .cl5622f => 2
  | .cl5604f | .cl5614f | .cl5624f => 4

/-- Package F. -/
def Part.pkgF : Part → Bool
  | .cl5602f | .cl5604f | .cl5612f | .cl5614f | .cl5622f | .cl5624f => true
  | _ => false

/-- The part whose resources the device holds: every fusable resource counts as fused off while
FUSE_OK reads 0, which leaves those of a CL5600C (02 R27). -/
def Dev.partHeld (s : Dev) : Part := if s.fuseOk then s.part else .cl5600c

def Dev.clusters (s : Dev) : Nat := s.partHeld.tier + 2
def Dev.engines (s : Dev) : Nat := 4 * s.clusters
def Dev.tripCtx (s : Dev) : Nat := match s.partHeld.tier with | 0 => 64 | 1 => 256 | _ => 512
def Dev.maxCars (s : Dev) : Nat := match s.partHeld.tier with | 0 => 1 | 1 => 8 | _ => 16
def Dev.quads (s : Dev) : Nat := if s.partHeld.pkgF then 8 else 4
def Dev.ssis (s : Dev) : Nat := if s.partHeld.pkgF then 2 else 1
def Dev.cans (s : Dev) : Nat := if s.partHeld.pkgF then 4 else 2
def Dev.fios (s : Dev) : Nat := if s.partHeld.pkgF then 48 else 24
def Dev.lanes (s : Dev) : Nat := if s.partHeld.pkgF then 2 else 1
def Dev.doorAxes (s : Dev) : Nat := s.partHeld.doors
/-- Axis n present: D0-D3 for n = 0-3, A for n = 4 (02 R19). -/
def Dev.hasAxis (s : Dev) (n : Nat) : Bool :=
  if n < 4 then decide (n < s.doorAxes) else n == 4 && s.partHeld.pkgF
/-- Group replication present (02 R20). -/
def Dev.hasGrp (s : Dev) : Bool := s.partHeld.tier != 0

/-- The half-bridges of an axis that is present, or general (02 Table 2-2). -/
def Dev.bridgeGeneral (s : Dev) (n : Nat) : Bool :=
  if n = 6 ∨ n = 7 then !s.partHeld.pkgF
  else n == 15 && s.partHeld.pkgF

def Dev.hasBridge (s : Dev) (n : Nat) : Bool :=
  s.bridgeGeneral n ||
  (decide (n < 12) && s.hasAxis (n / 3)) || (decide (12 ≤ n ∧ n ≤ 14) && s.hasAxis 4)

end Sys2Proof.Machine

namespace Sys2Proof

/-! ## Descriptors (15 Table 15-3) -/

def Desc.w (d : Desc) (n : Nat) : Word := d.words.getD n 0
def Desc.opcode (d : Desc) : Nat := Machine.bitsOf (d.w 0) 15 0
def Desc.ifver (d : Desc) : Nat := Machine.bitsOf (d.w 0) 23 16
def Desc.flags (d : Desc) : Nat := Machine.bitsOf (d.w 0) 31 24
def Desc.fence (d : Desc) : Bool := Machine.bitOf (d.w 0) 24
def Desc.quiet (d : Desc) : Bool := Machine.bitOf (d.w 0) 25
def Desc.tag (d : Desc) : Word := d.w 1
def Desc.object (d : Desc) : Word := d.w 2
/-- The 64-bit address or mask in words n and n + 1. -/
def Desc.w64 (d : Desc) (n : Nat) : Nat := Machine.join64 (d.w n) (d.w (n + 1))

/-- The same descriptor, by queue pair, tag and era: no two in flight agree in all of them (R334). -/
def Desc.same (d e : Desc) : Bool := d.qp == e.qp && d.tag == e.tag && d.era == e.era

/-- The commands whose chapters give more than four result words (R336): the refusal words of 14 R322, MSQ_H_READ,
MSQ_D_READ, DRV_READ, COC_READ and HIU_QP_STATUS. -/
def Desc.long (d : Desc) : Bool := [0x0107, 0x0201, 0x0202, 0x0406, 0x0509, 0x0A32, 0x0B05].contains d.opcode

end Sys2Proof

namespace Sys2Proof.Machine

/-! ## Shared SRAM -/

/-- The low shared SRAM bank (12 Table 12-1). -/
def inLowBank (a n : Nat) : Bool := decide (0x10000000 ≤ a ∧ a + n ≤ 0x10800000)
/-- Both banks. -/
def inSram (a n : Nat) : Bool := decide (0x10000000 ≤ a ∧ a + n ≤ 0x11400000)

/-- A byte of the shared SRAM; a word nothing has written reads 0 (log entry 3). -/
def Dev.sramByte (s : Dev) (a : Nat) : Byte :=
  BitVec.ofNat 8 ((kget (0 : Word) s.sram (a / 4)).toNat / 2 ^ (8 * (a % 4)))

def Dev.sramBytes (s : Dev) (a : Nat) : Nat → List Byte
  | 0 => []
  | n + 1 => s.sramByte a :: s.sramBytes (a + 1) n

def Dev.setSramByte (s : Dev) (a : Nat) (b : Byte) : Dev :=
  let w := setBitsOf (kget 0 s.sram (a / 4)) (8 * (a % 4) + 7) (8 * (a % 4)) b.toNat
  { s with sram := kput 0 s.sram (a / 4) w }

def Dev.setSramBytes (s : Dev) (a : Nat) : List Byte → Dev
  | [] => s
  | b :: t => (s.setSramByte a b).setSramBytes (a + 1) t

/-! ## Queue pairs, completions (15) -/

def Dev.setHiu (s : Dev) (f : Hiu → Hiu) : Dev := { s with hiu := f s.hiu }

def Dev.qp (s : Dev) (q : Nat) : QPair := kget .reset s.hiu.qps q
def Dev.setQp (s : Dev) (q : Nat) (p : QPair) : Dev :=
  { s with hiu := { s.hiu with qps := kput .reset s.hiu.qps q p } }

def QPair.active (p : QPair) : Bool := p.enabled || p.draining.isSome
def QPair.sqSize (p : QPair) : Nat := 2 ^ p.sqLog
def QPair.cqSize (p : QPair) : Nat := 2 ^ p.cqLog
def QPair.eqSize (p : QPair) : Nat := 2 ^ p.eqLog
def QPair.hasEq (p : QPair) : Bool := p.eqLog != 0
/-- Completion entries the host has not yet taken. -/
def QPair.cqUsed (p : QPair) : Nat := (p.cqTail + p.cqSize - p.cqHead) % p.cqSize
/-- Free completion entries: the ring is full when one more would make tail equal head (log entry 7),
and reserved entries count as used (R334). -/
def QPair.cqFree (p : QPair) : Nat := p.cqSize - 1 - p.cqUsed - p.reserved
def QPair.eqFull (p : QPair) : Bool := (p.eqTail + 1) % p.eqSize == p.eqHead

def Dev.vec (s : Dev) (v : Nat) : Vector := kget .reset s.hiu.vectors v
def Dev.setVec (s : Dev) (v : Nat) (x : Vector) : Dev :=
  { s with hiu := { s.hiu with vectors := kput .reset s.hiu.vectors v x } }

/-- Vector `v` sends its message, or sets its pending bit while masked (15 R340). -/
def Dev.msixSend (s : Dev) (v : Nat) : Dev :=
  let x := s.vec v
  if x.masked then s.setVec v { x with pending := true }
  else (s.setVec v { x with pending := false, count := 0, oldest := none }).toHost
    (.msix v x.addr x.data)

/-- `n` entries have been written to a ring bound to a vector; `urgent` sends at once (R340). -/
def Dev.msixNote (s : Dev) (v : Option Nat) (n : Nat) (urgent : Bool) : Dev :=
  match v with
  | none => s
  | some v =>
    let x := s.vec v
    let x' := { x with count := x.count + n, oldest := some (x.oldest.getD s.dt) }
    let s := s.setVec v x'
    if urgent || decide (s.fld (Reg.hiuMod v) 7 0 ≤ x'.count) then s.msixSend v else s

/-- A completion is discarded and counted (15 R347). -/
def Dev.discard (s : Dev) : Dev :=
  { s with hiu := { s.hiu with lostCpl := satInc 16 s.hiu.lostCpl, discarded := s.hiu.discarded + 1 } }

/-- The statuses of the checks of R22 and R334, and of a conflict found with them. -/
def Status.isCheck : Status → Bool
  | .badVersion | .badDescriptor | .refusedLedger | .refusedInterlock | .reconfigBusy | .notInVariant => true
  | _ => false

/-- The codes of Table 15-12. -/
def Status.code : Status → Nat
  | .done => 0 | .badVersion => 1 | .badDescriptor => 2 | .refusedLedger => 3 | .refusedInterlock => 4
  | .reconfigBusy => 5 | .hwFault => 6 | .notInVariant => 7 | .aborted => 8 | .abortApplied => 9
  | .abortTooLate => 10 | .flushed => 11 | .timeout => 12 | .unreachable => 13

/-- Result words `i` on of a completion, `n` of them; those not given are 0. -/
def resultBytes (l : List Word) (i n : Nat) : List Byte := (List.range n).flatMap (fun k => leBytes 4 (l.getD (i + k) 0).toNat)

/-- The completion entry (Table 15-4) and, with EXT, its continuation (R336). -/
def Completion.bytes (c : Completion) : List Byte :=
  leBytes 4 c.tag.toNat ++ leBytes 1 c.status.code ++ leBytes 1 (b2n c.phase + 2 * b2n c.ext) ++ leBytes 2 c.sqHead
    ++ leBytes 8 c.commit ++ resultBytes c.result 0 4
def Completion.contBytes (c : Completion) (phase : Bool) : List Byte :=
  leBytes 4 c.tag.toNat ++ leBytes 1 c.status.code ++ leBytes 1 (b2n phase + 4) ++ [0, 0] ++ resultBytes c.result 4 6

/-- Write an entry of a ring at `base`: host memory, or the low SRAM bank for a LOCAL queue pair (R341). -/
def Dev.ringWrite (s : Dev) (p : QPair) (base i : Nat) (b : List Byte) : Dev :=
  let a := base + 32 * i
  if !p.isLocal then s.toHost (.hostWrite a b) else if inLowBank a 32 then s.setSramBytes a b else s

/-- What the host is shown of a ring: a record of a host ring is written by DMA. -/
def Dev.show (s : Dev) (p : QPair) (o : Output) : Dev := if p.isLocal then s.emit o else s.toHost o

/-- Write a descriptor's completion to its ring (15 R336, R337): one entry, or two for a command whose chapter gives
more than four result words, under interface version 3. A queue pair that a host-side reset has disabled discards and
counts it (R347). -/
def Dev.writeCompletion (s : Dev) (d : Desc) (st : Status) (commit : Nat) (res : List Word) : Dev :=
  let q := d.qp
  let p := s.qp q
  if !p.active then s.discard
  else
    let ext := d.long && s.hiu.ifver != 2
    let n := if ext then 2 else 1
    let c : Completion :=
      { qp := q, index := p.cqTail, phase := p.cqPhase, tag := d.tag, status := st, ext := ext,
        sqHead := p.sqHead, commit := commit, result := if ext then res else res.take 4 }
    let t := p.cqTail + n
    let wraps := decide (p.cqSize ≤ p.cqTail + 1)
    let s := if ext then s.ringWrite p p.cqBase ((p.cqTail + 1) % p.cqSize) (c.contBytes (p.cqPhase != wraps)) else s
    let s := s.ringWrite p p.cqBase p.cqTail c.bytes
    let p := { p with cqTail := t % p.cqSize,
                      cqPhase := if p.cqSize ≤ t then !p.cqPhase else p.cqPhase }
    ((s.setQp q p).show p (.completion c)).msixNote (if p.isLocal then none else p.cqVec) n false

/-- The dispatched, uncompleted descriptors, those of host sides that were reset among them. -/
def Dev.dispatched (s : Dev) : List InFlight := s.hiu.inFlight ++ s.hiu.orphans

/-- Is the descriptor dispatched and not completed. -/
def Dev.isInFlight (s : Dev) (d : Desc) : Bool := s.dispatched.any (fun e => e.desc.same d)

/-- A command's row acts for a descriptor that is dispatched and not completed, and for no other (R334). -/
def whenSent (d : Desc) (f : Dev → Dev) (s : Dev) : Dev := if s.isInFlight d then f s else s

/-- Dispatch instant of a descriptor (15 R334). -/
def Dev.dispatchedAt (s : Dev) (d : Desc) : Nat :=
  match s.dispatched.find? (fun e => e.desc.same d) with
  | some e => e.at_
  | none => s.dt

/-- The same of a descriptor there may be. -/
def Dev.acceptedAt (s : Dev) (d : Option Desc) : Nat := (d.map s.dispatchedAt).getD s.dt

/-- Take a descriptor out of the dispatched ones and release its two reserved entries (R334). -/
def Dev.release (s : Dev) (d : Desc) : Dev :=
  if s.hiu.inFlight.any (fun e => e.desc.same d) then
    let p := s.qp d.qp
    let s := s.setQp d.qp { p with reserved := p.reserved - 2 }
    { s with hiu := { s.hiu with inFlight := s.hiu.inFlight.filter (fun e => !e.desc.same d) } }
  else s

/-- The outcome of a descriptor is kept for the aborts in flight that name it (R346). -/
def Dev.noteFate (s : Dev) (d : Desc) (st : Status) : Dev :=
  let l := s.hiu.inFlight.filter (fun e => e.desc.opcode == 0x0106 && bitsOf (e.desc.w 3) 6 0 == d.qp && e.desc.w 4 == d.tag)
  { s with hiu := { s.hiu with fates := l.map (fun a => (a.desc.qp, a.desc.tag, st)) ++ s.hiu.fates } }

/-- Completion entries a descriptor's completion takes (R336). -/
def Dev.entriesOf (s : Dev) (d : Desc) : Nat := if d.long && s.hiu.ifver != 2 then 2 else 1

/-- Write the completions of up to `n` flushed descriptors of a queue pair, in ring order, as entries free up (R344);
one that an abort has taken completes ABORTED (R346). -/
def Dev.flushSome : Nat → Nat → Dev → Dev
  | 0, _, s => s
  | n + 1, q, s =>
    let p := s.qp q
    match p.flushWait, p.draining with
    | d :: rest, some r =>
      if p.cqFree < s.entriesOf d then s
      else
        let s := s.setQp q { p with flushWait := rest }
        match s.hiu.earlyAborts.find? (fun a => a.qp == q && a.tag == d.tag) with
        | some a =>
          Dev.flushSome n q ((s.setHiu (fun h => { h with earlyAborts := h.earlyAborts.erase a })).writeCompletion d .aborted a.at_ [])
        | none => Dev.flushSome n q (s.writeCompletion d .flushed r.tx [])
    | _, _ => s

/-- The same of all that wait. -/
def Dev.flushRest (s : Dev) (q : Nat) : Dev := Dev.flushSome (s.qp q).flushWait.length q s

/-- Complete a descriptor (15 R336, R337): QUIET with status DONE writes nothing. The completion of one whose host side
has been reset is discarded (R347). Entries that it frees let flushed completions follow (R344). -/
def Dev.complete (s : Dev) (d : Desc) (st : Status) (commit : Nat) (res : List Word) : Dev :=
  let silent := d.quiet && st == .done
  if s.hiu.orphans.any (fun e => e.desc.same d) then
    let s := s.setHiu (fun h => { h with orphans := h.orphans.filter (fun e => !e.desc.same d) })
    if silent then s else s.discard
  else
    let s := (s.release d).noteFate d st
    (if silent then s else s.writeCompletion d st commit res).flushRest d.qp

/-- The outcome of the target of an abort, when it has completed since the abort was accepted. -/
def Dev.fateOf (s : Dev) (d : Desc) : Option Status :=
  (s.hiu.fates.find? (fun f => f.1 == d.qp && f.2.1 == d.tag)).map (·.2.2)
def Dev.dropFate (s : Dev) (d : Desc) : Dev :=
  s.setHiu (fun h => { h with fates := h.fates.filter (fun f => !(f.1 == d.qp && f.2.1 == d.tag)) })

/-- Complete with no result words: a descriptor that fails a check carries its dispatch instant (R337), and any other
the present instant. -/
def Dev.fail (s : Dev) (d : Desc) (st : Status) : Dev :=
  s.complete d st (if st.isCheck then s.dispatchedAt d else s.dt) []

/-- The result words of a HIU_ABORT whose target has ended with a status (15 Table 15-7). -/
def abortRes (st : Status) : List Word := [0, wordN st.code]

/-- Complete a command that may not have a descriptor. -/
def Dev.completeOpt (s : Dev) (d : Option Desc) (st : Status) (commit : Nat) (res : List Word) : Dev :=
  match d with
  | some d => s.complete d st commit res
  | none => s

/-! ## Events (15 R338) -/

/-- The EVROUTE byte of a source: enable and queue pair. -/
def Dev.evRoute (s : Dev) (src : Nat) : Bool × Nat :=
  let b := bitsOf (s.reg (0x0080 + src / 4 * 4)) (src % 4 * 8 + 7) (src % 4 * 8)
  (tbit b 7, b % 128)

/-- Has the event ring of a source's route room for a record. -/
def Dev.eqReady (s : Dev) (src : Nat) : Bool :=
  let (en, q) := s.evRoute src
  let p := s.qp q
  en && p.active && p.hasEq && !p.eqFull

def Dev.dropRun (s : Dev) (src : Nat) : Option DropRun := kget none s.hiu.dropRuns src

/-- The widths of the payload fields of a record, in order. A field takes a 32-bit word unless its table gives another
width or it is a DT or a 64-bit identity (DEDUCED, log entry 45); 09 Table 9-14 counts its fields in bytes. None: two
records whose fields' places no table settles. -/
def payloadWidths : Nat → Nat → Option (List Nat)
  | 8, 1 => some [6, 1, 1, 4, 4]
  | 8, 2 => some [6, 1, 1, 1, 1, 4]
  | 8, 3 => some [6, 1]
  | 8, 4 => some [6, 1, 1]
  | 8, 5 => some [6, 1, 1, 4, 4]
  | 8, 6 => some [6, 1, 1]
  | 8, 7 => none
  | 8, 8 => some [8, 4, 1]
  | 8, 9 => some [6, 1]
  | 3, 0x000A => some [4, 4, 8]
  | 9, 2 => some [4, 8]
  | 9, 6 => some [8, 4]
  | 10, 0x0107 => some [8, 8]
  | 10, 0x0108 => some [8, 4, 4]
  | 14, 1 => some [8, 4]
  | 14, 2 => none
  | 14, 3 => some [8]
  | _, _ => some [4, 4, 4, 4]

/-- The 16 payload bytes: the fields, little-endian, and 0 in what is reserved (00 R5, R6). The bytes of the two
records without settled places are free values (log entry 45). -/
def Event.payloadBytes (e : Event) : List Byte :=
  match payloadWidths e.source e.code with
  | some w =>
    let b := (w.zip e.payload).flatMap (fun x => leBytes x.1 (wrapU (8 * x.1) x.2))
    b ++ List.replicate (16 - b.length) 0
  | none => (List.range 16).map (Config.payloadByte e.source e.code e.payload)

/-- The event record (Table 15-5). -/
def Event.bytes (e : Event) (phase : Bool) : List Byte :=
  leBytes 1 e.source ++ leBytes 1 (e.severity % 16 + 16 * b2n e.lost + 128 * b2n phase) ++ leBytes 2 e.code
    ++ leBytes 4 e.object ++ leBytes 8 e.time ++ e.payloadBytes

/-- Write a record whose route has room: it carries LOST when a drop run of its source stands, and
ends that run. -/
def Dev.putEvent (s : Dev) (src sev code obj time : Nat) (payload : List Int) : Dev :=
  let q := (s.evRoute src).2
  let p := s.qp q
  let e : Event := { source := src, severity := sev, lost := (s.dropRun src).isSome, code := code,
                     object := obj, time := time, payload := payload }
  let t := p.eqTail + 1
  let p' := { p with eqTail := t % p.eqSize, eqPhase := if p.eqSize ≤ t then !p.eqPhase else p.eqPhase }
  let s := ((s.ringWrite p p.eqBase p.eqTail (e.bytes p.eqPhase)).setQp q p').show p (.event q p.eqTail p.eqPhase e)
  let s := { s with hiu := { s.hiu with dropRuns := kput none s.hiu.dropRuns src none } }
  s.msixNote (if p.isLocal then none else p.eqVec) 1
    (decide (s.fld Reg.hiuEvsev 3 0 ≤ sev))

/-- Drop a record and count it. -/
def Dev.dropEvent (s : Dev) (src : Nat) : Dev :=
  let r := match s.dropRun src with
    | some r => { r with count := r.count + 1 }
    | none => ⟨1, s.dt⟩
  { s with hiu := { s.hiu with evDrop := satInc 16 s.hiu.evDrop,
                               dropRuns := kput none s.hiu.dropRuns src (some r) } }

/-- Raise an event of source 0x01: when a run of source 0x01 stands, its HIU_EV_LOST is the record
that ends the run (R338). -/
def Dev.raiseHiu (s : Dev) (sev code obj time : Nat) (payload : List Int) : Dev :=
  if s.eqReady 1 then
    match s.dropRun 1 with
    | none => s.putEvent 1 sev code obj time payload
    | some r =>
      let s := s.putEvent 1 4 2 (s.evRoute 1).2 r.first [1, r.count]
      if s.eqReady 1 then s.putEvent 1 sev code obj time payload else s.dropEvent 1
  else s.dropEvent 1

/-- Raise an event (15 R338). At the end of a run of drops HIU_EV_LOST follows. -/
def Dev.event (s : Dev) (src sev code obj time : Nat) (payload : List Int) : Dev :=
  if src = 1 then s.raiseHiu sev code obj time payload
  else if s.eqReady src then
    match s.dropRun src with
    | none => s.putEvent src sev code obj time payload
    | some r =>
      (s.putEvent src sev code obj time payload).raiseHiu 4 2 (s.evRoute src).2 r.first [src, r.count]
  else s.dropEvent src

/-! ## Host memory and shared SRAM -/

/-- A descriptor of a LOCAL queue pair names shared SRAM (15 R341). -/
def Dev.isLocal (s : Dev) (d : Desc) : Bool := (s.qp d.qp).isLocal

/-- A host address of a descriptor is admissible: a LOCAL one lies in the low bank (15 R341). -/
def Dev.addrOk (s : Dev) (d : Desc) (a n : Nat) : Bool := !s.isLocal d || inLowBank a n

/-- The bytes a command reads at a host address: those the host memory holds, handed over with the
command, or those of the shared SRAM for a LOCAL queue pair. -/
def Dev.fetch (s : Dev) (d : Desc) (a : Nat) (img : List Byte) : List Byte :=
  if s.isLocal d then s.sramBytes a img.length else img

/-- The bytes of an admitted class-4 duty of a queue pair, and the charge to its credit (15 R335). -/
def Dev.hasCredit (s : Dev) (q : Nat) : Bool :=
  s.tlg.duties.any (fun x => match x.2 with
    | some d => d.desc.cls == 4 && leAt d.desc.args 0 1 == q
    | none => false)
def Dev.charge (s : Dev) (q n : Nat) : Dev :=
  if s.hasCredit q then { s with hiu := { s.hiu with spent := kmod 0 s.hiu.spent q (· + n) } } else s

/-- The outcome of a command of a dispatched descriptor. -/
def State.cmd (s : State) (d : Desc) (f : Dev → Dev) : Host.Outcome State Fault Refusal := s.upd (whenSent d f)

/-- A command may read the memory its descriptor names: in D3hot DMA of host memory stops (15 R330). -/
def Dev.reads (s : Dev) (d : Desc) : Bool := !s.hiu.d3hot || s.isLocal d

/-- The outcome of a command that reads bytes of host memory: they too are charged to the credit. In D3hot it waits for
D0. -/
def State.updIn (s : State) (d : Desc) (img : HostBytes) (f : Dev → Dev) : Host.Outcome State Fault Refusal :=
  s.cmd d (fun x => if x.reads d = true then f (x.charge d.qp img.length) else x)

/-- The bytes a command writes to host memory, or to the shared SRAM for a LOCAL queue pair. -/
def Dev.hostWrite (s : Dev) (d : Desc) (a : Nat) (b : List Byte) : Dev :=
  (if s.isLocal d then s.setSramBytes a b else s.toHost (.hostWrite a b)).charge d.qp b.length

end Sys2Proof.Machine
end

