-- ==== Sys2Proof/Machine/Profile.lean ====
section
/-! DEFINITION. Jerk-limited profiles: exact integration of a segment, the rest-to-rest profile, the
transition to a cruise speed, stopping distance and replanning (05 R90-R94). Everything here is taken
along the direction of motion. Speeds `vn` are in 10^-9 µm/s and accelerations `an` in 10^-9 µm/s²;
durations are whole ns. -/
namespace Sys2Proof.Machine

/-- The units of `Kin`: one µm, one µm/s, one µm/s². -/
def xUnit : Int := 6000000000000000000000000000
def vUnit : Int := 2000000000000000000
def aUnit : Int := 1000000000

/-- The point after `t` ns of constant jerk `j` (05 R91: integration is exact). -/
def Kin.run (k : Kin) (j : Int) (t : Nat) : Kin :=
  { x := k.x + 3 * k.v * t + 3 * k.a * (t * t) + j * (t * t * t),
    v := k.v + 2 * k.a * t + j * (t * t), a := k.a + j * t }

/-- The point after all segments. -/
def Kin.runAll (k : Kin) : List Seg → Kin
  | [] => k
  | s :: l => (k.run s.jerk s.dur).runAll l

/-- The point `t` ns into the segments. -/
def Kin.runFor (k : Kin) : List Seg → Nat → Kin
  | [], _ => k
  | s :: l, t => if t < s.dur then k.run s.jerk t else (k.run s.jerk s.dur).runFor l (t - s.dur)

/-- The same motion seen from the other direction. -/
def Kin.mirror (k : Kin) : Kin := ⟨-k.x, -k.v, -k.a⟩
def Seg.mirror (s : Seg) : Seg := ⟨-s.jerk, s.dur⟩

/-- At rest at a position in µm. -/
def Kin.at_ (x : Int) : Kin := ⟨x * xUnit, 0, 0⟩

/-- Published readings: rounded toward minus infinity (05 R91). -/
def Kin.xUm (k : Kin) : Int := idiv k.x xUnit
def Kin.vUm (k : Kin) : Int := idiv k.v vUnit
def Kin.aUm (k : Kin) : Int := idiv k.a aUnit
def Kin.vn (k : Kin) : Int := idiv k.v 2000000000
def Kin.moving (k : Kin) : Bool := k.v != 0 || k.a != 0
/-- Direction of motion: 1 up, -1 down, 0 at rest. -/
def Kin.dir (k : Kin) : Int := if k.v ≠ 0 then k.v.sign else k.a.sign
/-- The position is held in units of 2^-16 µm (05 R91). -/
def Kin.held (k : Kin) : Kin := { k with x := idiv (k.x * 65536) xUnit * xUnit / 65536 }

def totalDur (l : List Seg) : Nat := (l.map (·.dur)).foldl (· + ·) 0

/-- Integer cube root by bits. -/
def icbrtBits : Nat → Nat → Nat → Nat
  | 0, _, r => r
  | n + 1, x, r => let c := r + 2 ^ n; icbrtBits n x (if c * c * c ≤ x then c else r)

/-- The largest r with r ^ 3 ≤ x, for x below 2 ^ 192. -/
def icbrt (x : Nat) : Nat := icbrtBits 64 x 0

/-- From speed `vn` at zero acceleration to rest (segments 5-7 of Table 5-2). -/
def brakeSegs (A J : Nat) (vn : Int) : List Seg :=
  let v := vn.toNat
  if A * A * 1000000000 ≤ v * J then
    [⟨-J, A * 1000000000 / J⟩, ⟨0, (v * J - A * A * 1000000000) / (A * J)⟩, ⟨J, A * 1000000000 / J⟩]
  else
    let t := isqrt (v * 1000000000 / J)
    [⟨-J, t⟩, ⟨0, 0⟩, ⟨J, t⟩]

/-- The minimum-time transition from (v, a) to speed `vc` with acceleration 0 (R94). -/
def transition (A J : Nat) (vn an vc : Int) : List Seg :=
  let q : Int := 2 * J * 1000000000
  let v0 := vn + idiv (an * an.natAbs) q
  let dir : Int := if v0 ≤ vc then 1 else -1
  let a := dir * an
  let dv := dir * (vc - vn)
  let ap : Int := min (A * 1000000000) (isqrt (J * dv * 1000000000 + idiv (a * a) 2).toNat : Nat)
  let used := idiv ((ap - a).natAbs * (ap + a) + ap * ap) q
  let t2 := if ap = 0 then 0 else (idiv (1000000000 * (dv - used)) ap).toNat
  [⟨dir * (ap - a).sign * J, (ap - a).natAbs / J⟩, ⟨0, t2⟩, ⟨-dir * J, ap.toNat / J⟩]

/-- The shortest stop from (v, a): the three cases of R92. -/
def stopSegs (A J : Nat) (vn an : Int) : List Seg :=
  if an < 0 ∧ 2 * J * 1000000000 * vn < an * an then
    [⟨J, (an.natAbs - isqrt (an * an - 2 * J * 1000000000 * vn).toNat) / J⟩]
  else transition A J vn an 0

/-- s_stop of R92, in µm, rounded toward plus infinity; `k` along the direction of motion. -/
def stopDist (A J : Nat) (k : Kin) : Int :=
  -idiv (-((({ k with x := 0 } : Kin).runAll (stopSegs A J k.vn k.a)).x)) xUnit

/-- The peak speed of a rest-to-rest profile of `d` µm (R90), in 10^-9 µm/s. -/
def peakSpeed (V A J d : Nat) : Nat :=
  let vD := if 2 * A * A * A ≤ d * (J * J) then
      (isqrt (A * A * A * A * 1000000000000000000 / (J * J) + 4 * A * d * 1000000000000000000)
        - A * A * 1000000000 / J) / 2
    else icbrt (d * d * J * 1000000000000000000000000000 / 4)
  min (V * 1000000000) vD

/-- The accelerating half of Table 5-2. -/
def accelSegs (A J : Nat) (vn : Int) : List Seg := (brakeSegs A J vn).map Seg.mirror

/-- Rounding of the planned durations to whole ns: the spec does not say in which direction, so each
duration is its floor or one more, by the bits of a free value (log entry 10). -/
def roundSegs : Nat → List Seg → List Seg
  | _, [] => []
  | f, s :: l => ⟨s.jerk, if s.dur = 0 then 0 else s.dur + f % 2⟩ :: roundSegs (f / 2) l

/-- What comes before and after the cruise, and the cruise speed in 10^-9 µm/s. -/
structure Shape where
  head : List Seg
  tail : List Seg
  cruise : Int
deriving DecidableEq, Repr

/-- Distance, in the unit of `Kin.x`, of a transition to `vc` µm/s and the stop from it. -/
def reach (A J : Nat) (k : Kin) (vc : Int) : Int :=
  let l := if vc = 0 then stopSegs A J k.vn k.a
    else transition A J k.vn k.a (vc * 1000000000) ++ brakeSegs A J (vc * 1000000000)
  (({ k with x := 0 } : Kin).runAll l).x

/-- The largest cruise speed in `r` .. V that fits the distance, where the speeds that fit are those up to it. -/
def cruiseUp (V A J : Nat) (k : Kin) (d : Int) : Nat → Nat → Nat
  | 0, r => r
  | n + 1, r =>
    let c := r + 2 ^ n
    cruiseUp V A J k d n (if c ≤ V ∧ reach A J k c ≤ d then c else r)

/-- The speed at which the acceleration comes to zero, 10^-9 µm/s. -/
def turnSpeed (J : Nat) (k : Kin) : Int := k.vn + idiv (k.a * k.a.natAbs) (2 * J * 1000000000)

/-- The largest integer µm/s in 0 .. V whose transition and stop fit the distance (R94). The distance rises
with the speed above `turnSpeed`; below it, it rises and falls again, so what fits just below is tried before
what fits far below (log entry 11). -/
def cruiseSearch (V A J : Nat) (k : Kin) (d : Int) : Nat :=
  let hi := (-idiv (-turnSpeed J k) 1000000000).toNat
  let fits (c : Nat) : Bool := decide (reach A J k c ≤ d)
  if fits V then V
  else if decide (hi ≤ V) && fits hi then cruiseUp V A J k d 25 hi
  else if decide (hi - 1 ≤ V) && fits (hi - 1) then hi - 1
  else cruiseUp V A J k d 25 0

/-- The shape of a profile over distance `d` (unit of `Kin.x`) from `k`. -/
def shapeTo (V A J : Nat) (k : Kin) (d : Int) : Shape :=
  if k.moving then
    let vc : Int := cruiseSearch V A J k d
    if vc = 0 then ⟨stopSegs A J k.vn k.a, [], 0⟩
    else ⟨transition A J k.vn k.a (vc * 1000000000), brakeSegs A J (vc * 1000000000), vc * 1000000000⟩
  else
    let vp := peakSpeed V A J (idiv d xUnit).toNat
    ⟨accelSegs A J vp, brakeSegs A J vp, if vp = V * 1000000000 then vp else 0⟩

/-- The segments of a shape: the durations rounded, and segment 4 absorbing what is left (R91). -/
def shapeSegs (s : Shape) (k : Kin) (d : Int) (f : Nat) : List Seg :=
  let h := roundSegs f s.head
  let t := roundSegs (f / 256) s.tail
  let used := (({ k with x := 0 } : Kin).runAll (h ++ t)).x
  let c := if s.cruise = 0 then 0 else (idiv (d - used) (3 * (s.cruise * 2000000000))).toNat
  h ++ [⟨0, c⟩] ++ t

/-- The point of a plan at an instant, and whether its segments have ended (R91): then it is at its
target exactly, or keeps its end speed. -/
def Plan.at_ (p : Plan) (t : Nat) : Kin × Bool :=
  let e := t - p.t0
  let n := totalDur p.segs
  if e < n then (p.k0.runFor p.segs e, false)
  else match p.target with
    | some x => (.at_ x, true)
    | none =>
      let k := p.k0.runAll p.segs
      ({ x := k.x + 3 * (p.vEnd * vUnit) * ((e - n : Nat) : Int), v := p.vEnd * vUnit, a := 0 }, true)

end Sys2Proof.Machine
end

