-- ==== Sys2Proof/Machine/Links.lean ====
section
/-! DEFINITION. What the blocks read of one another: loops and their hand-overs, trigger lines,
feed-forward tables, and the state of the field side. -/
namespace Sys2Proof.Machine

/-! ## Loops (07) -/

def Dev.loop (s : Dev) (l : Nat) : Loop := kget .reset s.lpe.loops l
def Dev.setLoop (s : Dev) (l : Nat) (x : Loop) : Dev :=
  { s with lpe := { s.lpe with loops := kput .reset s.lpe.loops l x } }
def Dev.bank (s : Dev) (l m : Nat) : LoopParams := kget .reset s.lpe.banks (8 * l + m)
def Dev.setBank (s : Dev) (l m : Nat) (p : LoopParams) : Dev :=
  { s with lpe := { s.lpe with banks := kput .reset s.lpe.banks (8 * l + m) p } }

/-- The released output of a loop: the last evaluation's once its group has released it (07 R154). -/
def Dev.lpeOut (s : Dev) (l : Nat) : Int :=
  let x := s.loop l
  if x.relAt ≤ s.dt then x.u else x.old

/-- Decide a hand-over of a loop to a mode (07 R169). -/
def Dev.handAt (s : Dev) (l mode at_ : Nat) (desc : Option Desc) : Dev :=
  { s with lpe := { s.lpe with hands := s.lpe.hands ++ [⟨l, mode, false, at_, desc⟩] } }

/-- A mode change the MSQ decides. -/
def Dev.handLoop (s : Dev) (l mode : Nat) : Dev := s.handAt l mode s.dt none

/-- Is a loop in an admitted rate group. -/
def Dev.admitted (s : Dev) (l : Nat) : Bool :=
  s.lpe.groups.any (fun g => match g.2 with | some r => tbit r.mask l | none => false)

/-- A pulse of a trigger line (03 R51, 05 R101, 06 R142, 07 R173). -/
def Dev.pulseLpe (s : Dev) (line at_ : Nat) : Dev :=
  if line = 0 then
    if s.hoist.enabled then
      let m := s.hoist.active
      let s := s.event 4 1 2 0 at_ [(m.bind (·.target)).getD 0, s.cpf.x, s.cpf.v]
      ({ s with hoist := { s.hoist with levelling := true } }).handAt 0 1 at_ none
    else s
  else if line = 1 then
    (List.range 4).foldl (fun s n =>
      let x := kget Axis.reset s.door.axes n
      if x.state = .advWait then
        { s with door := { s.door with axes := kput .reset s.door.axes n { x with advPulse := true } } }
      else s) s
  else if s.bit (Reg.lpeTrig line) 31 then
    s.handAt (s.fld (Reg.lpeTrig line) 13 8) (s.fld (Reg.lpeTrig line) 1 0) at_ none
  else s

/-! ## Feed-forward tables (07 R162) -/

def Dev.ffTable (s : Dev) (t : Nat) : Option FfTable := kget none s.lpe.tables t

/-- Column of a friction table at an index. -/
def FfTable.col (t : FfTable) (neg : Bool) (i : Nat) : Int :=
  let e := t.entries.getD i (0, 0)
  if neg then e.2 else e.1

/-- What a table whose XSTEP or PERIOD is 0 gives: the spec keeps both at 1 or more and its check does not
test them, so the force is a free value (log entry 44). -/
def FfTable.noStep (t : FfTable) (pos sense : Int) : Int := (Config.tableForce t.kind pos sense).toInt

/-- The friction force at a position in a sense, mN; with sense zero it is 0 (07 R157). -/
def FfTable.fric (t : FfTable) (pos sense : Int) : Int :=
  if sense = 0 then 0
  else if t.step = 0 then t.noStep pos sense
  else
    let n := t.entries.length
    let d := (clampI 0 (((n - 1 : Nat) : Int) * t.step) (pos - t.x0)).toNat
    let i := d / t.step
    let f := d - i * t.step
    let j := if i + 1 < n then i + 1 else i
    let a := t.col (sense < 0) i
    (a + idiv ((t.col (sense < 0) j - a) * f) t.step) * 2 ^ t.shift

/-- The cogging force at a reported position, mN. -/
def FfTable.cog (t : FfTable) (p : Int) : Int :=
  if t.step = 0 then t.noStep p 0
  else
  let n := t.entries.length
  let q := ((p - t.x0) % (t.step : Int)).toNat * n
  let i := q / t.step
  let f := q - i * t.step
  let a := t.col false i
  (a + idiv ((t.col false ((i + 1) % n) - a) * f) t.step) * 2 ^ t.shift

/-- The table a loop's parameters name, if it is fit to be read: not empty and of the right TYPE; the
cogging table of L8 + n names channel 2 + n (07 R162, R170). -/
def Dev.goodTable (s : Dev) (l kind t : Nat) : Option FfTable :=
  match s.ffTable t with
  | some x =>
    if x.kind = kind ∧ (kind = 2 → 8 ≤ l → l ≤ 12 → x.chan = l - 6) then some x else none
  | none => none

/-- The friction and cogging forces of door axis n, from the tables of L8 + n (06 R136, 07). -/
def Dev.axisForce (s : Dev) (n : Nat) (pos sense : Int) : Int :=
  let p := s.bank (8 + n) (s.loop (8 + n)).mode
  (match s.goodTable (8 + n) 1 (p.tables % 16) with | some t => t.fric pos sense | none => 0)
    + (match s.goodTable (8 + n) 2 (p.tables / 16) with
      | some t => t.cog (kget Chan.reset s.pfi.chans (2 + n)).snapP
      | none => 0)

/-! ## The field side as the logic die knows it (08, 16) -/

/-- The last state a frame told of channel `n`; none since reset reads as off. -/
def Dev.fioState (s : Dev) (n : Nat) : ChState :=
  match s.coc.mirror with
  | some f => f.chans.getD n .reset
  | none => .reset

/-- The configuration of channel `n`. -/
def Dev.fioCfg (s : Dev) (n : Nat) : ChCfg := kget .reset s.coc.cfgs n

/-- Channel `n` is an input whose level is valid here (16 R356, R376). -/
def Dev.fioValid (s : Dev) (n : Nat) : Bool :=
  decide (n < s.fios) && decide ((s.fioCfg n).dir = .input) && s.coc.link.up && (s.fioState n).valid

/-- VFIELD is below FS_MIN, or nothing is known of it. -/
def Dev.fieldLow (s : Dev) : Bool :=
  match s.coc.mirror with
  | some f => f.min
  | none => true

/-- A CPF setup register as it is in force: a write takes effect at the next CPF period (04 R86). -/
def Dev.creg (s : Dev) (off : Nat) : Word := kget (regReset off) s.cpf.inForce off
def Dev.cfld (s : Dev) (off hi lo : Nat) : Nat := bitsOf (s.creg off) hi lo
def Dev.csfld (s : Dev) (off hi lo : Nat) : Int := sBitsOf (s.creg off) hi lo
def Dev.cbit (s : Dev) (off i : Nat) : Bool := bitOf (s.creg off) i

/-- The CPF setup registers as they stand come into force. -/
def Dev.forceCpf (s : Dev) : Dev :=
  { s with cpf := { s.cpf with inForce := (List.range 21).foldl (fun m i =>
      kput (regReset (Reg.cpfCfg + 4 * i)) m (Reg.cpfCfg + 4 * i) (s.reg (Reg.cpfCfg + 4 * i))) s.cpf.inForce } }

/-- CPF itself writes a field of one of its registers (04 R86). -/
def Dev.setCfld (s : Dev) (off hi lo v : Nat) : Dev :=
  let s := s.setFld off hi lo v
  { s with cpf := { s.cpf with inForce := kput (regReset off) s.cpf.inForce off (setBitsOf (s.creg off) hi lo v) } }

/-- The channel CPF_DZIN names for an input. -/
def Dev.zoneChannel (s : Dev) : ZoneInput → Nat
  | .dz0 => s.cfld Reg.cpfDzin 7 0
  | .dz1 => s.cfld Reg.cpfDzin 15 8
  | .ntsLo => s.cfld Reg.cpfDzin 23 16
  | .ntsHi => s.cfld Reg.cpfDzin 31 24

/-- Engine `e` is in service (12 R277). -/
def Dev.engineUp (s : Dev) (e : Nat) : Bool := (kget Engine.reset s.eng.engines e).state == 1

/-- A copy of CPF runs: the primary on engine 0 of cluster 0 or the standby on engine 0 of cluster 1; the arbiter
forwards the first valid one (01 R14, 04 R61); none while the ledger suspends its duties (17 R388). -/
def Dev.cpfRuns (s : Dev) : Bool := !s.pmu.suspended && (s.engineUp 0 || s.engineUp 4)

/-- Group replication runs as duties on the engines: some engine is in service (01 R9). -/
def Dev.grpRuns (s : Dev) : Bool := !s.pmu.suspended && (List.range 16).any s.engineUp

/-- A row of group replication needs Monarch's domain and an engine that runs its duties. -/
def whenGrp (f : Dev → Dev) (s : Dev) : Dev := if s.powered 5 && s.grpRuns then f s else s

/-- A row of CPF needs its domain and a copy of the duty (01 R9, 04 R61). -/
def whenCpf (f : Dev → Dev) (s : Dev) : Dev := if s.powered 6 && s.cpfRuns then f s else s

/-- A zone input is in zone, or a terminal switch is active, which reads low (08 Table 8-2). -/
def ZoneInput.active (i : ZoneInput) (level : Bool) : Bool :=
  match i with
  | .dz0 | .dz1 => level
  | .ntsLo | .ntsHi => !level

def Dev.zoneLevel (s : Dev) (i : ZoneInput) : Bool :=
  let n := s.zoneChannel i
  s.fioValid n && i.active (s.fioState n).level

/-- The byte of the rule set that binds input `i`: 0-7 LOCK, 8-9 DZ, 10 NTSLO, 11 NTSHI, 12 FLLO,
13 FLHI, 14 INSP, 15 RECALL, 16 RESET, 17 SCMASK (08 Table 8-5). -/
def Dev.hwkByte (s : Dev) (i : Nat) : Nat :=
  s.fld (Reg.hwkLockin0 + i / 4 * 4) (i % 4 * 8 + 7) (i % 4 * 8)

/-- The fixed level of a channel that is fused off or no input (08 R181). -/
def fixedLevel (i : Nat) : Bool := i == 10 || i == 11

/-- Level and validity of a bound input at the logic half; none where the binding is unused (08 R181). -/
def Dev.hwkIn (s : Dev) (i : Nat) : Option (Bool × Bool) :=
  let b := s.hwkByte i
  if !tbit b 7 then none
  else if s.fieldLow then some (false, false)
  else if s.fios ≤ b % 64 ∨ (s.fioCfg (b % 64)).dir ≠ .input then some (fixedLevel i, true)
  else some ((s.fioState (b % 64)).level, s.fioValid (b % 64))

/-- A bound lock reads closed, or a bound zone in zone. -/
def Dev.hwkOn (s : Dev) (i : Nat) : Bool := s.hwkIn i == some (true, true)

/-- Every bound lock reads closed. -/
def Dev.locksClosed (s : Dev) : Bool :=
  (List.range 8).all (fun i => !tbit (s.hwkByte i) 7 || s.hwkOn i)

def Dev.motionGranted (s : Dev) : Bool := s.hwk.both.motion
def Dev.doorPermit (s : Dev) (deck : Nat) : Bool :=
  if deck = 0 then s.hwk.both.door0 else s.hwk.both.door1
/-- FINAL_LIMIT is active or latched at either half. -/
def Dev.finalLimitOut (s : Dev) : Bool :=
  tbit s.hwk.active 5 || tbit s.hwk.latched 5 || tbit s.hwk.other.active 5 || tbit s.hwk.other.latched 5

def Dev.phaseCurrent (s : Dev) (b : Nat) : Int :=
  match s.coc.mirror with
  | some f => f.iph.getD b 0
  | none => 0
/-- Bridge `b` reports a fault (16 Table 16-6). -/
def Dev.bridgeFaulty (s : Dev) (b : Nat) : Bool :=
  match s.coc.mirror with
  | some f => decide (2 ≤ f.brst.getD b 0)
  | none => false
def Dev.linkDown (s : Dev) : Bool := !s.coc.link.up

/-! ## Records of the isolation link (16 R375) -/

/-- Queue a record. -/
def Records.push {α : Type} (q : Records α) (r : α) : Records α :=
  { q with queue := q.queue ++ [(q.rseq, r)], rseq := (q.rseq + 1) % 65536 }

/-- RSEQ `r` is not before `a`: it lies in the half ahead of it. -/
def rseqFrom (a r : Nat) : Bool := decide ((r + 65536 - a) % 65536 < 32768)

/-- No frame has carried the record with RSEQ `r` (16 R375). -/
def Records.unsent {α : Type} (q : Records α) (r : Nat) : Bool :=
  q.queue.any (fun x => x.1 == r) && rseqFrom q.fresh r

/-- Records move here while neither side says that its link is down. -/
def LinkSide.flows (l : LinkSide) : Bool := l.up && !l.told

def Dev.setCoc (s : Dev) (f : Coc → Coc) : Dev := { s with coc := f s.coc }

/-- A record to Cocoon; a full queue drops it (R375). -/
def Dev.sendDown (s : Dev) (r : DownRec) : Dev :=
  if 64 ≤ s.coc.tx.queue.length then s.setBit Reg.cocStat 9 true
  else s.setCoc (fun c => { c with tx := c.tx.push r })

/-- The record of a command to Cocoon; where a full queue drops it, the command ends HW_FAULT (log entry 23). -/
def Dev.cocCommand (s : Dev) (d : Desc) (r : DownRec) : Dev :=
  if 64 ≤ s.coc.tx.queue.length then (s.setBit Reg.cocStat 9 true).fail d .hwFault
  else s.setCoc (fun c => { c with tx := c.tx.push r, waits := c.waits ++ [⟨c.tx.rseq, r, d⟩] })

/-- A record from Cocoon; a full queue drops it. -/
def Dev.sendUp (s : Dev) (r : UpRec) : Dev :=
  let f := s.coc.field
  s.setCoc (fun c => { c with field :=
    if 64 ≤ f.tx.queue.length then { f with drops := f.drops + 1 } else { f with tx := f.tx.push r } })

/-- A setting or configuration is to be sent to Cocoon (01 R8, 16 R375). -/
def Dev.feedKey (s : Dev) (k : Nat) : Dev :=
  if s.coc.feed.contains k then s else s.setCoc (fun c => { c with feed := c.feed ++ [k] })

/-! ## Channels that an admitted duty declares (03 R57): those that an admitted loop reads (log entry 34) -/

/-- The Q channel of an axis, for the loops of the MSQ; the sources 0x90 and 0x98 of the others. What else reads a channel
(a cogging table's CHAN, CPF, the readers of an SSI channel) declares none (DESIGN CHOICE, log entry 34). -/
def Dev.channelDeclared (s : Dev) (c : Nat) : Bool :=
  (List.range 64).any (fun l => s.admitted l &&
    (if 2 ≤ l ∧ l ≤ 6 then c == l
    else if 8 ≤ l ∧ l ≤ 12 then c == l - 6
    else (List.range 4).any (fun m =>
      let p := s.bank l m
      decide (16 ≤ l ∧ c < 8) && [p.sp, p.y, p.vff, p.aff, p.pos].any (fun x => x == 0x90 + c || x == 0x98 + c))))

end Sys2Proof.Machine
end

