-- ==== Sys2Proof/Machine/Pfi.lean ====
section
/-! DEFINITION. The Position Feedback Interface: counting, speed, index, compare slots, pass-through
and SSI (03). Object IDs and instants as in R59, R60. -/
namespace Sys2Proof.Machine

def Dev.chan (s : Dev) (n : Nat) : Chan := kget .reset s.pfi.chans n
def Dev.setChan (s : Dev) (n : Nat) (c : Chan) : Dev :=
  { s with pfi := { s.pfi with chans := kput .reset s.pfi.chans n c } }
def Dev.slot (s : Dev) (n k : Nat) : Slot := kget .reset s.pfi.slots (64 * n + k)
def Dev.setSlot (s : Dev) (n k : Nat) (x : Slot) : Dev :=
  { s with pfi := { s.pfi with slots := kput .reset s.pfi.slots (64 * n + k) x } }
def Dev.ssi (s : Dev) (m : Nat) : Ssi := kget .reset s.pfi.ssis m
def Dev.setSsi (s : Dev) (m : Nat) (x : Ssi) : Dev :=
  { s with pfi := { s.pfi with ssis := kput .reset s.pfi.ssis m x } }

/-- Compare slots of a channel (Table 3-1). -/
def slotCount (n : Nat) : Nat := if n = 0 then 32 else 8

def Dev.qEnabled (s : Dev) (n : Nat) : Bool := decide (n < s.quads) && s.bit (Reg.pfiQcfg n) 0
def Dev.sEnabled (s : Dev) (m : Nat) : Bool := decide (m < s.ssis) && s.bit (Reg.pfiScfg m) 0

/-- u = raw + offset, exact, raw taken as signed (R35). -/
def Chan.u (c : Chan) : Int := c.raw.toInt + c.offset

def Dev.softLo (s : Dev) (n : Nat) : Int := s.sfld (Reg.pfiQsoftlo n) 31 0
def Dev.softHi (s : Dev) (n : Nat) : Int := s.sfld (Reg.pfiQsofthi n) 31 0
/-- The limits are consistent and so apply (R36). -/
def Dev.limitsOk (s : Dev) (n : Nat) : Bool := decide (s.softLo n ≤ s.softHi n)
def Dev.limLo (s : Dev) (n : Nat) : Bool := s.limitsOk n && decide ((s.chan n).u < s.softLo n)
def Dev.limHi (s : Dev) (n : Nat) : Bool := s.limitsOk n && decide (s.softHi n < (s.chan n).u)

/-- The reported position p (R35, R36). -/
def Dev.pos (s : Dev) (n : Nat) : Int :=
  if s.limitsOk n then clampI (s.softLo n) (s.softHi n) (s.chan n).u else satS 32 (s.chan n).u

/-- The change-over thresholds are consistent (R41). -/
def Dev.thresholdsOk (s : Dev) (n : Nat) : Bool :=
  decide (s.fld (Reg.pfiQspdlo n) 23 0 < s.fld (Reg.pfiQspdhi n) 23 0)

/-! ## Speed (R39-R42) -/

/-- A magnitude of speed in Q24.8, or the free value where it lies outside the format: the spec says
'truncated to the format' and gives no value (log entry 8). -/
def Dev.q24 (s : Dev) (num den : Nat) : Int × Dev :=
  let m := num / den
  if den ≠ 0 ∧ m < 2 ^ 31 then ((m : Int), s) else (((s.free % 2 ^ 31 : Nat) : Int), s.drawn)

/-- The period-mode magnitude (R39). T and E are ticks of 10 ns; it is 0 once E has reached ZTO. -/
def Dev.periodMag (s : Dev) (n : Nat) : Int × Dev :=
  match (s.chan n).edges with
  | (t1, _) :: (t0, _) :: _ =>
    let e := (s.dt - t1) / 10
    if (s.chan n).timedOut ∨ s.fld (Reg.pfiQest n) 15 8 * 100000 ≤ e then (0, s)
    else s.q24 25600000000 (max ((t1 - t0) / 10) e)
  | _ => (0, s)

/-- The window-mode magnitude (R40), or the period-mode one with fewer than two edges in the window. The window is
half open: an edge exactly at its older end lies outside (DEDUCED, log entry 8). -/
def Dev.windowMag (s : Dev) (n : Nat) : Int × Dev :=
  let lo := s.dt - s.fld (Reg.pfiQest n) 7 0 * 50000
  let win := (s.chan n).edges.filter (fun e => decide (lo < e.1) || decide (s.dt < s.fld (Reg.pfiQest n) 7 0 * 50000))
  match win, win.getLast? with
  | (t1, r1) :: _ :: _, some (t0, r0) => s.q24 (((r1 - r0).toInt).natAbs * 25600000000) ((t1 - t0) / 10)
  | _, _ => s.periodMag n

/-- The estimator mode in force: ESTFORCE holds one, and automatic holds period mode with inconsistent
thresholds (R41). -/
def Dev.winMode (s : Dev) (n : Nat) : Bool :=
  match s.fld (Reg.pfiQcfg n) 21 20 with
  | 1 => false
  | 2 => true
  | _ => s.thresholdsOk n && (s.chan n).win

/-- The mode in force becomes the channel's own, so that automatic change-over goes on from it (R41): before and after a
write of ESTFORCE or of a threshold. -/
def Dev.settleMode (s : Dev) (n : Nat) : Dev := s.setChan n { s.chan n with win := s.winMode n }

def Dev.speedMag (s : Dev) (n : Nat) : Int × Dev :=
  if s.winMode n then s.windowMag n else s.periodMag n

/-- The mode an evaluation decides on: the automatic change-over only under ESTFORCE 0 and 3 with consistent
thresholds; otherwise the mode in force stays (R41). -/
def Dev.nextMode (s : Dev) (n : Nat) (m : Int) : Bool :=
  if s.fld (Reg.pfiQcfg n) 21 20 = 1 ∨ s.fld (Reg.pfiQcfg n) 21 20 = 2 ∨ !s.thresholdsOk n then s.winMode n
  else if s.winMode n then !decide (m < s.fld (Reg.pfiQspdlo n) 23 0 * 256)
  else decide ((s.fld (Reg.pfiQspdhi n) 23 0 * 256 : Int) < m)

/-- An evaluation of the speed estimate and the mode decision (R41, R42): the new mode applies from
this evaluation on. -/
def Dev.evalSpeed (s : Dev) (n : Nat) : Dev :=
  let (m, s) := s.speedMag n
  let c := s.chan n
  let win := s.nextMode n m
  let s := s.setChan n { c with win := win }
  let (m, s) := s.speedMag n
  let c := s.chan n
  s.setChan n { c with speed := if c.dirNeg then -m else m }

/-- The speed of an SSI channel from its last two good reads (R56); with fewer, and beyond the Q24.8 format, the spec
states none and it is a free value; the quotient rounds toward minus infinity (DESIGN CHOICE, log entry 8). -/
def Dev.ssiSpeed (s : Dev) (m : Nat) : Int × Dev :=
  match (s.ssi m).good, (s.ssi m).prevGood with
  | some g, some p =>
    let v := idiv ((g.pos - p.pos) * 256000000000) ((g.at_ - p.at_ : Nat) : Int)
    if p.at_ < g.at_ ∧ satS 32 v = v then (v, s) else (wrapS 32 s.free, s.drawn)
  | _, _ => (wrapS 32 s.free, s.drawn)

/-! ## Latching (R43) -/

/-- Evaluate the speed of every latched, enabled Q channel of a mask. -/
def Dev.latchEval (s : Dev) (mask : Nat) : Dev :=
  (List.range 8).foldl (fun s n => if tbit mask n && s.qEnabled n then s.evalSpeed n else s) s

/-- One PFI_LATCH_REC for each enabled channel of a mask; a disabled channel is skipped. -/
def Dev.latchRecords (s : Dev) (mask at_ : Nat) : Dev :=
  let s := (List.range 8).foldl (fun s n =>
    if tbit mask n && s.qEnabled n then
      s.event 3 1 0x000A n at_ [s.pos n, (s.chan n).speed, (s.chan n).tEdge]
    else s) s
  (List.range 2).foldl (fun s m =>
    if tbit mask (8 + m) && s.sEnabled m then
      let (v, s) := s.ssiSpeed m
      let g := (s.ssi m).good.getD ⟨0, 0⟩
      s.event 3 1 0x000A (0x10 + m) at_ [g.pos, v, g.at_]
    else s) s

/-- A latch at an instant: evaluation, then the records. -/
def Dev.latch (s : Dev) (mask at_ : Nat) : Dev := (s.latchEval mask).latchRecords mask at_

/-- The phase-zero latch of every enabled Q channel (R43); a CPF frame's is kept for its period. -/
def Dev.phaseLatch (s : Dev) (cpfFrame : Bool) : Dev :=
  (List.range 8).foldl (fun s n =>
    if s.qEnabled n then
      let s := s.evalSpeed n
      let c := s.chan n
      let c := { c with snapP := s.pos n, snapSpeed := c.speed, snapEdge := c.tEdge }
      s.setChan n (if cpfFrame then { c with tkP := c.snapP, tkSpeed := c.speed } else c)
    else s) s

/-! ## Compare slots (R49-R52) -/

/-- The channels a slot of channel `n` evaluates when it fires: those it latches and its own (R42). -/
def Slot.evalMask (x : Slot) (n : Nat) : Nat := if x.latch then Nat.lor x.latchMask (2 ^ n) else 0

/-- The evaluations of a latch instant, before anything is reported there: those of all slots of channel `n` that fire
at it, each channel once (R42, R51). -/
def Dev.evalFiring (s : Dev) (n : Nat) (ks : List Nat) : Dev :=
  s.latchEval (ks.foldl (fun m k => Nat.lor m ((s.slot n k).evalMask n)) 0)

/-- A slot's actions at a fire instant whose evaluations are done (R51). -/
def Dev.fire (s : Dev) (n k at_ : Nat) (atArm snap dirNeg : Bool) : Dev :=
  let x := s.slot n k
  let s := if x.event then
      s.event 3 2 1 (n + 256 * k) at_
        [wrapS 32 (s.chan n).u, (s.chan n).speed,
         b2n x.behind + 2 * b2n atArm + 4 * b2n snap + 8 * b2n dirNeg]
    else s
  let s := if x.latch then s.latchRecords x.latchMask at_ else s
  let s := if x.repeat_ then s else s.setSlot n k { x with armed := false, fired := true }
  if x.trig then s.pulseLpe x.trigLine at_ else s

/-- The sense in which a move of u from `u0` to `u1` crosses an armed slot that admits it: up, down, or not (R49). -/
def Slot.crossed (x : Slot) (u0 u1 : Int) : Option Bool :=
  if x.armed && decide (u0 < x.pos ∧ x.pos ≤ u1) && x.dirf != 2 then some true
  else if x.armed && decide (x.pos < u0 ∧ u1 ≤ x.pos) && x.dirf != 1 then some false
  else none

/-- Fire the armed slots of channel `n` that a move of u from `u0` to `u1` crosses, in slot order (R49, R51). -/
def Dev.crossSlots (s : Dev) (n : Nat) (u0 u1 : Int) (snap : Bool) : Dev :=
  let hits := (List.range (slotCount n)).filter (fun k => ((s.slot n k).crossed u0 u1).isSome)
  hits.foldl (fun s k => s.fire n k s.dt false snap ((s.slot n k).crossed u0 u1 == some false)) (s.evalFiring n hits)

/-- The slot's position is behind u in direction DIR (Table 3-3). -/
def Dev.slotBehind (s : Dev) (n k : Nat) : Bool :=
  let c := s.chan n
  let x := s.slot n k
  if c.dirNeg then decide (c.u < x.pos) else decide (x.pos < c.u)

/-- The slot fires at its arming (Table 3-3). -/
def Dev.firesAtArm (s : Dev) (n k : Nat) : Bool :=
  let x := s.slot n k
  x.pos == (s.chan n).u || (s.slotBehind n k && x.immediate)

/-- A slot is armed, at an instant whose evaluations are done: BEHIND, and whether it fires. The flag 'direction
negative' of a fire at arming shows DIR (DESIGN CHOICE, log entry 8: nothing crosses there, and the spec gives no
direction). -/
def Dev.armAt (s : Dev) (n k at_ : Nat) : Dev × Bool × Bool :=
  let behind := s.slotBehind n k
  let fires := s.firesAtArm n k
  let s := s.setSlot n k { s.slot n k with armed := true, fired := false, behind := behind }
  (if fires then s.fire n k at_ true false (s.chan n).dirNeg else s, behind, fires)

/-- Judge a slot as though it had just been armed (R50), at an instant. -/
def Dev.judgeArm (s : Dev) (n k at_ : Nat) : Dev × Bool × Bool :=
  (s.evalFiring n (if s.firesAtArm n k then [k] else [])).armAt n k at_

/-- Re-evaluate every armed slot of a channel (R37). -/
def Dev.rejudge (s : Dev) (n at_ : Nat) : Dev :=
  let ks := (List.range (slotCount n)).filter (fun k => (s.slot n k).armed)
  ks.foldl (fun s k => (s.armAt n k at_).1) (s.evalFiring n (ks.filter (s.firesAtArm n)))

/-- Disabling a channel disarms its slots and raises nothing (R52). -/
def Dev.disarmAll (s : Dev) (n : Nat) : Dev :=
  (List.range (slotCount n)).foldl (fun s k => s.setSlot n k .reset) s

/-! ## Counting (R34-R38) -/

/-- The step of the quadrature levels 00, 10, 11, 01: +1 forward, -1 backward, 0 none. -/
def quadStep (a0 b0 a1 b1 : Bool) : Int :=
  if a0 ≠ a1 ∧ b0 ≠ b1 then 0
  else if a0 ≠ a1 then (if a1 = b0 then -1 else 1)
  else if b0 ≠ b1 then (if b1 = a0 then 1 else -1)
  else 0

/-- Direction, extreme and speed edges after a count (R38). -/
def Dev.direction (s : Dev) (n : Nat) (up : Bool) : Dev :=
  let c := s.chan n
  let edge : List (Nat × BitVec 48) := [(s.dt, c.raw)]
  if s.bit (Reg.pfiQcfg n) 2 then
    let ahead := if c.dirNeg then (c.ext - c.raw).toInt else (c.raw - c.ext).toInt
    if 0 < ahead then s.setChan n { c with ext := c.raw, edges := edge ++ c.edges, timedOut := false }
    else if ahead ≤ -2 then
      s.setChan n { c with dirNeg := !c.dirNeg, ext := c.raw, edges := edge, win := false, timedOut := false }
    else s
  else if up = c.dirNeg then
    s.setChan n { c with dirNeg := !up, ext := c.raw, edges := edge, win := false, timedOut := false }
  else s.setChan n { c with ext := c.raw, edges := edge ++ c.edges, timedOut := false }

/-- SOFT_LIMIT at an entry into saturation at an instant, given the sides before (R36). -/
def Dev.limitEvents (s : Dev) (n : Nat) (lo0 hi0 : Bool) (at_ : Nat) : Dev :=
  let s := if s.limLo n && !lo0 then
    s.event 3 4 6 n at_ [wrapS 32 (s.chan n).u, s.softLo n, 0] else s
  if s.limHi n && !hi0 then s.event 3 4 6 n at_ [wrapS 32 (s.chan n).u, s.softHi n, 1] else s

/-- The levels of QOA, QOB and QOZ (R53); a block that is off drives nothing high (01 R9). -/
def Dev.qoa (s : Dev) : Bool := s.powered 6 && s.bit Reg.pfiPtcfg 0 && (s.pfi.ptState == 1 || s.pfi.ptState == 2)
def Dev.qob (s : Dev) : Bool := s.powered 6 && s.bit Reg.pfiPtcfg 0 && (s.pfi.ptState == 2 || s.pfi.ptState == 3)
def Dev.qoz (s : Dev) : Bool := s.powered 6 && s.bit Reg.pfiPtcfg 0 && s.bit Reg.pfiPtcfg 8 && (s.chan 0).qz

/-- The pass-through outputs that differ from what they were in `t` change level. -/
def Dev.ptPins (t s : Dev) : Dev :=
  let s := if t.qoa != s.qoa then s.emit (.pin .qoa s.qoa) else s
  let s := if t.qob != s.qob then s.emit (.pin .qob s.qob) else s
  if t.qoz != s.qoz then s.emit (.pin .qoz s.qoz) else s

/-- The division in force: a write of DIVM1 applies from the next output state change. -/
def Dev.ptDivision (s : Dev) : Nat := s.pfi.ptOld.getD (s.fld Reg.pfiPtcfg 7 4 + 1)

/-- The output state changes by `d` states. -/
def Dev.ptAdvance (s : Dev) (d : Nat) : Dev :=
  s.ptPins { s with pfi := { s.pfi with ptState := (s.pfi.ptState + d) % 4, ptCount := 0, ptOld := none } }

/-- The pass-through advances by one input count (R53). With PTEN = 0 the counts do not move it: the output state
is kept, and a new PTEN = 1 starts from it with no counts toward the next. The counts toward the next output state are one
signed sum: after a reversal or a change of PTINV it takes DIV net counts from the last output change to change the outputs
back (both DESIGN CHOICE, log entry 8). -/
def Dev.passThrough (s : Dev) (up : Bool) : Dev :=
  if s.bit Reg.pfiPtcfg 0 then
    let fwd := up != s.bit Reg.pfiPtcfg 1
    let d : Int := if fwd then 1 else -1
    let k := s.pfi.ptCount + d
    let div : Int := s.ptDivision
    if div ≤ k then s.ptAdvance 1
    else if k ≤ -div then s.ptAdvance 3
    else { s with pfi := { s.pfi with ptCount := k } }
  else s

/-- A count of an enabled channel, up or down (R34, R35, R38, R49). -/
def Dev.takeCount (s : Dev) (n : Nat) (up : Bool) : Dev :=
  let c := s.chan n
  let u0 := c.u
  let lo0 := s.limLo n
  let hi0 := s.limHi n
  let raw := if up then c.raw + 1 else c.raw - 1
  let c := { c with raw := raw, tEdge := s.dt }
  let c := { c with idxX := if c.idxActive then min c.idxX c.u else c.idxX }
  let s := (s.setChan n c).direction n up
  let s := s.crossSlots n u0 (s.chan n).u false
  let s := s.limitEvents n lo0 hi0 s.dt
  if n = 0 then s.passThrough up else s

/-- An undetermined count (R34, R48): the counter stays, PHASE_ERR is set. -/
def Dev.phaseError (s : Dev) (n : Nat) : Dev :=
  let s := s.chrInc 2 (2 * n + 1)
  let s := if s.bit (Reg.pfiQstat n) 0 then s
    else s.event 3 8 5 n s.dt [wrapS 32 (s.chan n).u]
  let s := s.setBit (Reg.pfiQstat n) 0 true
  if n = 0 then { s with cpf := { s.cpf with phase0 := true } }
  else if n = 1 then { s with cpf := { s.cpf with phase1 := true } }
  else s

/-- The samples with a new level that accept it (R34). -/
def Dev.filt (s : Dev) (n : Nat) : Nat := s.fld (Reg.pfiQcfg n) 7 4 + 1

/-- The input filter of one line (R34): the accepted level and the run of samples against it, after a sample that
shows `pin`. A sample of the accepted level cancels the run. -/
def filterStep (need : Nat) (level : Bool) (run : Nat) (pin : Bool) : Bool × Nat :=
  if pin = level then (level, 0) else if need ≤ run + 1 then (pin, 0) else (level, run + 1)

/-- The accepted levels of QAn and QBn become `a` and `b` (R34). -/
def Dev.acceptLevels (s : Dev) (n : Nat) (a b : Bool) : Dev :=
  let c := s.chan n
  let st := quadStep c.qa c.qb a b
  let both := c.qa != a && c.qb != b
  let s := s.setChan n { c with qa := a, qb := b }
  if !s.qEnabled n then s
  else if both then s.phaseError n
  else if st = 0 then s
  else s.takeCount n ((st == 1) != s.bit (Reg.pfiQcfg n) 1)

/-- One sample of QAn and QBn (R34). -/
def Dev.samplePins (s : Dev) (n : Nat) (a b : Bool) : Dev :=
  let c := s.chan n
  let fa := filterStep (s.filt n) c.qa c.runA a
  let fb := filterStep (s.filt n) c.qb c.runB b
  (s.setChan n { c with pinA := a, pinB := b, runA := fa.2, runB := fb.2 }).acceptLevels n fa.1 fb.1

/-- COUNT: a sample of the pins; the one that completes FILT + 1 in a row of a new level is accepted. -/
def count (n : Nat) (a b : Bool) (s : Dev) : Dev := s.samplePins n a b

def execCount (n : Fin 8) (a b : Bool) (s : State) : Host.Outcome State Fault Refusal :=
  s.upd (whenOn 6 (count n a b))

/-! ## Index (R45-R48) -/

/-- The level of QZn that IDXPOL makes the active one. -/
def Dev.idxLevel (s : Dev) (n : Nat) : Bool := !s.bit (Reg.pfiQcfg n) 12

/-- One sample of QZn (R34). -/
def Dev.sampleZ (s : Dev) (n : Nat) (z : Bool) : Dev :=
  let c := s.chan n
  let f := filterStep (s.filt n) c.qz c.runZ z
  s.setChan n { c with pinZ := z, qz := f.1, runZ := f.2 }

/-- The index goes active: x starts at u; the index counts only if it goes active while the channel is enabled
(R45). -/
def Dev.indexOn (s : Dev) (n : Nat) : Dev :=
  let c := s.chan n
  s.setChan n { c with idxActive := true, idxTaken := s.qEnabled n, idxX := c.u }

/-- INDEX_GOES_ACTIVE: a sample of QZn shows the active level; once the filter holds it the index is active, and QOZ
follows the filtered level (R45, R53). -/
def indexGoesActive (n : Nat) (s : Dev) : Dev :=
  let t := s.sampleZ n (s.idxLevel n)
  if !(t.chan n).idxActive ∧ (t.chan n).qz = s.idxLevel n then s.ptPins (t.indexOn n) else s.ptPins t

def execIndexGoesActive (n : Fin 8) (s : State) : Host.Outcome State Fault Refusal :=
  s.upd (whenOn 6 (indexGoesActive n))

/-- The value IDXREF + k IDXPER nearest to x, the lower of two equally near (R45). -/
def expectedIndex (x ref per : Int) : Int :=
  let lo := ref + idiv (x - ref) per * per
  if x - lo ≤ lo + per - x then lo else lo + per

/-- An offset change at an index (R47): crossed slots fire with SNAP; the soft limit entry counts. -/
def Dev.stepOffset (s : Dev) (n : Nat) (d : Int) : Dev :=
  let c := s.chan n
  let lo0 := s.limLo n
  let hi0 := s.limHi n
  let s := s.setChan n { c with offset := wrapS 64 (c.offset + d) }
  (s.crossSlots n c.u (s.chan n).u true).limitEvents n lo0 hi0 s.dt

/-- A mismatch that is not corrected (R46, R48). -/
def Dev.indexError (s : Dev) (n : Nat) (x e d : Int) : Dev :=
  let s := if s.bit (Reg.pfiQstat n) 1 then s
    else s.event 3 6 2 n s.dt [wrapS 32 x, wrapS 32 e, wrapS 32 d]
  s.setBit (Reg.pfiQstat n) 1 true

/-- The handling of a taken index by IDXMODE (Table 3-2). -/
def Dev.checkIndex (s : Dev) (n : Nat) (x : Int) : Dev :=
  let ref := s.sfld (Reg.pfiQidxref n) 31 0
  let e := expectedIndex x ref (max 64 (s.fld (Reg.pfiQidxper n) 23 0))
  let d := x - e
  match s.fld (Reg.pfiQcfg n) 9 8 with
  | 0 => s
  | 1 => if d = 0 then s else (s.chrInc 2 (2 * n)).indexError n x e d
  | 2 =>
    if d = 0 then s
    else
      let s := s.chrInc 2 (2 * n)
      if d.natAbs ≤ s.fld (Reg.pfiQcfg n) 19 16 then
        (s.stepOffset n (-d)).event 3 2 3 n s.dt [wrapS 32 x, wrapS 32 e, wrapS 32 d]
      else s.indexError n x e d
  | _ =>
    let s := (s.stepOffset n (ref - x)).event 3 2 4 n s.dt [wrapS 32 x, ref]
    let next := s.fld (Reg.pfiQcfg n) 11 10
    (s.setFld (Reg.pfiQcfg n) 9 8 (if next = 3 then 1 else next)).setBit (Reg.pfiQstat n) 8 true

/-- The index goes inactive: a taken one is checked (R45, R46). -/
def Dev.indexOff (s : Dev) (n : Nat) : Dev :=
  let c := s.chan n
  let t := s.setChan n { c with idxActive := false, idxTaken := false,
                                idxSeen := c.idxSeen || (c.idxTaken && s.qEnabled n) }
  if c.idxTaken && s.qEnabled n then t.checkIndex n c.idxX else t

/-- INDEX_CHECK: a sample of QZn shows the inactive level; once the filter holds it an active index goes inactive. -/
def indexCheck (n : Nat) (s : Dev) : Dev :=
  let t := s.ptPins (s.sampleZ n (!s.idxLevel n))
  if (t.chan n).idxActive ∧ (t.chan n).qz = !s.idxLevel n then t.indexOff n else t

def execIndexCheck (n : Fin 8) (s : State) : Host.Outcome State Fault Refusal :=
  s.upd (whenOn 6 (indexCheck n))

/-- ZERO_SPEED_TIMEOUT: E has reached ZTO, so from now on the period-mode magnitude is 0 (R39); the reported speed
takes it at the next evaluation (R42). Before then nothing happens. -/
def zeroSpeedTimeout (n : Nat) (s : Dev) : Dev :=
  let c := s.chan n
  match c.edges with
  | (t1, _) :: _ =>
    if s.qEnabled n && decide (s.fld (Reg.pfiQest n) 15 8 * 1000000 ≤ s.dt - t1) then
      s.setChan n { c with timedOut := true }
    else s
  | [] => s

def execZeroSpeedTimeout (n : Fin 8) (s : State) : Host.Outcome State Fault Refusal :=
  s.upd (whenOn 6 (zeroSpeedTimeout n))

/-! ## SSI (R55, R56) -/

/-- Start a read at phase zero of every PER-th frame (R55): those whose number is a multiple of PER, and PER = 0 counts
as 1 (DESIGN CHOICE, log entry 8). -/
def Dev.ssiStart (s : Dev) (frame m : Nat) : Dev :=
  if s.sEnabled m && frame % max 1 (s.fld (Reg.pfiSper m) 5 0) == 0 then
    s.setSsi m { s.ssi m with reading := some (s.dt + 100) }
  else s

/-- Binary of a Gray code of `n` bits. -/
def grayToBin : Nat → Nat → Nat
  | 0, _ => 0
  | n + 1, g => Nat.xor g (grayToBin n (g / 2))

def Dev.posBits (s : Dev) (m : Nat) : Nat := s.fld (Reg.pfiScfg m) 12 8 + 1

/-- The position a frame holds (R56). -/
def Dev.ssiValue (s : Dev) (m pos : Nat) : Int :=
  let nb := s.posBits m
  let p := pos % 2 ^ nb
  let p := if s.bit (Reg.pfiScfg m) 1 then grayToBin nb p else p
  if s.bit (Reg.pfiScfg m) 21 then wrapS nb p else p

/-- Why a read fails, if it does: 1 line low, 2 start bit, 3 parity, 4 status, 5 jump (R56). -/
def Dev.ssiFailure (s : Dev) (m : Nat) (idleHigh start : Bool) (pos stat : Nat) (par : Bool) : Option Nat :=
  let x := s.ssi m
  let nb := s.posBits m
  let sb := s.fld (Reg.pfiScfg m) 19 16
  let ones := popcount nb pos + popcount sb stat + b2n par
  let jump := s.fld (Reg.pfiSjump m) 31 0
  let ref := if x.fail then x.prevRead else x.good.map (·.pos)
  if !idleHigh then some 1
  else if !start then some 2
  else if s.bit (Reg.pfiScfg m) 20 && ones % 2 == 1 then some 3
  else if Nat.land (stat % 2 ^ sb) (s.fld (Reg.pfiSper m) 15 8) ≠ 0 then some 4
  else match ref with
    | some r => if jump ≠ 0 ∧ jump < (s.ssiValue m pos - r).natAbs then some 5 else none
    | none => none

/-- SSI_FRAME_COMPLETE: the read in progress is accepted or failed (R56). -/
def ssiFrameComplete (m : Nat) (idleHigh start : Bool) (pos stat : Nat) (par : Bool) (s : Dev) : Dev :=
  let x := s.ssi m
  match x.reading with
  | none => s
  | some ts =>
    let v := s.ssiValue m pos
    match s.ssiFailure m idleHigh start pos stat par with
    | some cause =>
      let s := (s.setBit (Reg.pfiSstat m) 0 true).event 3 6 7 (0x10 + m) ts [(pos % 2 ^ 32 : Nat), cause]
      let fails := x.fails + 1
      let fail := x.fail || decide (3 ≤ fails)
      let s := s.setSsi m { x with reading := none, prevRead := some v, fails := fails, goods := 0,
                                   stale := true, fail := fail }
      if fail && !x.fail then
        (s.chrInc 2 (16 + m)).event 3 8 8 (0x10 + m) ts [(x.good.map (·.pos)).getD 0]
      else s
    | none =>
      let goods := x.goods + 1
      let rec_ := x.fail && decide (3 ≤ goods)
      let fail := x.fail && !rec_
      let s := s.setSsi m { x with reading := none, prevRead := some v, fails := 0, goods := goods,
                                   prevGood := x.good, recent := (⟨v, ts⟩ :: x.recent).take 8,
                                   good := some ⟨v, ts⟩, fail := fail,
                                   stale := fail }
      if rec_ then s.event 3 4 9 (0x10 + m) ts [v] else s

def execSsiFrameComplete (m : Fin 2) (idleHigh start : Bool) (pos stat : Nat) (par : Bool) (s : State) :
    Host.Outcome State Fault Refusal :=
  s.upd (whenOn 6 (ssiFrameComplete m idleHigh start pos stat par))

/-! ## Configuration writes (R57) -/

/-- The PFI_QCFG fields locked while EN = 1: INV, DHYS, FILT, IDXPOL. -/
def qcfgLocked : Nat := 0x10F6

/-- An enable (R57): the filter takes the levels present, the extreme the raw value, the speed measurement restarts,
and an index that is already active is not taken (R45). -/
def Dev.enableChan (s : Dev) (n : Nat) : Dev :=
  let c := s.chan n
  s.setChan n { c with qa := c.pinA, qb := c.pinB, qz := c.pinZ, runA := 0, runB := 0, runZ := 0,
                       ext := c.raw, edges := [], timedOut := false, win := false, speed := 0,
                       idxActive := c.pinZ == s.idxLevel n, idxTaken := false, idxSeen := false }

/-- PFI_QCFG_WRITE: the locked fields keep their values while EN = 1, clearing EN of a declared
channel is ignored, an enable restarts the speed measurement and a disable disarms the slots. -/
def pfiQcfgWrite (n : Nat) (v : Word) (s : Dev) : Dev :=
  if s.quads ≤ n then s
  else
    let old := s.reg (Reg.pfiQcfg n)
    let en0 := bitOf old 0
    if en0 && !bitOf v 0 && s.channelDeclared n then s.setBit (Reg.pfiQstat n) 6 true
    else
      let w := writeBits old v 0x3F1FF7 0
      let w1 := if en0 then keepBits old w qcfgLocked else w
      let s := if en0 && w1 != w then s.setBit (Reg.pfiQstat n) 6 true else s
      let w2 := if bitsOf w1 19 16 = 0 then setBitsOf w1 19 16 1 else w1
      let s := ((s.settleMode n).setReg (Reg.pfiQcfg n) w2).settleMode n
      if !en0 && bitOf v 0 then
        s.ptPins (s.enableChan n)
      else if en0 && !bitOf v 0 then s.disarmAll n
      else s

def execPfiQcfgWrite (n : Fin 8) (v : Word) (s : State) : Host.Outcome State Fault Refusal :=
  s.upd (whenBar (pfiQcfgWrite n v))

/-- The time of an SSI frame in ns: start, position, status and parity bits at DIV x 20 ns (R55). -/
def ssiFrameTime (cfg clk : Word) : Nat :=
  (1 + (bitsOf cfg 12 8 + 1) + bitsOf cfg 19 16 + bitsOf cfg 20 20) * bitsOf clk 8 0 * 20

/-- The channel enables: its frame and TM fit PER frames (R55). -/
def Dev.ssiFits (s : Dev) (m : Nat) (cfg : Word) : Bool :=
  decide (ssiFrameTime cfg (s.reg (Reg.pfiSclk m)) + s.fld (Reg.pfiSclk m) 29 24 * 1000
    ≤ s.fld (Reg.pfiSper m) 5 0 * 50000)

/-- PFI_SCFG_WRITE. A value of STATBITS above 4 is stored as 4. A disable ends a read in progress; the last good reads,
FAIL, STALE and the counts of failed and good reads in a row stay, through a new enable too (both DESIGN CHOICE, log
entry 8). -/
def pfiScfgWrite (m : Nat) (v : Word) (s : Dev) : Dev :=
  if s.ssis ≤ m then s
  else
    let old := s.reg (Reg.pfiScfg m)
    if bitOf old 0 && !bitOf v 0 && s.channelDeclared (0x10 + m) then s
    else
      let w := writeBits old v 0x3F1F03 0
      let w := if bitsOf w 12 8 < 7 then setBitsOf w 12 8 7 else w
      let w := if 4 < bitsOf w 19 16 then setBitsOf w 19 16 4 else w
      if !bitOf old 0 && bitOf v 0 && !s.ssiFits m w then
        (s.setReg (Reg.pfiScfg m) (setBitsOf w 0 0 0)).setBit (Reg.pfiSstat m) 3 true
      else
        let s := s.setReg (Reg.pfiScfg m) w
        if bitOf w 0 then s else s.setSsi m { s.ssi m with reading := none }

def execPfiScfgWrite (m : Fin 2) (v : Word) (s : State) : Host.Outcome State Fault Refusal :=
  s.upd (whenBar (pfiScfgWrite m v))

/-! ## Commands (R59) -/

/-- The effect edge: the first peripheral clock edge strictly after dispatch. -/
def effectEdge (dt : Nat) : Nat := (dt / 10 + 1) * 10

/-- The commit instant of a PFI command: the effect edge of its dispatch (R59). -/
def Dev.pfiEdge (s : Dev) (d : Desc) : Nat := effectEdge (s.dispatchedAt d)

/-- A dispatched command acts at its effect edge, on the state that stands there; sent before it, the row changes
nothing. -/
def atEdge (d : Desc) (f : Dev → Dev) (s : Dev) : Dev :=
  if s.dt < s.pfiEdge d then s else f s

def pfiCh (d : Desc) : Nat := bitsOf d.object 7 0
def pfiSlot (d : Desc) : Nat := bitsOf d.object 15 8

/-- A latch mask names a fused-off channel. -/
def Dev.maskAbsent (s : Dev) (mask : Nat) : Bool :=
  (List.range 10).any (fun i => tbit mask i && decide (if i < 8 then s.quads ≤ i else s.ssis ≤ i - 8))

/-- The checks that a channel command fails or passes at its dispatch (R59, 15 R334): present, and well formed; `more`
is what the command itself adds. PFI_READ, PFI_SET_POS and PFI_CLEAR use no slot, and any slot field passes (DESIGN
CHOICE, log entry 8). -/
def Dev.pfiForm (s : Dev) (d : Desc) (qOnly more : Bool) : Option Status :=
  let c := pfiCh d
  let q := decide (c < 8)
  let ss := c == 0x10 || c == 0x11
  if (q && decide (s.quads ≤ c)) || (ss && decide (s.ssis ≤ c - 0x10)) then some .notInVariant
  else if !(q || ss) || (qOnly && ss) || bitsOf d.object 31 16 != 0 || more then some .badDescriptor
  else none

/-- The channel a command addresses is enabled. -/
def Dev.pfiOn (s : Dev) (d : Desc) : Bool :=
  let c := pfiCh d
  if c < 8 then s.qEnabled c else s.sEnabled (c - 0x10)

/-- Present, well formed and enabled. -/
def Dev.pfiCheck (s : Dev) (d : Desc) (qOnly : Bool) : Option Status :=
  match s.pfiForm d qOnly false with
  | some st => some st
  | none => if s.pfiOn d then none else some .badDescriptor

/-- A channel command acts if its checks pass and, at its effect edge, the channel is enabled: a failed check carries
the dispatch instant, a disabled channel the effect edge (R59, 15 R337). -/
def Dev.pfiRun (s : Dev) (d : Desc) (bad : Option Status) (f : Dev → Dev) : Dev :=
  match bad with
  | some st => s.fail d st
  | none => if s.pfiOn d then f s else s.complete d .badDescriptor (s.pfiEdge d) []

/-- PFI_READ. -/
def pfiRead (d : Desc) (s : Dev) : Dev :=
  s.pfiRun d (s.pfiForm d false false) (fun s =>
    if pfiCh d < 8 then
      let c := s.chan (pfiCh d)
      s.complete d .done (s.pfiEdge d)
        [wordI (s.pos (pfiCh d)), wordI c.speed, lo64 c.tEdge, hi64 c.tEdge]
    else
      let (v, s) := s.ssiSpeed (pfiCh d - 0x10)
      let g := (s.ssi (pfiCh d - 0x10)).good.getD ⟨0, 0⟩
      s.complete d .done (s.pfiEdge d) [wordI g.pos, wordI v, lo64 g.at_, hi64 g.at_])

def execPfiRead (d : Desc) (s : State) : Host.Outcome State Fault Refusal := s.cmd d (whenOn 6 (atEdge d (pfiRead d)))

/-- PFI_SET_POS (R37): u becomes the given value; speed, direction and slots stay, and every armed
slot is judged anew. -/
def pfiSetPos (d : Desc) (s : Dev) : Dev :=
  s.pfiRun d (s.pfiForm d true false) (fun s =>
    let n := pfiCh d
    let c := s.chan n
    let lo0 := s.limLo n
    let hi0 := s.limHi n
    let u := sWord (d.w 3)
    let at_ := s.pfiEdge d
    let s := s.setChan n { c with offset := u - c.raw.toInt, idxX := if c.idxActive then min c.idxX u else c.idxX }
    ((s.rejudge n at_).limitEvents n lo0 hi0 at_).complete d .done at_ [])

def execPfiSetPos (d : Desc) (s : State) : Host.Outcome State Fault Refusal := s.cmd d (whenOn 6 (atEdge d (pfiSetPos d)))

/-- The MSQ reserves slots 30 and 31 of Q0 and trigger lines 0 and 1 (05 R101). -/
def Dev.armReserved (s : Dev) (d : Desc) : Bool :=
  s.hoist.enabled && ((pfiCh d == 0 && (pfiSlot d == 30 || pfiSlot d == 31)) ||
    (bitOf (d.w 4) 6 && decide (bitsOf (d.w 4) 11 8 < 2)))

/-- The slot Table 3-10 describes. -/
def armSlot (d : Desc) : Slot :=
  { armed := true, fired := false, pos := sWord (d.w 3), dirf := bitsOf (d.w 4) 1 0,
    immediate := bitOf (d.w 4) 2, repeat_ := bitOf (d.w 4) 3, event := bitOf (d.w 4) 4,
    latch := bitOf (d.w 4) 5, trig := bitOf (d.w 4) 6, trigLine := bitsOf (d.w 4) 11 8,
    latchMask := bitsOf (d.w 4) 25 16, behind := false }

/-- PFI_CMP_ARM (R50). -/
def pfiCmpArm (d : Desc) (s : Dev) : Dev :=
  let more := decide (slotCount (pfiCh d) ≤ pfiSlot d) || bitsOf (d.w 4) 1 0 == 3 || Nat.land (d.w 4).toNat 0xFC00F080 != 0
  let bad := if s.maskAbsent (bitsOf (d.w 4) 25 16) then some Status.notInVariant else s.pfiForm d true more
  s.pfiRun d bad (fun s =>
    if s.armReserved d then s.complete d .reconfigBusy (s.pfiEdge d) []
    else
      let n := pfiCh d
      let s := s.setSlot n (pfiSlot d) (armSlot d)
      let u := (s.chan n).u
      let (s, behind, fired) := s.judgeArm n (pfiSlot d) (s.pfiEdge d)
      s.complete d .done (s.pfiEdge d) [wordN (b2n behind + 2 * b2n fired), wordI u])

def execPfiCmpArm (d : Desc) (s : State) : Host.Outcome State Fault Refusal := s.cmd d (whenOn 6 (atEdge d (pfiCmpArm d)))

/-- PFI_CMP_DISARM (R52). -/
def pfiCmpDisarm (d : Desc) (s : Dev) : Dev :=
  s.pfiRun d (s.pfiForm d true (decide (slotCount (pfiCh d) ≤ pfiSlot d))) (fun s =>
    let n := pfiCh d
    let x := s.slot n (pfiSlot d)
    let r := if x.armed then 0 else if x.fired then 2 else 1
    (s.setSlot n (pfiSlot d) .reset).complete d .done (s.pfiEdge d) [wordN r])

def execPfiCmpDisarm (d : Desc) (s : State) : Host.Outcome State Fault Refusal :=
  s.cmd d (whenOn 6 (atEdge d (pfiCmpDisarm d)))

/-- PFI_CLEAR: the W1C bits of the mask clear, all other bits of it are ignored (R59). -/
def pfiClear (d : Desc) (s : Dev) : Dev :=
  s.pfiRun d (s.pfiForm d false false) (fun s =>
    let (r, m) := if pfiCh d < 8 then (Reg.pfiQstat (pfiCh d), 0x143)
      else (Reg.pfiSstat (pfiCh d - 0x10), 0x9)
    (s.setReg r (writeBits (s.reg r) (d.w 3) 0 m)).complete d .done (s.pfiEdge d) [])

def execPfiClear (d : Desc) (s : State) : Host.Outcome State Fault Refusal := s.cmd d (whenOn 6 (atEdge d (pfiClear d)))

/-- PFI_LATCH (R43, R59): object 0, one record for each enabled channel of LATCHMASK. -/
def pfiLatch (d : Desc) (s : Dev) : Dev :=
  let mask := bitsOf (d.w 3) 9 0
  if s.maskAbsent mask then s.fail d .notInVariant
  else if d.object ≠ 0 ∨ bitsOf (d.w 3) 31 10 ≠ 0 then s.fail d .badDescriptor
  else (s.latch mask (s.pfiEdge d)).complete d .done (s.pfiEdge d) []

def execPfiLatch (d : Desc) (s : State) : Host.Outcome State Fault Refusal := s.cmd d (whenOn 6 (atEdge d (pfiLatch d)))

end Sys2Proof.Machine
end

