-- ==== Sys2Proof/Machine/Cpf.lean ====
section
/-! DEFINITION. Car position fusion, the landing table, re-validation, and the learning and
correction runs (04). Positions in µm, instants DT in ns. -/
namespace Sys2Proof.Machine

/-! ## Readings -/

def CpfState.code : CpfState → Nat
  | .valid => 0 | .degraded => 1 | .suspect => 2 | .lost => 3 | .unreferenced => 4
  | .learning => 5 | .correcting => 6

def Track.code : Track → Nat
  | .t0 => 0 | .t1 => 1 | .ts => 2

/-- The REF field of CPF_STAT. -/
def refCode : Option Track → Nat
  | none => 0 | some .t0 => 1 | some .t1 => 2 | some .ts => 3

/-- EN and TAPE, which R86 locks while CPF is enabled. -/
def Dev.cpfEnabled (s : Dev) : Bool := s.bit Reg.cpfCfg 0
def Dev.tape (s : Dev) : Bool := s.bit Reg.cpfCfg 1

/-- The car is at rest: the MSQ holds no run (05). -/
def Dev.atRest (s : Dev) : Bool := s.hoist.phase == .rest

/-- The MSQ's commanded acceleration in µm/s² (05 R91). -/
def Dev.aCmd (s : Dev) : Int := idiv s.hoist.kin.a 1000000000

/-- Axis A's contribution to the deck offset: its position, in ROLE 1 (06 R144). -/
def Dev.axisPos (s : Dev) (n : Nat) : Int :=
  idiv ((s.pos (n + 2) - (kget Axis.reset s.door.axes n).pRef) * s.fld (Reg.msqDk n) 31 0) (2 ^ 24)

def Dev.deckOfs (s : Dev) : Int :=
  s.csfld Reg.cpfDeckofs 31 0 +
    (if s.hasAxis 4 && s.fld (Reg.msqDcfg 4) 5 4 == 1 then s.axisPos 4 else 0)

def Cpf.track (c : Cpf) : Track → TrackState
  | .t0 => c.t0 | .t1 => c.t1 | .ts => c.ts

def Cpf.setTrack (c : Cpf) (t : Track) (x : TrackState) : Cpf :=
  match t with
  | .t0 => { c with t0 := x } | .t1 => { c with t1 := x } | .ts => { c with ts := x }

def TrackSample.get (p : TrackSample) : Track → Int
  | .t0 => p.v0 | .t1 => p.v1 | .ts => p.vs

def TrackSample.shift (p : TrackSample) (t : Track) (d : Int) : TrackSample :=
  match t with
  | .t0 => { p with v0 := p.v0 + d } | .t1 => { p with v1 := p.v1 + d } | .ts => { p with vs := p.vs + d }

def Dev.setCpf (s : Dev) (f : Cpf → Cpf) : Dev := { s with cpf := f s.cpf }

/-- The severity of CPF_STATE by the state entered; that of LEARNING or CORRECTING is not stated and is a free value
(Table 4-11, log entry 8). -/
def CpfState.severity (free : Nat) : CpfState → Nat
  | .valid => 2 | .degraded => 4 | .suspect | .unreferenced => 6 | .lost => 8
  | .learning | .correcting => free % 16

/-- A change of state raises CPF_STATE (R76), with the code of the event that caused it, or 0 where none did (DESIGN
CHOICE, log entry 9); in LOST and UNREFERENCED the uncertainty is all ones (R68). -/
def Dev.cpfSet (s : Dev) (st : CpfState) (cause : Nat) : Dev :=
  if s.cpf.state = st then s
  else
    let old := s.cpf.state
    let sev := st.severity s.free
    let s := if st = .learning ∨ st = .correcting then s.drawn else s
    let s := s.setCpf (fun c => { c with state := st, u := if st = .lost ∨ st = .unreferenced then 0xFFFFFFFF else c.u })
    s.event 3 sev 0x0101 0 s.cpf.tk [old.code, st.code, cause, wrapS 32 s.cpf.x]

/-! ## Tracks (R64, R65, R68) -/

def Dev.sig (s : Dev) : Int :=
  s.csfld Reg.cpfSlip 15 0 + idiv (s.csfld Reg.cpfSlip 31 16 * s.aCmd.natAbs) 1000000

/-- Rope stretch of the period (R64). -/
def Dev.stretch (s : Dev) : Int :=
  let lmm := max 0 (idiv (s.csfld Reg.cpfRope 31 0 - s.cpf.x) 1000)
  let fmn := ((s.cfld Reg.cpfMass 15 0 + s.cpf.load : Nat) : Int) * (9807 + idiv s.aCmd 1000)
  idiv (s.cfld Reg.cpfStretch 31 0 * lmm * fmn) (2 ^ 40)

def Dev.mRaw (s : Dev) (nAnc : Int) : Int :=
  idiv (((s.chan 0).tkP - nAnc) * s.cfld Reg.cpfK0 31 0) (2 ^ 24)

/-- The governor track at the latched count. -/
def Dev.t1At (s : Dev) (anchor nAnc : Int) : Int :=
  anchor + idiv (((s.chan 1).tkP - nAnc) * s.cfld Reg.cpfK1 31 0) (2 ^ 24)

/-- The good read CPF uses: with PER = 1, one whose sample time is no later than t_k (R62). -/
def Dev.tapeRead (s : Dev) : Option SsiRead :=
  let x := s.ssi 0
  if s.fld (Reg.pfiSper 0) 5 0 = 1 then x.recent.find? (fun g => decide (g.at_ ≤ s.cpf.tk)) else x.good

/-- The tape track brought forward to t_k (R64). -/
def Dev.tsNow (s : Dev) : Int :=
  match s.tapeRead with
  | some g =>
    s.csfld Reg.cpfTapeofs 31 0 - s.cpf.tsBase + idiv (g.pos * s.cfld Reg.cpfKs 31 0) (2 ^ 24)
      + idiv (s.cpf.v * ((s.cpf.tk : Int) - g.at_)) 1000000000
  | none => s.cpf.ts.value

/-- Compute the three tracks of the period and note its sample (R64); without tape S0 is not read (R62). -/
def Dev.computeTracks (s : Dev) : Dev :=
  let c := s.cpf
  let m := s.mRaw c.t0.nAnc
  let slp := c.slp + idiv ((m - c.mRawPrev) * s.sig) 1000000
  let str := s.stretch
  let v0 := c.t0.anchor + m - slp - (str - c.strAnc)
  let v1 := s.t1At c.t1.anchor c.t1.nAnc
  let vs := if s.tape then s.tsNow else c.ts.value
  let p : TrackSample :=
    { tk := c.tk, v0 := v0, v1 := v1, vs := vs, n0 := (s.chan 0).tkP, n1 := (s.chan 1).tkP, str := str }
  s.setCpf (fun c => { c with
    mRawPrev := m, slp := slp, t0 := { c.t0 with value := v0 }, t1 := { c.t1 with value := v1 },
    ts := { c.ts with value := vs }, history := (p :: c.history).take 4 })

/-- The bracketing samples of an instant, later first; with none, the newest twice. -/
def bracket : List TrackSample → Nat → Option (TrackSample × TrackSample)
  | p :: q :: t, te => if q.tk < te then some (p, q) else bracket (q :: t) te
  | [p], _ => some (p, p)
  | [], _ => none

/-- A track at an instant, by linear interpolation on the time fraction (R65). -/
def Cpf.at_ (c : Cpf) (t : Track) (te : Nat) : Int :=
  match bracket c.history te with
  | some (p, q) =>
    if q.tk < p.tk then q.get t + idiv ((p.get t - q.get t) * ((te : Int) - q.tk)) ((p.tk - q.tk : Nat) : Int)
    else p.get t
  | none => (c.track t).value

/-- Re-anchor T0 or T1 to `x` at `te` with uncertainty `u` (R65): the anchor moves to the later
bracketing period, and the samples kept move with it. -/
def Dev.reanchor (s : Dev) (t : Track) (x : Int) (te u : Nat) : Dev :=
  let delta := x - s.cpf.at_ t te
  match bracket s.cpf.history te with
  | none => s
  | some (p, _) =>
    let s := s.setCpf (fun c => { c with history := c.history.map (fun q => q.shift t delta) })
    match t with
    | .t0 =>
      let m := s.mRaw p.n0
      let slp := idiv (m * s.sig) 1000000
      let str := (s.cpf.history.head?.map (·.str)).getD p.str
      let v := p.v0 + delta + m - slp - (str - p.str)
      s.setCpf (fun c => { c with
        mRawPrev := m, slp := slp, strAnc := p.str,
        t0 := { c.t0 with anchor := p.v0 + delta, nAnc := p.n0, value := v, uAnc := u, travel := 0 } })
    | .t1 =>
      s.setCpf (fun c => { c with
        t1 := { c.t1 with anchor := p.v1 + delta, nAnc := p.n1, uAnc := u, travel := 0,
                          value := s.t1At (p.v1 + delta) p.n1 } })
    | .ts => s

/-- Uncertainty of a track (R68). -/
def Dev.uncOf (s : Dev) (t : Track) : Nat :=
  match t with
  | .ts => s.cfld Reg.cpfUnc 31 16
  | .t0 => s.cpf.t0.uAnc + s.cfld Reg.cpfGrowth 15 0 * s.cpf.t0.travel / 1000000
  | .t1 => s.cpf.t1.uAnc + s.cfld Reg.cpfGrowth 31 16 * s.cpf.t1.travel / 1000000

/-! ## Health and votes (R70, R71) -/

/-- Is a track fitted. -/
def Dev.fitted (s : Dev) : Track → Bool
  | .ts => s.tape
  | _ => true

/-- A cause of R70, other than exclusion, holds for a track. -/
def Dev.trackFault (s : Dev) : Track → Bool
  | .t0 => !s.qEnabled 0 || s.bit (Reg.pfiQstat 0) 0 || s.limLo 0 || s.limHi 0 || s.cpf.phase0
  | .t1 => !s.qEnabled 1 || s.bit (Reg.pfiQstat 1) 0 || s.limLo 1 || s.limHi 1 || s.cpf.phase1
  | .ts => (s.ssi 0).fail ||
    match s.tapeRead with
    | some g => decide (g.at_ + 500000 < s.cpf.tk)
    | none => true

def Dev.sound (s : Dev) (t : Track) : Bool := s.fitted t && !s.trackFault t && !(s.cpf.track t).excluded

def dist (a b : Int) : Nat := (a - b).natAbs
def Cpf.d01 (c : Cpf) : Nat := dist c.t0.value c.t1.value
def Cpf.d0s (c : Cpf) : Nat := dist c.t0.value c.ts.value
def Cpf.d1s (c : Cpf) : Nat := dist c.t1.value c.ts.value

/-- A distance to TS that an event reports: without tape there is no such track, and the value is free (log entry 9). -/
def Dev.tapeDist (s : Dev) (d : Nat) : Nat × Dev := if s.tape then (d, s) else (s.free % 2 ^ 32, s.drawn)

/-- Exclude a track (R71): event, counter and flag. -/
def Dev.exclude (s : Dev) (t : Track) : Dev :=
  let (d0, s) := s.tapeDist s.cpf.d0s
  let (d1, s) := s.tapeDist s.cpf.d1s
  let s := s.setCpf (fun c => c.setTrack t { c.track t with excluded := true, healthy := false })
  let s := s.setCpf (fun c => { c with tsWithin := if t = .ts then 0 else c.tsWithin })
  (s.event 3 6 0x0102 0 s.cpf.tk [t.code, s.cpf.d01, d0, d1]).chrInc 3 t.code

/-- The health of a track in this period; one that turns unhealthy by a fault is excluded (R70). -/
def Dev.judgeTrack (s : Dev) (t : Track) : Dev :=
  let was := (s.cpf.track t).healthy
  if s.fitted t && was && s.trackFault t then s.exclude t
  else s.setCpf (fun c => c.setTrack t { c.track t with healthy := s.sound t })

/-- Outcome of the pairwise comparison (Table 4-2); `few`: one healthy track or none. -/
inductive Vote where
  | few | agree | aboveWarn | aboveLimit | lone (t : Track)
deriving DecidableEq, Repr

def Dev.vote (s : Dev) : Vote :=
  let c := s.cpf
  let w := s.cfld Reg.cpfDiswarn 31 0
  let l := s.cfld Reg.cpfDislim 31 0
  let two (d : Nat) : Vote := if d ≤ w then .agree else if d ≤ l then .aboveWarn else .aboveLimit
  match c.t0.healthy, c.t1.healthy, c.ts.healthy with
  | true, true, true =>
    if c.d01 ≤ w ∧ c.d0s ≤ w ∧ c.d1s ≤ w then .agree
    else if l < c.d01 ∧ l < c.d0s ∧ c.d1s ≤ w then .lone .t0
    else if l < c.d01 ∧ l < c.d1s ∧ c.d0s ≤ w then .lone .t1
    else if l < c.d0s ∧ l < c.d1s ∧ c.d01 ≤ w then .lone .ts
    else if l < c.d01 ∨ l < c.d0s ∨ l < c.d1s then .aboveLimit
    else .aboveWarn
  | true, true, false => two c.d01
  | true, false, true => two c.d0s
  | false, true, true => two c.d1s
  | _, _, _ => .few

def Cpf.healthyCount (c : Cpf) : Nat := b2n c.t0.healthy + b2n c.t1.healthy + b2n c.ts.healthy

/-- The first healthy track for propagation (T0, T1, TS) and for reference (TS, T1, T0) (R66). -/
def Cpf.pickProp (c : Cpf) : Option Track :=
  if c.t0.healthy then some .t0 else if c.t1.healthy then some .t1
  else if c.ts.healthy then some .ts else none
def Cpf.pickRef (c : Cpf) : Option Track :=
  if c.ts.healthy then some .ts else if c.t1.healthy then some .t1
  else if c.t0.healthy then some .t0 else none

/-- What one period has seen, for the state rules of Table 4-5. -/
structure PeriodFlags where
  /-- An edge has changed the state: the first row that applies wins. -/
  moved : Bool
  missed : Bool
  unexpected : Bool
  mismatchTs : Bool
  mismatchOther : Bool
deriving DecidableEq, Repr

def PeriodFlags.none : PeriodFlags := ⟨false, false, false, false, false⟩

/-! ## Vane edges (R72-R74) -/

/-- The edges of a table: landing, upper edge?, position. -/
def tableEdges : Nat → List Landing → List (Nat × Bool × Int)
  | _, [] => []
  | i, e :: t => (i, false, e.vlo) :: (i, true, e.vhi) :: tableEdges (i + 1) t

/-- The edge of a kind nearest to a position, the lower landing on a tie. -/
def nearestEdge (l : List (Nat × Bool × Int)) (upper : Bool) (x ofs : Int) : Option (Nat × Bool × Int) :=
  l.foldl (fun best e =>
    if e.2.1 = upper then
      match best with
      | none => some e
      | some b => if dist (e.2.2 - ofs) x < dist (b.2.2 - ofs) x then some e else best
    else best) none

/-- The table current at an instant (R78). -/
def Cpf.tableAt (c : Cpf) (te : Nat) : Option LandingTable :=
  match c.replaced with
  | some (at_, old) => if te < at_ then old else c.table
  | none => c.table

/-- The edges of the table current at an instant. -/
def Dev.edgesAt (s : Dev) (te : Nat) : List (Nat × Bool × Int) :=
  match s.cpf.tableAt te with
  | some t => tableEdges 0 t.entries
  | none => []

/-- The landing whose sill is nearest to a position, the lower on a tie; 0xFFFF with no table. -/
def nearestLanding (l : List Landing) (x : Int) : Nat :=
  ((l.zipIdx).foldl (fun (b : Option (Nat × Int)) e =>
    match b with
    | none => some (e.2, e.1.sill)
    | some (_, y) => if dist e.1.sill x < dist y x then some (e.2, e.1.sill) else b) none
    |>.map (·.1)).getD 0xFFFF

def Dev.landingNear (s : Dev) (x : Int) : Nat :=
  match s.cpf.table with
  | some t => nearestLanding t.entries x
  | none => 0xFFFF

/-- The car moves up: by the CPE speed, at zero speed by DIR of Q0 (log entry 9). -/
def Dev.movingUp (s : Dev) : Bool :=
  if s.cpf.v = 0 then !(s.chan 0).dirNeg else decide (0 < s.cpf.v)

/-- Readmit T0 or T1 re-anchored at an accepted edge, when no other cause holds (R74). -/
def Dev.readmitAt (s : Dev) (t : Track) (te : Nat) : Dev :=
  if (s.cpf.track t).excluded && !s.trackFault t then
    let s := s.setCpf (fun c => c.setTrack t { c.track t with excluded := false, healthy := true })
    s.event 3 2 0x0103 0 te [t.code, s.uncOf t]
  else s

/-- T0 and T1 re-anchored at an accepted vane edge, and readmitted (R72, R74). -/
def Dev.anchorAt (s : Dev) (x : Int) (te u : Nat) : Dev :=
  (((s.reanchor .t0 x te u).reanchor .t1 x te u).readmitAt .t0 te).readmitAt .t1 te

/-- An accepted vane edge: both encoder tracks re-anchored to `x`; a SUSPECT car is DEGRADED (R76). -/
def Dev.acceptEdge (s : Dev) (x : Int) (te u : Nat) : Dev :=
  let s := s.anchorAt x te u
  let s := s.setCpf (fun c => { c with missedRow := 0, flawed := false })
  if s.cpf.state = .suspect then s.cpfSet .degraded 0 else s

/-- VANE_MISMATCH (R72, R73); a SUSPECT car is LOST (R76). -/
def Dev.mismatch (s : Dev) (l : Nat) (upper dz1 : Bool) (rv : Int) (te : Nat) (ref : Int) : Dev :=
  let s := (s.event 3 6 0x0105 0 te [l, b2n upper + 2 * b2n dz1, wrapS 32 rv, wrapS 32 ref]).chrInc 3 (3 + 3 * l)
  let s := s.setCpf (fun c => { c with flawed := true })
  if s.cpf.state = .suspect then s.cpfSet .lost 0x0105 else s

/-- An edge with no table edge within VANE_SEARCH (R72, R73); a SUSPECT car is LOST (R76). The event's input is 0 for DZ0
and 1 for DZ1 (DESIGN CHOICE, log entry 9). -/
def Dev.unexpected (s : Dev) (ref : Int) (dz1 : Bool) (te : Nat) : Dev :=
  let l := s.landingNear ref
  let s := s.event 3 6 0x0107 0 te [wrapS 32 ref, b2n dz1]
  let s := if l < 256 then s.chrInc 3 (3 + 3 * l + 2) else s
  if s.cpf.state = .suspect then s.cpfSet .lost 0x0107 else s

/-- What Table 4-3 says of a vane edge: none, no table edge within VANE_SEARCH; else the table edge, rv, and where
T0 and T1 are re-anchored and with what uncertainty, if it is accepted. -/
def Dev.judgeEdge (s : Dev) (r : Track) (e : ZoneEdge) : Option (Nat × Bool × Int × Option (Int × Nat)) :=
  let ref := s.cpf.at_ r e.te
  let ofs := if e.input = .dz1 then s.deckOfs else 0
  let tol := s.cfld Reg.cpfVane 15 0
  match nearestEdge (s.edgesAt e.te) (e.level != s.movingUp) ref ofs with
  | none => none
  | some (l, upper, p) =>
    let x := p - ofs
    let rv := x - ref
    if s.cfld Reg.cpfVane 31 16 * 1000 < rv.natAbs then none
    else if rv.natAbs ≤ tol ∧ r = .ts then some (l, upper, rv, some (ref, s.cfld Reg.cpfUnc 31 16))
    else if rv.natAbs ≤ tol ∨ (r ≠ .ts ∧ dist (s.cpf.at_ (if r = .t0 then .t1 else .t0) e.te) x ≤ tol) then
      some (l, upper, rv, some (x, s.cfld Reg.cpfUnc 15 0))
    else some (l, upper, rv, none)

/-- One vane edge (R72, Table 4-3). With no healthy track there is no reference, and nothing to match it against. -/
def Dev.vaneEdge (s : Dev) (f : PeriodFlags) (e : ZoneEdge) : Dev × PeriodFlags :=
  match s.cpf.pickRef with
  | none => (s, f)
  | some r =>
    let st := s.cpf.state
    let dz1 := e.input == .dz1
    let (s, f) := match s.judgeEdge r e with
      | none => (s.unexpected (s.cpf.at_ r e.te) dz1 e.te, { f with unexpected := true })
      | some (l, upper, rv, a) =>
        let ref := s.cpf.at_ r e.te
        let s := if dz1 then s else s.setCpf (fun c => { c with seenEdges := (l, upper) :: c.seenEdges })
        match a with
        | some (x, u) => (s.acceptEdge x e.te u, f)
        | none => (s.mismatch l upper dz1 rv e.te ref,
            if r = Track.ts then { f with mismatchTs := true } else { f with mismatchOther := true })
    (s, { f with moved := f.moved || s.cpf.state != st })

/-- One table edge as the reference moves on from `a` to `b` (R73): missed when passed by more than VANE_SEARCH with
no edge of its kind processed. -/
def Dev.passEdge (s : Dev) (up : Bool) (a b : Int) (x : Dev × PeriodFlags) (e : Nat × Bool × Int) : Dev × PeriodFlags :=
  let vs : Int := s.cfld Reg.cpfVane 31 16 * 1000
  let (l, upper, p) := e
  let passed := if up then decide (a - p ≤ vs ∧ vs < b - p) else decide (p - a ≤ vs ∧ vs < p - b)
  let (s, f) := x
  if !passed then (s, f)
  else if s.cpf.seenEdges.contains (l, upper) then
    (s.setCpf (fun c => { c with seenEdges := c.seenEdges.filter (· ≠ (l, upper)) }), f)
  else
    let s := (s.event 3 6 0x0106 0 s.cpf.tk [l, b2n upper, wrapS 32 b]).chrInc 3 (3 + 3 * l + 1)
    (s.setCpf (fun c => { c with missedRow := c.missedRow + 1, flawed := true }), { f with missed := true })

/-- Follow the reference in the direction of travel and report the edges it has left behind (R73). A step of the
reference against that direction, at a re-anchoring or a change of reference track, is no travel. -/
def Dev.missedEdges (s : Dev) (f : PeriodFlags) : Dev × PeriodFlags :=
  match s.cpf.pickRef with
  | none => (s, f)
  | some r =>
    let up := s.movingUp
    let now := (s.cpf.track r).value
    let from_ := match s.cpf.followed with
      | some (d, a) => if d = up then a else now
      | none => now
    let to_ := if up then max from_ now else min from_ now
    let (s, f) := (s.edgesAt s.cpf.tk).foldl (s.passEdge up from_ to_) (s, f)
    (s.setCpf (fun c => { c with followed := some (up, to_) }), f)

/-! ## The estimate (R66-R68) -/

/-- x_k follows the propagation track and is drawn toward the reference track (R66). The travel of the propagation
track leaves out a re-anchoring of this period; with no healthy track x stays (log entry 9). -/
def Dev.follow (s : Dev) : Dev :=
  let c := s.cpf
  match c.pickProp, c.pickRef with
  | some p, some r =>
    let prev := match c.history with
      | _ :: q :: _ => q.get p
      | _ => (c.track p).value
    let xm := c.x + ((c.track p).value - prev)
    let res := (c.track r).value - xm
    let mag : Int := (min (s.cfld Reg.cpfGain 31 16) (max 1 (res.natAbs * s.cfld Reg.cpfGain 15 0 / 2 ^ 16)) : Nat)
    let x := xm + (if res = 0 then 0 else if 0 < res then mag else -mag)
    let d := (x - c.x).natAbs
    s.setCpf (fun c => { c with
      x := x, reference := some r, propagation := some p,
      t0 := { c.t0 with travel := c.t0.travel + d }, t1 := { c.t1 with travel := c.t1.travel + d },
      ts := { c.ts with travel := c.ts.travel + d } })
  | _, _ => s.setCpf (fun c => { c with reference := none, propagation := none })

/-- The speed by Q0, or by Q1 when T0 is not healthy, and the acceleration, which is 0 until four earlier speeds exist
(R67; DESIGN CHOICE, log entry 9). -/
def Dev.cpeSpeed (s : Dev) : Dev :=
  let c := s.cpf
  let k0 := c.t0.healthy
  let v0 := if k0 then idiv ((s.chan 0).tkSpeed * s.cfld Reg.cpfK0 31 0) (2 ^ 32)
    else idiv ((s.chan 1).tkSpeed * s.cfld Reg.cpfK1 31 0) (2 ^ 32)
  let v := if k0 then v0 - idiv (v0 * s.sig) 1000000 else v0
  s.setCpf (fun c => { c with v := v, a := (v - c.speeds.getD 3 v) * 1000, speeds := (v :: c.speeds).take 4 })

def Dev.estimate (s : Dev) : Dev := s.follow.cpeSpeed

/-- The CPE uncertainty, saturated to 32 bits; all ones in LOST and UNREFERENCED (R68). -/
def Dev.publishUnc (s : Dev) : Dev :=
  let c := s.cpf
  let u := match c.state, c.reference with
    | .lost, _ => 0xFFFFFFFF
    | .unreferenced, _ => 0xFFFFFFFF
    | _, some r => min 0xFFFFFFFF (s.uncOf r + dist (c.track r).value c.x)
    | _, none => 0xFFFFFFFF
  s.setCpf (fun c => { c with u := u })

/-! ## States (R76) -/

/-- The rows of Table 4-5 judged once a period, in order; one change a period, so a period in which an edge has changed
the state changes it no further. -/
def Dev.periodState (s : Dev) (vote : Vote) (f : PeriodFlags) : Dev :=
  let c := s.cpf
  let onlyT0 := c.t0.healthy && !c.t1.healthy && !c.ts.healthy
  let anyExcl := c.t0.excluded || c.t1.excluded || c.ts.excluded
  let aboveWarn := vote == .aboveWarn
  match c.state with
  | .learning | .correcting => s
  | st =>
    if f.moved then s
    else if c.healthyCount = 0 then s.cpfSet .lost 0
    else match st with
      | .valid | .degraded =>
        if vote == .aboveLimit then s.cpfSet .suspect 0
        else if onlyT0 then s.cpfSet .suspect 0x0102
        else if f.missed && decide (2 ≤ c.missedRow) then s.cpfSet .suspect 0x0106
        else if f.unexpected then s.cpfSet .suspect 0x0107
        else if f.mismatchOther then s.cpfSet .suspect 0x0105
        else if st = .valid then
          if aboveWarn then s.cpfSet .degraded 0x0104
          else if anyExcl then s.cpfSet .degraded 0x0102
          else if f.missed then s.cpfSet .degraded 0x0106
          else if f.mismatchTs then s.cpfSet .degraded 0x0105
          else s
        else if vote == .agree && !anyExcl && !c.flawed then s.cpfSet .valid 0
        else s
      | _ => s

/-- The bytes of the stored position record before its CRC: the fields in the order R83 lists them, little-endian
(log entry 9). -/
def StoredPos.bytes (p : StoredPos) : List Byte :=
  leBytes 4 (wrapU 32 p.x) ++ leBytes 4 p.u ++ leBytes 2 p.landing ++ leBytes 4 p.gen ++ leBytes 8 p.dt
def StoredPos.ok (p : StoredPos) : Bool := p.crc == (crc32 p.bytes).toNat

/-- CPF writes its stored position record (R83): only while it runs and is enabled (01 R9). -/
def Dev.storePosition (s : Dev) : Dev :=
  if s.powered 6 && s.cpfRuns && s.cpfEnabled then
    let p : StoredPos := { serial := (s.cpf.stored.map (·.serial)).getD 0 + 1, x := wrapS 32 s.cpf.x, u := s.cpf.u,
                           landing := s.landingNear s.cpf.x, gen := (s.cpf.table.map (·.gen)).getD 0, dt := s.dt, crc := 0 }
    { s with cpf := { s.cpf with stored := some { p with crc := (crc32 p.bytes).toNat } },
             pmu := { s.pmu with posStored := s.atRest } }
  else s

/-- The stored record that is valid. -/
def Cpf.record (c : Cpf) : Option StoredPos := c.stored.filter StoredPos.ok

/-- The valid copy with the higher GEN is current (18 R402). -/
def newer {α : Type} (gen : α → Nat) : Option α → Option α → Option α
  | some a, some b => if gen a < gen b then some b else some a
  | some a, none => some a
  | none, b => b

/-- The landing table goes into the copy of MRAM that is not current (R77, 18 R403). -/
def Dev.saveTable (s : Dev) : Dev :=
  match s.cpf.table with
  | none => s
  | some t =>
    let c := s.chry
    if newer (·.gen) c.tabA c.tabB = c.tabA then { s with chry := { c with tabB := some t } }
    else { s with chry := { c with tabA := some t } }

/-- The stored position record goes into the copy of MRAM that is not current, when it is a new one (18 R403). -/
def Dev.savePosition (s : Dev) : Dev :=
  match s.cpf.stored with
  | none => s
  | some p =>
    let c := s.chry
    let cur := newer (·.serial) c.posA c.posB
    if cur = some p then s
    else if cur = c.posA then { s with chry := { c with posB := some p } }
    else { s with chry := { c with posA := some p } }

/-- A table becomes current as a new generation: it is written to MRAM, and edges before this instant still meet the
table before it (R77, R78). -/
def Dev.commitTable (s : Dev) (t : LandingTable) (g at_ : Nat) : Dev :=
  (s.setCpf (fun c => { c with table := some { t with gen := g }, replaced := some (at_, c.table), staged := none,
                               seenEdges := [], followed := none })).saveTable

/-! ## Runs driven by CPF (R81, R84) -/

def Dev.learnSpeed (s : Dev) : Int := s.cfld Reg.cpfLearn 15 0 * 1000
def Dev.corrSpeed (s : Dev) : Int := s.cfld Reg.cpfCorr 15 0 * 1000

/-- T0 or T1 is unhealthy, but for an exclusion that stood when the run started (Table 4-8, log entry 9). -/
def Dev.runUnhealthy (s : Dev) (r : CpfRun) : Bool :=
  s.trackFault .t0 || s.trackFault .t1 || (s.cpf.t0.excluded && !r.excl0) || (s.cpf.t1.excluded && !r.excl1)

/-- An abort code of Table 4-8 that holds now. -/
def Dev.runAbort (s : Dev) (r : CpfRun) : Option Nat :=
  if !s.motionGranted then (if s.finalLimitOut then some 2 else some 3)
  else if s.runUnhealthy r then some 4
  else none

def Dev.setRun (s : Dev) (r : CpfRun) : Dev := s.setCpf (fun c => { c with run := some r })

/-- Enter a learning step and report it. -/
def Dev.learnStep (s : Dev) (r : CpfRun) (step : Nat) (drive : Int) : Dev :=
  let s := s.setRun { r with step := step, passStart := s.cpf.tk }
  (s.setCpf (fun c => { c with drive := drive })).event 3 1 0x0109 0 s.cpf.tk [step, r.vanes]

def Dev.setDrive (s : Dev) (v : Int) : Dev := s.setCpf (fun c => { c with drive := v })

/-- A zone edge during the learning run: recorded in every track; the switch that ends the pass stops the car (R81). -/
def Dev.learnEdge (s : Dev) (r : CpfRun) (e : ZoneEdge) : Dev :=
  let c := s.cpf
  let le : LearnEdge := ⟨r.step, e, c.at_ .t0 e.te, c.at_ .t1 e.te, c.at_ .ts e.te⟩
  let s := s.setRun { r with edges := r.edges ++ [le],
                             vanes := if e.input = .dz0 ∧ e.level then r.vanes + 1 else r.vanes }
  let stop := (e.input == .ntsLo && (r.step == 1 || r.step == 3) || e.input == .ntsHi && r.step == 2) && e.level
  if stop then s.setDrive 0 else s

/-- The vane phase at its first edge (R84): rv against the table edge nearest to TS with tape, or to the stored CPE;
beyond REVAL_LIMIT the run goes on to the terminal. -/
def Dev.vanePhase (s : Dev) (r : CpfRun) (e : ZoneEdge) : Dev :=
  let c := s.cpf
  let near := if s.tape then c.at_ .ts e.te else (c.stored.map (·.x)).getD c.x
  match nearestEdge (s.edgesAt e.te) (e.level != s.movingUp) near 0 with
  | none => s.setRun { r with step := 2 }
  | some (l, _, p) =>
    let rv := p - (match c.pickRef with | some t => c.at_ t e.te | none => c.x)
    if rv.natAbs ≤ s.cfld Reg.cpfReval 31 0 then
      ((s.anchorAt p e.te (s.cfld Reg.cpfUnc 15 0)).setRun { r with step := 4, phase := 1, rv := rv, landing := l,
                                                                    accepted := true }).setDrive 0
    else s.setRun { r with step := 2 }

/-- The terminal switch in the direction of travel: the tracks are anchored to the header's position of it, and the
car reverses (R84). The anchor uncertainty is UNC_VANE (DESIGN CHOICE, log entry 9). -/
def Dev.terminalEdge (s : Dev) (r : CpfRun) (e : ZoneEdge) (x : LandingTable → Int) (back : Int) : Dev :=
  let u := s.cfld Reg.cpfUnc 15 0
  let x := (s.cpf.table.map x).getD 0
  (((s.reanchor .t0 x e.te u).reanchor .t1 x e.te u).setRun { r with step := 3, phase := 2 }).setDrive back

/-- A vane edge after the terminal is handled by Table 4-3; the landing's edges must be accepted (R84). -/
def Dev.landingEdge (s : Dev) (r : CpfRun) (f : PeriodFlags) (e : ZoneEdge) : Dev × PeriodFlags :=
  let a := s.cpf.pickRef.bind (fun t => s.judgeEdge t e)
  let (s, f) := s.vaneEdge f e
  match a with
  | some (l, _, rv, some _) =>
    let r := { r with accepted := true }
    if r.step = 3 then ((s.setRun { r with step := 4, rv := rv, landing := l }).setDrive 0, f) else (s.setRun r, f)
  | _ => (s.setRun { r with accepted := false }, f)

/-- A zone edge during a correction run (R84). The vane phase takes edges of DZ0 only (DESIGN CHOICE, log entry 9). -/
def Dev.correctEdge (s : Dev) (r : CpfRun) (f : PeriodFlags) (e : ZoneEdge) : Dev × PeriodFlags :=
  let up := s.cbit Reg.cpfCfg 3
  match e.input with
  | .dz0 =>
    if r.step = 1 then (s.vanePhase r e, f)
    else if r.step = 3 ∨ (r.step = 4 ∧ r.phase = 2) then s.landingEdge r f e
    else (s, f)
  | .ntsLo => if r.step ≤ 2 ∧ e.level ∧ !up then (s.terminalEdge r e (·.ntsLo) s.corrSpeed, f) else (s, f)
  | .ntsHi => if r.step ≤ 2 ∧ e.level ∧ up then (s.terminalEdge r e (·.ntsHi) (-s.corrSpeed), f) else (s, f)
  | .dz1 => (s, f)

/-! ### Chatter (R79) -/

/-- Clusters of the edges of one input in one pass: a transition that follows the last one within
TSW_DEB belongs to the same physical edge. -/
def clusters (deb : Nat) : List LearnEdge → List (List LearnEdge)
  | [] => []
  | e :: t =>
    match clusters deb t with
    | (f :: g) :: r => if f.edge.te - e.edge.te < deb then (e :: f :: g) :: r else [e] :: (f :: g) :: r
    | _ => [[e]]

/-- A learned edge: where it is, the instants of E1 and of its last transition, the level E1 went to, its
transitions, and whether it chattered. -/
structure Learned where
  pos : LearnEdge
  first : Nat
  last : Nat
  sense : Bool
  count : Nat
  chatter : Bool
deriving DecidableEq, Repr

/-- The learned edge of a cluster: E1 is its first edge in the expected sense, and with more than 4 transitions within
50 ms of E1 the edge after which the level held is taken in its place. -/
def learnCluster (sense : Bool) (l : List LearnEdge) : Option Learned :=
  match l.dropWhile (fun e => e.edge.level != sense) with
  | [] => none
  | e :: t =>
    let all := e :: t
    let z := (all.getLast?).getD e
    let n := (all.filter (fun x => decide (x.edge.te ≤ e.edge.te + 50000000))).length
    some ⟨if 4 < n then z else e, e.edge.te, z.edge.te, sense, all.length, decide (4 < n)⟩

/-- The learned edges of an input's clusters: the expected sense alternates at a zone input, in and out, and is active
at a terminal switch. A cluster with no edge in the expected sense holds no learned edge. -/
def learnClusters (zone : Bool) : Bool → List (List LearnEdge) → List Learned
  | _, [] => []
  | sense, l :: t =>
    match learnCluster sense l with
    | some x => x :: learnClusters zone (if zone then !sense else sense) t
    | none => learnClusters zone sense t

def learnInput (deb step : Nat) (i : ZoneInput) (l : List LearnEdge) : List Learned :=
  learnClusters (i == .dz0 || i == .dz1) true (clusters deb (l.filter (fun e => e.step = step ∧ e.edge.input = i)))

/-- What the learning run measures in: TS coordinates with the tape, T1 otherwise (R82). -/
def Dev.learnPos (s : Dev) (e : LearnEdge) : Int := if s.tape then e.ps else e.p1

def Dev.chatterDeb (s : Dev) : Nat := s.cfld Reg.cpfTsw 7 0 * 1000000

/-- The chattering edges of the run not yet reported, with the FIO channel of each; those whose input has held its level
by `now`. -/
def Dev.newChatter (s : Dev) (r : CpfRun) (now : Nat) : List (Nat × Learned) :=
  [ZoneInput.dz0, .dz1, .ntsLo, .ntsHi].flatMap (fun i =>
    (([2, 3].flatMap (fun st => learnInput s.chatterDeb st i r.edges)).filter (fun l =>
      l.chatter && decide (l.last + s.chatterDeb ≤ now) && !r.chattered.contains l.first)).map
        (fun l => (s.zoneChannel i, l)))

/-- CHATTER for every chattering edge that has settled (R79). -/
def Dev.reportChatter (s : Dev) (r : CpfRun) (now : Nat) : Dev :=
  let new := s.newChatter r now
  let s := new.foldl (fun s (ch, l) =>
    (s.event 3 4 0x0108 0 l.first [ch, l.count, wrapS 32 (s.learnPos l.pos)]).setBit Reg.cpfStat 10 true) s
  s.setCpf (fun c => { c with run := c.run.map (fun r => { r with chattered := r.chattered ++ new.map (·.2.first) }) })

/-- The run's own progress in a period: an abort code ends it, chatter is reported, a car stopped at a pass's end
starts the next pass (R79, R81). -/
def Dev.runPeriod (s : Dev) : Dev :=
  match s.cpf.run with
  | none => s
  | some r =>
    match r.abort with
    | some _ => s
    | none =>
      match s.runAbort r with
      | some c => (s.setRun { r with abort := some c }).setDrive 0
      | none =>
        let s := if r.learning then s.reportChatter r s.cpf.tk else s
        match s.cpf.run with
        | none => s
        | some r =>
        if r.learning && s.atRest && s.cpf.drive == 0 then
          match r.step with
          | 1 => if r.edges.any (fun e => e.step == 1 && e.edge.input == .ntsLo && e.edge.level) then
              s.learnStep r 2 s.learnSpeed else s
          | 2 => s.learnStep r 3 (-s.learnSpeed)
          | 3 => s.learnStep r 4 0
          | _ => s
        else s

/-- A run that begins. -/
def Cpf.newRun (c : Cpf) (learning : Bool) (d : Option Desc) (step : Nat) : CpfRun :=
  { learning := learning, desc := d, step := step, expected := 0, stageOnly := false, forceTerminal := step == 2,
    passStart := c.tk, edges := [], vanes := 0, phase := 0, rv := 0, landing := 0, abort := none, accepted := false,
    excl0 := c.t0.excluded, excl1 := c.t1.excluded, chattered := [], saved := none }

/-- Without a valid record of the current table's GEN a correction run goes to the terminal (R83). -/
def Dev.mustTerminal (s : Dev) : Bool :=
  match s.cpf.record, s.cpf.table with
  | some p, some t => p.gen != t.gen
  | _, _ => true

/-- Start a correction run (R84). -/
def Dev.startCorrection (s : Dev) (d : Option Desc) (force : Bool) : Dev :=
  let s := s.cpfSet .correcting 0
  (s.setRun (s.cpf.newRun false d (if force || s.mustTerminal then 2 else 1))).setDrive
    (if s.cbit Reg.cpfCfg 3 then s.corrSpeed else -s.corrSpeed)

/-- A hoist goto or speed command is active or waits. -/
def Dev.hoistBusy (s : Dev) : Bool := s.hoist.active.isSome || s.hoist.next.isSome

/-- The decision of CPF_CORRECT at a period (R85). -/
def Dev.decideCorrect (s : Dev) (d : Desc) : Dev :=
  if !s.cpfEnabled ∨ s.cpf.table = none ∨ s.corrSpeed < 50000 ∨ 1000000 < s.corrSpeed then
    s.fail d .badDescriptor
  else if !s.atRest ∨ s.hoistBusy ∨ s.cpf.state = .learning ∨ s.cpf.state = .correcting then
    s.fail d .reconfigBusy
  else if !s.motionGranted ∨ !s.locksClosed then s.fail d .refusedInterlock
  else s.startCorrection (some d) (bitOf (d.w 3) 0)

/-! ## The period -/

/-- Commits and loads that wait for the period (R78, R87). -/
def Dev.periodWaits (s : Dev) : Dev :=
  let s := s.cpf.waitLoad.foldl (fun s d =>
    (s.setCpf (fun c => { c with load := bitsOf (d.w 3) 15 0 })).complete d .done s.cpf.tk []) s
  let s := s.setCpf (fun c => { c with waitLoad := [] })
  let s := s.cpf.waitCommit.foldl (fun s d =>
    match s.cpf.staged with
    | some t =>
      if s.atRest then
        let g := ((s.cpf.table.map (·.gen)).getD 0 + 1) % 2 ^ 32
        (s.commitTable t g s.cpf.tk).complete d .done s.cpf.tk [wordN g]
      else s.fail d .reconfigBusy
    | none => s.fail d .badDescriptor) s
  s.setCpf (fun c => { c with waitCommit := [] })

/-- The zone edges processed in this period (R63). -/
def Cpf.dueEdges (c : Cpf) : List ZoneEdge :=
  c.zoneEdges.filter (fun e => decide (e.te ≤ c.tk ∧ e.arrived ≤ c.tk + 60000))

/-- Process the zone edges due. -/
def Dev.periodEdges (s : Dev) : Dev × PeriodFlags :=
  let due := s.cpf.dueEdges
  let s := s.setCpf (fun c => { c with zoneEdges := c.zoneEdges.filter (fun e => !due.contains e) })
  due.foldl (fun (s, f) e =>
    match s.cpf.run with
    | some r => if r.learning then (s.learnEdge r e, f) else s.correctEdge r f e
    | none =>
      if e.input = .dz0 ∨ (e.input = .dz1 ∧ s.cbit Reg.cpfCfg 2) then s.vaneEdge f e else (s, f)) (s, .none)

/-- The health, the vote and its exclusion, with DISAGREE_WARN on entry (R70, R71); its pair mask has D01 in bit 0, D0S in
bit 1 and D1S in bit 2 (DESIGN CHOICE, log entry 9). -/
def Dev.periodVote (s : Dev) : Dev × Vote :=
  let s := ((s.judgeTrack .t0).judgeTrack .t1).judgeTrack .ts
  let three := s.cpf.healthyCount == 3
  let v := s.vote
  let s := match v with
    | .lone t => s.exclude t
    | _ => s
  let warn := v == .aboveWarn
  let w := s.cfld Reg.cpfDiswarn 31 0
  let c := s.cpf
  let s := if three && warn && !c.warned then
      s.event 3 4 0x0104 0 c.tk
        [b2n (decide (w < c.d01)) + 2 * b2n (decide (w < c.d0s)) + 4 * b2n (decide (w < c.d1s)),
         max c.d01 (max c.d0s c.d1s)]
    else s
  (s.setCpf (fun c => { c with warned := warn }), match v with | .lone _ => .agree | v => v)

/-- An excluded, otherwise healthy TS within WARN of the reference counts its periods (R74). -/
def Dev.countReadmission (s : Dev) : Dev :=
  let c := s.cpf
  match c.pickRef with
  | some r =>
    if c.ts.excluded && s.fitted .ts && !s.trackFault .ts &&
        decide (dist c.ts.value (c.track r).value ≤ s.cfld Reg.cpfDiswarn 31 0) then
      s.setCpf (fun c => { c with tsWithin := c.tsWithin + 1 })
    else s.setCpf (fun c => { c with tsWithin := 0 })
  | none => s.setCpf (fun c => { c with tsWithin := 0 })

/-- CPF closes at the end of a period in which EN = 0 was written: nothing more is published (R86). -/
def Dev.closeCpf (s : Dev) : Dev :=
  if s.cpf.closing then
    ((s.setBit Reg.cpfCfg 0 false).cpfSet .unreferenced 0).setCpf (fun c => { c with
      closing := false, revalDone := false, history := [], speeds := [], followed := none, run := none, drive := 0,
      tsBase := 0, zoneEdges := [] })
  else s

/-- Write the stored record when the car has come to rest in VALID or DEGRADED (R83). -/
def Dev.periodEnd (s : Dev) : Dev :=
  let s := if s.atRest && !s.cpf.wasAtRest && (s.cpf.state == .valid || s.cpf.state == .degraded) then
    s.storePosition else s
  let s := { s with pmu := { s.pmu with posStored := s.pmu.posStored && s.atRest } }
  s.setCpf (fun c => { c with wasAtRest := s.atRest, phase0 := false, phase1 := false, history := c.history.take 3 })

/-- One period of an enabled CPF: tracks, votes, vane edges, the estimate, the state, and its publication. -/
def Dev.runCpf (s : Dev) : Dev :=
  let s := s.cpf.waitCorrect.foldl (fun s d => s.decideCorrect d) s
  let s := s.setCpf (fun c => { c with waitCorrect := [] })
  let s := s.computeTracks
  let (s, v) := s.periodVote
  let (s, f) := s.periodEdges
  let s := s.estimate
  let (s, f) := if s.cpf.run = none then s.missedEdges f else (s.setCpf (fun c => { c with followed := none }), f)
  let s := ((s.periodState v f).countReadmission).runPeriod.publishUnc
  (s.setCpf (fun c => { c with pubTk := c.tk })).periodEnd

/-- CPF_PERIOD: setup values written since the last period come into force with it (R86). -/
def cpfPeriod (s : Dev) : Dev :=
  let s := s.forceCpf.periodWaits
  if s.cpfEnabled then s.runCpf else s

def execCpfPeriod (s : State) : Host.Outcome State Fault Refusal := s.upd (whenCpf cpfPeriod)

/-- TRACK_READMITTED (R74): the excluded tape track, once its 40 periods have been counted. -/
def trackReadmitted (s : Dev) : Dev :=
  if s.cpf.ts.excluded && decide (40 ≤ s.cpf.tsWithin) then
    let s := s.setCpf (fun c => { c with ts := { c.ts with excluded := false, healthy := true }, tsWithin := 0 })
    s.event 3 2 0x0103 0 s.cpf.tk [2, s.uncOf .ts]
  else s

def execTrackReadmitted (s : State) : Host.Outcome State Fault Refusal := s.upd (whenCpf trackReadmitted)

/-- Anchor every track, and the CPE, to a position now (R83): what has been followed for missed edges starts anew. -/
def Dev.anchorAll (s : Dev) (x : Int) (u : Nat) : Dev :=
  s.setCpf (fun c => { c with
    x := x, mRawPrev := 0, slp := 0, strAnc := s.stretch, history := [], followed := none, seenEdges := [],
    t0 := { c.t0 with value := x, anchor := x, nAnc := (s.chan 0).tkP, uAnc := u, travel := 0 },
    t1 := { c.t1 with value := x, anchor := x, nAnc := (s.chan 1).tkP, uAnc := u, travel := 0 } })

/-- POS_MOVED without tape: the found x is the present CPE (DESIGN CHOICE, log entry 9). -/
def Dev.posMoved (s : Dev) (stored : Int) : Dev :=
  s.event 3 6 0x010A 0 s.cpf.tk [stored, wrapS 32 s.cpf.x, wrapS 32 (s.cpf.x - stored)]

/-- REVALIDATION (R83). -/
def revalidation (s : Dev) : Dev :=
  if !s.cpfEnabled ∨ s.cpf.state ≠ .unreferenced ∨ s.cpf.revalDone then s
  else
    match s.cpf.record, s.cpf.table with
    | some p, some t =>
      if p.gen ≠ t.gen then s.setCpf (fun c => { c with revalDone := true })
      else if s.tape then
        if (s.ssi 0).goods < 3 then s
        else
          let x := s.tsNow
          let s := s.setCpf (fun c => { c with revalDone := true })
          if dist x p.x ≤ s.cfld Reg.cpfReval 31 0 then
            let s := (s.anchorAll x (s.cfld Reg.cpfUnc 31 16)).cpfSet .valid 0x010B
            (s.event 3 2 0x010B 0 s.cpf.tk [1, wrapS 32 (x - p.x)]).publishUnc
          else s.event 3 6 0x010A 0 s.cpf.tk [p.x, wrapS 32 x, wrapS 32 (x - p.x)]
      else if s.atRest && s.zoneLevel .dz0 then
        let s := s.setCpf (fun c => { c with revalDone := true })
        match t.entries[p.landing]? with
        | some e =>
          let r : Int := s.cfld Reg.cpfReval 31 0
          if e.vlo - r ≤ p.x ∧ p.x ≤ e.vhi + r then
            let s := (s.anchorAll p.x (s.cfld Reg.cpfUnc 15 0)).cpfSet .degraded 0x010B
            let s := s.setCpf (fun c => { c with flawed := true })
            (s.event 3 2 0x010B 0 s.cpf.tk [2, 0]).publishUnc
          else s.posMoved p.x
        | none => s.posMoved p.x
      else (s.anchorAll p.x p.u).setCpf (fun c => { c with revalDone := true })
    | _, _ => s.setCpf (fun c => { c with revalDone := true })

def execRevalidation (s : State) : Host.Outcome State Fault Refusal := s.upd (whenCpf revalidation)

/-- AUTO_CORRECTION_START (R76, R83): with AUTOCORR, for a SUSPECT or LOST car at rest, or an
UNREFERENCED one after re-validation, while the interlocks permit it. -/
def autoCorrectionStart (s : Dev) : Dev :=
  let st := s.cpf.state
  if s.cpfEnabled && s.cpf.table.isSome && s.cbit Reg.cpfCfg 5 && s.atRest && !s.hoistBusy && s.motionGranted && s.locksClosed &&
      (st == .suspect || st == .lost || (st == .unreferenced && s.cpf.revalDone)) then
    s.startCorrection none false
  else s

def execAutoCorrectionStart (s : State) : Host.Outcome State Fault Refusal :=
  s.upd (whenCpf autoCorrectionStart)

/-! ## The learning run (R79-R82) -/

/-- The edges of both passes averaged, in order up the hoistway: position, upper?, transitions. The
down pass met them in reverse order. -/
def Dev.averageEdges (s : Dev) (up down : List Learned) : Option (List (Int × Nat × Nat)) :=
  if up.length ≠ down.length then none
  else some ((up.zip down.reverse).map (fun (a, b) =>
    (idiv (s.learnPos a.pos + s.learnPos b.pos) 2, dist (s.learnPos a.pos) (s.learnPos b.pos),
     a.count + b.count)))

/-- Pair averaged edges into vanes. -/
def pairVanes : List (Int × Nat × Nat) → List (Int × Int × Nat)
  | (a, _, m) :: (b, _, n) :: t => (a, b, m + n) :: pairVanes t
  | _ => []

/-- The passes read E1 of each edge in alternate senses; the last level must have come out of the last zone. -/
def closes (l : List Learned) : Bool := l.length % 2 == 0

/-- The edges of an input come in the alternating senses of R82: none is left that no cluster took. -/
def inOrder (deb step : Nat) (i : ZoneInput) (l : List LearnEdge) : Bool :=
  closes (learnInput deb step i l) &&
    (clusters deb (l.filter (fun e => e.step = step ∧ e.edge.input = i))).length == (learnInput deb step i l).length

/-- Travel of T0 or of the reference over a pass: from its first DZ0 edge to its last (DESIGN CHOICE, log entry 9). -/
def passTravel (f : LearnEdge → Int) (l : List Learned) : Int :=
  match l, l.getLast? with
  | a :: _, some b => ((f b.pos - f a.pos).natAbs : Int)
  | _, _ => 0

/-- Landings found: the vanes of the up pass. -/
def Dev.landingsFound (s : Dev) (r : CpfRun) : Nat := (learnInput s.chatterDeb 2 .dz0 r.edges).length / 2

/-- Transitions seen on the terminal switches. -/
def Dev.ntsTransitions (s : Dev) (r : CpfRun) : Nat :=
  ((learnInput s.chatterDeb 2 .ntsHi r.edges ++ learnInput s.chatterDeb 3 .ntsLo r.edges).map (·.count)).foldl (· + ·) 0

/-- SLIP0 of both passes, ppm (R82). -/
def Dev.learnSlip (s : Dev) (up dn : List Learned) : Int :=
  let travel := passTravel s.learnPos up + passTravel s.learnPos dn
  let t0 := passTravel (·.p0) up + passTravel (·.p0) dn
  if travel = 0 then 0 else idiv ((t0 - travel) * 1000000) travel

/-- DECK_MEAS: the mean of DZ1 - DZ0 over matching vanes; 0 where DZ1 is not used, or its edges do not match those of
DZ0 in number (DESIGN CHOICE, log entry 9). -/
def Dev.deckMeas (s : Dev) (r : CpfRun) (avg : List (Int × Nat × Nat)) : Int :=
  match s.averageEdges (learnInput s.chatterDeb 2 .dz1 r.edges) (learnInput s.chatterDeb 3 .dz1 r.edges) with
  | some a1 =>
    if s.cbit Reg.cpfCfg 2 && a1.length == avg.length && !a1.isEmpty then
      idiv (((a1.zip avg).map (fun (p, q) => p.1 - q.1)).foldl (· + ·) 0) a1.length
    else 0
  | none => 0

/-- The table of a run and its z (R82), or the abort code of Table 4-8. A learned entry has only its learned flag: the
door flags are the host's to set (DESIGN CHOICE, log entry 9). -/
def Dev.learnTable (s : Dev) (r : CpfRun) : Except Nat (LandingTable × Int) :=
  let deb := s.chatterDeb
  let up := learnInput deb 2 .dz0 r.edges
  let dn := learnInput deb 3 .dz0 r.edges
  let hi := learnInput deb 2 .ntsHi r.edges
  let lo := learnInput deb 3 .ntsLo r.edges
  if up.length ≠ 2 * r.expected ∨ dn.length ≠ 2 * r.expected then .error 5
  else if !inOrder deb 2 .dz0 r.edges || !inOrder deb 3 .dz0 r.edges then .error 7
  else match s.averageEdges up dn with
    | none => .error 7
    | some avg =>
      if avg.any (fun e => decide (s.cfld Reg.cpfLearn 31 16 < e.2.1)) then .error 6
      else
        let vs := pairVanes avg
        let z := match vs with
          | (a, b, _) :: _ => idiv (a + b) 2
          | [] => 0
        let slip := s.learnSlip up dn
        if slip < -32767 ∨ 32767 < slip then .error 9
        else
          let nts (l : List Learned) : Int := (l.head?.map (fun e => s.learnPos e.pos - z)).getD 0
          .ok ({ gen := (s.cpf.table.map (·.gen)).getD 0
                 ntsLo := nts lo, ntsHi := nts hi
                 tapeOfs := if s.tape then s.csfld Reg.cpfTapeofs 31 0 - s.cpf.tsBase - z else s.csfld Reg.cpfTapeofs 31 0
                 deckMeas := s.deckMeas r avg, slip0 := slip, chatter := min 65535 (s.ntsTransitions r)
                 entries := vs.map (fun (a, b, n) =>
                   { sill := idiv (a + b - 2 * z) 2, vlo := a - z, vhi := b - z, flags := 4, vchat := min n 255 }) }, z)

/-- The car stands levelled at a landing of a table: at rest within HLEVTOL of its sill (R81, R84). -/
def Dev.levelledAt (s : Dev) (t : Option LandingTable) (l : Nat) : Bool :=
  s.atRest && match t.bind (fun t => t.entries[l]?) with
    | some e => decide (dist s.cpf.x e.sill ≤ s.fld Reg.msqHlev 31 16)
    | none => true

/-- The frame of reference moves by `z`: every position is reduced by it (R82). -/
def Dev.shiftFrame (s : Dev) (z : Int) : Dev :=
  s.setCpf (fun c => { c with
    x := c.x - z,
    t0 := { c.t0 with value := c.t0.value - z, anchor := c.t0.anchor - z },
    t1 := { c.t1 with value := c.t1.value - z, anchor := c.t1.anchor - z },
    ts := { c.ts with value := c.ts.value - z },
    history := c.history.map (fun p => ((p.shift .t0 (-z)).shift .t1 (-z)).shift .ts (-z)) })

/-- Step 4 puts the new table in staging and writes CPF_SLIP and CPF_TAPEOFS (R82, R86). -/
def Dev.stageLearned (s : Dev) (r : CpfRun) (t : LandingTable) (z : Int) : Dev :=
  let saved := some (s.reg Reg.cpfSlip, s.reg Reg.cpfTapeofs, s.cpf.staged, z + s.cpf.tsBase)
  let s := (s.setCfld Reg.cpfSlip 15 0 (wrapU 16 t.slip0)).setCfld Reg.cpfTapeofs 31 0 (wrapU 32 t.tapeOfs)
  ((s.setCpf (fun c => { c with staged := some t, tsBase := 0 })).shiftFrame z).setRun { r with saved := saved }

/-- What step 4 wrote is taken back (R82), and the tracks go back into the frame of the tape. -/
def Dev.unstage (s : Dev) (r : CpfRun) : Dev :=
  match r.saved with
  | none => (s.shiftFrame (-s.cpf.tsBase)).setCpf (fun c => { c with tsBase := 0 })
  | some (slip, ofs, staged, z) =>
    let s := (s.setCfld Reg.cpfSlip 31 0 slip.toNat).setCfld Reg.cpfTapeofs 31 0 ofs.toNat
    (s.setCpf (fun c => { c with staged := staged })).shiftFrame (-z)

/-- A run ends under an abort code: UNREFERENCED, table and settings unchanged (R76, R82, R84), and what a learning run
has travelled adapts no slip; its chatter is reported. -/
def Dev.endRunAborted (s : Dev) (r : CpfRun) (code commit : Nat) : Dev :=
  let s := if r.learning then s.reportChatter r (s.dt + s.chatterDeb) else s
  let s := (s.unstage r).setCpf (fun c => { c with run := none, drive := 0 })
  let s := if r.learning then { s with hoist := { s.hoist with runTravel := 0 } } else s
  let s := s.cpfSet .unreferenced 0
  s.completeOpt r.desc .aborted commit
    (if r.learning then [wordN code, wordN (s.landingsFound r), wordN (s.ntsTransitions r),
                         wordN ((s.cpf.table.map (·.gen)).getD 0)]
     else [wordN code, wordN r.phase, wordI r.rv])

/-- A learning run completes DONE in VALID, with the landings, the transitions of the terminal switches and the GEN. -/
def Dev.endLearning (s : Dev) (r : CpfRun) (t : LandingTable) (gen : Nat) : Dev :=
  let s := (s.setCpf (fun c => { c with run := none, drive := 0 })).cpfSet .valid 0
  s.publishUnc.completeOpt r.desc .done s.cpf.tk [0, wordN t.entries.length, wordN t.chatter, wordN gen]

/-- LEARN_RUN_COMPLETE (R81, R82): an abort code ends the run; after step 3 the table is computed and
staged, and with STAGE_ONLY the run ends there; after step 5 it is committed. -/
def learnRunComplete (s : Dev) : Dev :=
  match s.cpf.run with
  | some r =>
    if !r.learning then s
    else match r.abort with
      | some c => s.endRunAborted r c s.dt
      | none =>
        if r.step = 4 then
          match s.learnTable r with
          | .error c => s.endRunAborted r c s.dt
          | .ok (t, z) =>
            let s := (s.reportChatter r (s.dt + s.chatterDeb)).stageLearned r t z
            if r.stageOnly then s.endLearning r t t.gen
            else match s.cpf.run with
              | some r => s.learnStep { r with landing := 0 } 5 0
              | none => s
        else if r.step = 5 && s.levelledAt s.cpf.staged r.landing then
          match s.cpf.staged with
          | some t =>
            let g := (t.gen + 1) % 2 ^ 32
            (s.commitTable t g s.cpf.tk).endLearning r t g
          | none => s.endRunAborted r 7 s.dt
        else s
  | none => s

def execLearnRunComplete (s : State) : Host.Outcome State Fault Refusal := s.upd (whenCpf learnRunComplete)

/-- The time a learning pass may take, ns (R81). -/
def Dev.passLimit (s : Dev) : Nat :=
  1000000 * 1000000000 / max 1 (s.cfld Reg.cpfLearn 15 0) + 60000000000

/-- LEARN_PASS_TIMEOUT (R81): abort code 0x08, once the pass has exceeded its time. -/
def learnPassTimeout (s : Dev) : Dev :=
  match s.cpf.run with
  | some r =>
    if r.learning && r.step ≤ 3 && decide (r.passStart + s.passLimit ≤ s.dt) then s.endRunAborted r 8 s.dt
    else s
  | none => s

def execLearnPassTimeout (s : State) : Host.Outcome State Fault Refusal := s.upd (whenCpf learnPassTimeout)

/-- CORRECTION_RUN_COMPLETE (R84, R85): levelled at rest, VALID or DEGRADED by Table 4-2. -/
def correctionRunComplete (s : Dev) : Dev :=
  match s.cpf.run with
  | some r =>
    if r.learning then s
    else match r.abort with
      | some c => s.endRunAborted r c s.dt
      | none =>
        if r.step = 4 && r.accepted && s.levelledAt s.cpf.table r.landing then
          let s := s.setCpf (fun c => { c with run := none, drive := 0, missedRow := 0, flawed := false })
          let s := s.event 3 2 0x010B 0 s.cpf.tk [r.phase + 2, wrapS 32 r.rv]
          let s := s.cpfSet (if s.vote = .agree then .valid else .degraded) 0x010B
          s.publishUnc.completeOpt r.desc .done s.dt [0, wordN r.phase, wordI r.rv]
        else s
  | none => s

def execCorrectionRunComplete (s : State) : Host.Outcome State Fault Refusal :=
  s.upd (whenCpf correctionRunComplete)

/-- A host abort of a run (R81, R85). -/
def Dev.cpfAbort (s : Dev) (d : Desc) : Option Dev :=
  if s.cpf.waitCorrect.any (fun e => e.same d) then
    some ((s.setCpf (fun c => { c with waitCorrect := c.waitCorrect.filter (fun e => !e.same d) })).complete
      d .aborted s.dt [1])
  else match s.cpf.run with
    | some r =>
      match r.desc with
      | some e => if e.same d then some (s.endRunAborted r 1 s.dt) else none
      | none => none
    | none => none

/-! ## CPF_CFG (R86) -/

/-- S0 meets R62: enabled with PER 1 or 5, and its frame complete within 60 µs. -/
def Dev.tapeReady (s : Dev) : Bool :=
  let per := s.fld (Reg.pfiSper 0) 5 0
  s.sEnabled 0 && (per == 1 || per == 5) &&
    decide (100 + ssiFrameTime (s.reg (Reg.pfiScfg 0)) (s.reg (Reg.pfiSclk 0)) ≤ 60000)

def Dev.anyDoorEnabled (s : Dev) : Bool :=
  (List.range 4).any (fun n => (kget Axis.reset s.door.axes n).state != .disabled)

/-- CPF_CFG_WRITE. -/
def cpfCfgWrite (v : Word) (s : Dev) : Dev :=
  let old := s.reg Reg.cpfCfg
  let ign (s : Dev) : Dev := s.setBit Reg.cpfStat 12 true
  let w := writeBits old v 0x3F 0
  if bitOf old 0 then
    if !bitOf v 0 then
      if s.hoist.enabled || s.anyDoorEnabled then ign s
      else
        let s := if bitOf w 1 != bitOf old 1 then ign s else s
        (s.setReg Reg.cpfCfg (keepBits old w 0x3)).setCpf (fun c => { c with closing := true })
    else
      let s := if bitOf w 1 != bitOf old 1 then ign s else s
      s.setReg Reg.cpfCfg (keepBits old w 0x2)
  else if bitOf v 0 then
    let bad := s.fld Reg.cpfK0 31 0 == 0 || s.fld Reg.cpfK1 31 0 == 0 ||
      (bitOf w 1 && (s.fld Reg.cpfKs 31 0 == 0 || !s.tapeReady))
    if bad then s.setBit Reg.cpfStat 11 true
    else ((s.setReg Reg.cpfCfg w).forceCpf.cpfSet .unreferenced 0).setCpf (fun c => { c with
      u := 0xFFFFFFFF, revalDone := false, history := [], speeds := [], followed := none, zoneEdges := [] })
  else s.setReg Reg.cpfCfg w

def execCpfCfgWrite (v : Word) (s : State) : Host.Outcome State Fault Refusal := s.upd (whenBar (cpfCfgWrite v))

/-! ## Commands (R87) -/

def exclMask (c : Cpf) : Nat := b2n c.t0.excluded + 2 * b2n c.t1.excluded + 4 * b2n c.ts.excluded

/-- CPF_READ: the estimate published last; the commit time is its t_k. -/
def cpfRead (d : Desc) (s : Dev) : Dev :=
  if d.object ≠ 0 then s.fail d .badDescriptor
  else
    let c := s.cpf
    s.complete d .done c.pubTk [wordI c.x, wordI c.v, wordN c.u,
      wordN (c.state.code + 16 * refCode c.reference + 64 * exclMask c)]

def execCpfRead (d : Desc) (s : State) : Host.Outcome State Fault Refusal := s.cmd d (whenCpf (cpfRead d))

/-- CPF_SET_LOAD: applies from the next t_k. -/
def cpfSetLoad (d : Desc) (s : Dev) : Dev :=
  if d.object ≠ 0 ∨ bitsOf (d.w 3) 31 16 ≠ 0 then s.fail d .badDescriptor
  else s.setCpf (fun c => { c with waitLoad := c.waitLoad ++ [d] })

def execCpfSetLoad (d : Desc) (s : State) : Host.Outcome State Fault Refusal := s.cmd d (whenCpf (cpfSetLoad d))

/-- TS as it stands at the start of a learning run is recorded (R81) and taken off TS for the run, so that all three
tracks start at 0 (DEDUCED, log entry 9). -/
def Dev.recordTape (s : Dev) : Dev :=
  if s.tape then
    let x := s.tsNow
    s.setCpf (fun c => { c with tsBase := c.tsBase + x, ts := { c.ts with value := 0 } })
  else s

/-- CPF_LEARN (R80, R81). While CPF is not enabled it completes BAD_DESCRIPTOR, and T0 and T1 anchored at 0 take the
uncertainty UNC_VANE (both DESIGN CHOICE, log entry 9). -/
def cpfLearn (d : Desc) (s : Dev) : Dev :=
  let n := bitsOf (d.w 3) 8 0
  let z := s.creg Reg.cpfDzin
  if d.object ≠ 0 ∨ n = 0 ∨ 256 < n ∨ Nat.land (d.w 3).toNat 0xFFFEFE00 ≠ 0 ∨ !s.cpfEnabled
      ∨ bitsOf z 7 0 = 0xFF ∨ bitsOf z 23 16 = 0xFF ∨ bitsOf z 31 24 = 0xFF
      ∨ s.learnSpeed < 50000 ∨ 1000000 < s.learnSpeed then s.fail d .badDescriptor
  else if !s.atRest ∨ s.hoistBusy then s.fail d .reconfigBusy
  else if s.cpf.state ≠ .valid ∧ s.cpf.state ≠ .degraded ∧ s.cpf.state ≠ .unreferenced then
    s.fail d .reconfigBusy
  else if !s.motionGranted ∨ !s.locksClosed then s.fail d .refusedInterlock
  else
    let s := ((s.cpfSet .learning 0).recordTape).anchorAll 0 (s.cfld Reg.cpfUnc 15 0)
    s.learnStep { s.cpf.newRun true (some d) 1 with expected := n, stageOnly := bitOf (d.w 3) 16 } 1 (-s.learnSpeed)

def execCpfLearn (d : Desc) (s : State) : Host.Outcome State Fault Refusal := s.cmd d (whenCpf (cpfLearn d))

/-- CPF_CORRECT (R85): decided at the next period; with CPF off no period comes and it fails at once. -/
def cpfCorrect (d : Desc) (s : Dev) : Dev :=
  if d.object ≠ 0 ∨ bitsOf (d.w 3) 31 1 ≠ 0 ∨ !s.cpfEnabled then s.fail d .badDescriptor
  else s.setCpf (fun c => { c with waitCorrect := c.waitCorrect ++ [d] })

def execCpfCorrect (d : Desc) (s : State) : Host.Outcome State Fault Refusal := s.cmd d (whenCpf (cpfCorrect d))

/-! ### Table images (R77, R78) -/

def entryBytes (e : Landing) : List Byte :=
  leBytes 4 (wrapU 32 e.sill) ++ leBytes 4 (wrapU 32 e.vlo) ++ leBytes 4 (wrapU 32 e.vhi)
    ++ leBytes 1 e.flags ++ leBytes 1 e.vchat ++ leBytes 2 0

def headerBytes (t : LandingTable) : List Byte :=
  leBytes 4 t.gen ++ leBytes 2 t.entries.length ++ leBytes 2 1 ++ leBytes 4 (wrapU 32 t.ntsLo)
    ++ leBytes 4 (wrapU 32 t.ntsHi) ++ leBytes 4 (wrapU 32 t.tapeOfs) ++ leBytes 4 (wrapU 32 t.deckMeas)
    ++ leBytes 2 (wrapU 16 t.slip0) ++ leBytes 2 t.chatter ++ List.replicate 32 0

def tableImage (t : LandingTable) : List Byte :=
  let h := headerBytes t
  let e := t.entries.flatMap entryBytes
  h ++ leBytes 4 (crc32 (h ++ e)).toNat ++ e

/-- An entry; reserved bits of FLAGS read as zero (00 R6). -/
def parseEntry (b : List Byte) : Landing :=
  { sill := leAtS b 0 4, vlo := leAtS b 4 4, vhi := leAtS b 8 4, flags := leAt b 12 1 % 16, vchat := leAt b 13 1 }

def parseEntries : Nat → List Byte → List Landing
  | 0, _ => []
  | n + 1, b => parseEntry (b.take 16) :: parseEntries n (b.drop 16)

/-- VLO < VHI < next VLO, and SILL ascending (R78). -/
def entriesOrdered : List Landing → Bool
  | e :: f :: t => decide (e.vlo < e.vhi ∧ e.vhi < f.vlo ∧ e.sill < f.sill) && entriesOrdered (f :: t)
  | [e] => decide (e.vlo < e.vhi)
  | [] => true

def parseTable (b : List Byte) : Option LandingTable :=
  let n := leAt b 4 2
  let e := (b.drop 64).take (16 * n)
  if leAt b 6 2 = 1 ∧ 1 ≤ n ∧ n ≤ 256 ∧ e.length = 16 * n ∧
      leAt b 60 4 = (crc32 (b.take 60 ++ e)).toNat then
    some { gen := leAt b 0 4, ntsLo := leAtS b 8 4, ntsHi := leAtS b 12 4, tapeOfs := leAtS b 16 4,
           deckMeas := leAtS b 20 4, slip0 := leAtS b 24 2, chatter := leAt b 26 2,
           entries := parseEntries n e }
  else none

/-- CPF_TABLE_READ; of a table that does not exist it completes BAD_DESCRIPTOR (DESIGN CHOICE, log entry 9). -/
def cpfTableRead (d : Desc) (s : Dev) : Dev :=
  if d.object ≠ 0 ∨ bitsOf (d.w 5) 31 1 ≠ 0 then s.fail d .badDescriptor
  else match if bitOf (d.w 5) 0 then s.cpf.staged else s.cpf.table with
    | none => s.fail d .badDescriptor
    | some t =>
      let b := tableImage t
      if !s.addrOk d (d.w64 3) b.length then s.fail d .badDescriptor
      else (s.hostWrite d (d.w64 3) b).complete d .done s.dt [wordN t.gen, wordN t.entries.length]

def execCpfTableRead (d : Desc) (s : State) : Host.Outcome State Fault Refusal :=
  s.cmd d (whenCpf (cpfTableRead d))

/-- CPF_TABLE_WRITE sets the edited flag of every entry that differs in a position from the current table's (R82,
log entry 9). -/
def markEdited (old : List Landing) (new : List Landing) : List Landing :=
  new.zipIdx.map (fun (e, i) =>
    match old[i]? with
    | some o => if e.sill = o.sill ∧ e.vlo = o.vlo ∧ e.vhi = o.vhi then e else { e with flags := Nat.lor e.flags 8 }
    | none => { e with flags := Nat.lor e.flags 8 })

/-- CPF_TABLE_WRITE (R78). -/
def cpfTableWrite (d : Desc) (img : HostBytes) (s : Dev) : Dev :=
  let b := s.fetch d (d.w64 3) img
  if d.object ≠ 0 ∨ !s.addrOk d (d.w64 3) b.length then s.fail d .badDescriptor
  else match parseTable b with
    | none => s.fail d .badDescriptor
    | some t =>
      if !entriesOrdered t.entries ∨ t.gen ≠ (s.cpf.table.map (·.gen)).getD 0 then s.fail d .badDescriptor
      else
        let old := (s.cpf.table.map (·.entries)).getD []
        (s.setCpf (fun c => { c with staged := some { t with entries := markEdited old t.entries } })).complete d .done
          s.dt [wordN t.gen]

def execCpfTableWrite (d : Desc) (img : HostBytes) (s : State) : Host.Outcome State Fault Refusal :=
  s.updIn d img (whenCpf (cpfTableWrite d img))

/-- CPF_TABLE_COMMIT (R78); with no staged table, or another staged GEN, it completes BAD_DESCRIPTOR (DESIGN CHOICE, log
entry 9). -/
def cpfTableCommit (d : Desc) (s : Dev) : Dev :=
  match s.cpf.staged with
  | none => s.fail d .badDescriptor
  | some t =>
    if d.object ≠ 0 ∨ (d.w 3).toNat ≠ t.gen then s.fail d .badDescriptor
    else if !s.atRest then s.fail d .reconfigBusy
    else s.setCpf (fun c => { c with waitCommit := c.waitCommit ++ [d] })

def execCpfTableCommit (d : Desc) (s : State) : Host.Outcome State Fault Refusal :=
  s.cmd d (whenCpf (cpfTableCommit d))

end Sys2Proof.Machine
end

