-- ==== Sys2Proof/Machine/Slots.lean ====
section
/-! DEFINITION. The slots of the Loop Engine: which loops run in a frame and in which slot, and when a
set of rate groups fits (14 R319). -/
namespace Sys2Proof.Machine

/-! ## Duty descriptors (14 Tables 14-2, 14-3) -/

def DutyDesc.critical (d : DutyDesc) : Bool := tbit d.flags 0
def DutyDesc.level1 (d : DutyDesc) : Bool := tbit d.flags 1
def DutyDesc.pinned (d : DutyDesc) : Bool := tbit d.flags 2
def DutyDesc.handle (d : DutyDesc) : Nat := leAt d.args 0 1
def DutyDesc.mailbox (d : DutyDesc) : Nat := leAt d.args 4 4
def DutyDesc.inAddr (d : DutyDesc) : Nat := leAt d.args 8 8
def DutyDesc.outAddr (d : DutyDesc) : Nat := leAt d.args 16 8
def DutyDesc.group (d : DutyDesc) : Nat := leAt d.args 0 1
def DutyDesc.cycle (d : DutyDesc) : Nat := leAt d.args 2 2
def DutyDesc.loops (d : DutyDesc) : Nat := leAt d.args 4 8
def DutyDesc.queue (d : DutyDesc) : Nat := leAt d.args 0 1
def DutyDesc.bytes (d : DutyDesc) : Nat := leAt d.args 4 4
def DutyDesc.ports (d : DutyDesc) : Nat := leAt d.args 0 1
def DutyDesc.frames (d : DutyDesc) : Nat := leAt d.args 8 2

def Dev.duty (s : Dev) (id : Nat) : Option Duty := kget none s.tlg.duties id
def dutyList (m : KMap (Option Duty)) : List Duty := m.filterMap (·.2)
/-! ## Groups and frames -/

def gcdFuel : Nat → Nat → Nat → Nat
  | 0, a, _ => a
  | n + 1, a, b => if b = 0 then a else gcdFuel n b (a % b)

def lcm (a b : Nat) : Nat := a / max 1 (gcdFuel 64 a b) * b

/-- The bits of a mask, ascending. -/
def maskBits (n m : Nat) : List Nat := (List.range n).filter (fun i => tbit m i)

/-- Groups by ascending release cycle, then number. -/
def insertGroup (g : Nat × RateGroup) : List (Nat × RateGroup) → List (Nat × RateGroup)
  | [] => [g]
  | h :: t =>
    if g.2.release < h.2.release ∨ (g.2.release = h.2.release ∧ g.1 < h.1) then g :: h :: t
    else h :: insertGroup g t

def sortGroups (l : List (Nat × RateGroup)) : List (Nat × RateGroup) := l.foldr insertGroup []

def groupList (m : KMap (Option RateGroup)) : List (Nat × RateGroup) :=
  m.filterMap (fun (n, g) => g.map (fun r => (n, r)))

/-- The loops of a frame in slot order, with their group. -/
def frameLoops (l : List (Nat × RateGroup)) (frame : Nat) : List (Nat × Nat × RateGroup) :=
  ((sortGroups l).filter (fun g => frame % max 1 g.2.period == g.2.offset)).flatMap
    (fun g => (maskBits 64 g.2.mask).map (fun i => (i, g.1, g.2)))

/-- The loops whose chain registers a loop reads (07 R155, Table 7-6). -/
def Dev.chainSources (s : Dev) (l : Nat) : List Nat :=
  if 8 ≤ l ∧ l ≤ 12 then [l - 6]
  else if l < 16 then []
  else (List.range 4).flatMap (fun m =>
    let p := s.bank l m
    [p.sp, p.y, p.vff, p.aff, p.pos].filterMap
      (fun c => if 0x40 ≤ c ∧ c < 0x80 then some (c - 0x40) else none))

/-- Why the loops of one frame do not fit: refusal reason, group and the excess in cycles (14 Table 14-4, R322). -/
def Dev.frameMisfit (s : Dev) (l : List (Nat × RateGroup)) (frame : Nat) : Option (Nat × Nat × Nat) :=
  let f := frameLoops l frame
  if 256 < f.length then some (9, (f.getLast?.map (·.2.1)).getD 0, 48 * (f.length - 256))
  else
    let late := f.zipIdx.filterMap (fun (x, i) => if x.2.2.release < 79 + 48 * i then some (x.2.1, 79 + 48 * i - x.2.2.release) else none)
    match late with
    | g :: _ => some (10, g.1, g.2)
    | [] =>
      let idx (c : Nat) : Option Nat := f.findIdx? (fun x => x.1 == c)
      let bad := f.zipIdx.filterMap (fun (x, i) =>
        if (s.chainSources x.1).any (fun c => match idx c with | some j => decide (i ≤ j) | none => false)
        then some x.2.1 else none)
      bad.head?.map (fun g => (11, g, 0))

/-- The length of the LPE schedule, frames. -/
def schedule (l : List (Nat × RateGroup)) : Nat := l.foldl (fun a g => lcm a (max 1 g.2.period)) 1

/-- Of two refusals the one of least reason, the first on a tie. -/
def leastReason : Option (Nat × Nat × Nat) → Option (Nat × Nat × Nat) → Option (Nat × Nat × Nat)
  | some a, some b => if b.1 < a.1 then some b else some a
  | some a, none => some a
  | none, r => r

/-- The least reason for which a frame of the schedule does not fit, and its first frame's group. -/
def Dev.misfitFrom (s : Dev) (l : List (Nat × RateGroup)) : Nat → Option (Nat × Nat × Nat)
  | 0 => none
  | n + 1 => leastReason (s.misfitFrom l n) (s.frameMisfit l n)

/-- Why a set of rate groups is refused, if it is (14 R319): reason, group, and the excess, for a schedule that is too
long in ns. -/
def Dev.slotMisfit (s : Dev) (l : List (Nat × RateGroup)) : Option (Nat × Nat × Nat) :=
  if 2520 < schedule l then some (6, 0, 50000 * (schedule l - 2520)) else s.misfitFrom l (schedule l)

/-- The most slots used in any frame (LPE_SLOTS.PEAK). -/
def peakSlots (l : List (Nat × RateGroup)) : Nat :=
  (List.range (schedule l)).foldl (fun a f => max a (frameLoops l f).length) 0

/-! ## The MSQ's own groups (07 Table 7-6; numbers and release cycles: log entry 12) -/

/-- The hoist group: L0, released 2 µs before TXPH, in the frame that begins 200 µs after t_k. -/
def Dev.hoistGroup (s : Dev) : RateGroup := ⟨5, 4, (clampN 205 245 (s.fld Reg.drvTxph 7 0) - 202) * 250, 1⟩

def Dev.groupOf (s : Dev) (g : Nat) : Option RateGroup := kget none s.lpe.groups g

def Dev.setGroup (s : Dev) (g : Nat) (r : Option RateGroup) : Dev :=
  { s with lpe := { s.lpe with groups := kput none s.lpe.groups g r } }

/-- Loops that are admitted anew start from cleared state; outputs and chain registers hold (R172). -/
def Dev.freshLoops (s : Dev) (mask : Nat) : Dev :=
  (maskBits 64 mask).foldl (fun s l =>
    let x := s.loop l
    s.setLoop l { Loop.reset with chain := x.chain, u := x.u, old := x.old, relAt := x.relAt,
                                  lastFrame := x.lastFrame }) s

/-- The groups with the hoist's added. -/
def Dev.withHoist (s : Dev) : KMap (Option RateGroup) := kput none s.lpe.groups 64 (some s.hoistGroup)

/-- The groups with the loops of axis n added or taken away. -/
def Dev.withAxis (s : Dev) (n : Nat) (on : Bool) : KMap (Option RateGroup) :=
  let m (g base : Nat) : Nat := putBit (((s.groupOf g).map (·.mask)).getD 0) (base + n) on
  let grp (p r k : Nat) : Option RateGroup := if k = 0 then none else some ⟨p, 0, r, k⟩
  kput none (kput none s.lpe.groups 65 (grp 8 500 (m 65 2))) 66 (grp 2 2000 (m 66 8))

/-- The MSQ's own groups (64 on) of a set, with the class-3 duties of a configuration. -/
def groupsOver (g : KMap (Option RateGroup)) (m : KMap (Option Duty)) : KMap (Option RateGroup) :=
  (dutyList m).foldl (fun g x =>
    if x.desc.cls = 3 then kput none g x.desc.group (some ⟨x.desc.period, x.desc.offset, x.desc.cycle, x.desc.loops⟩) else g)
    (g.filter (fun x => decide (64 ≤ x.1)))

/-- The configurations that a pending commit is to put in force, one after the other (14 R323, R324). -/
def Dev.planned (s : Dev) : List (KMap (Option Duty)) :=
  match s.tlg.pending with
  | none => []
  | some c => c.plan.duties :: (match c.second with | some p => [p.duties] | none => [])

/-- A set of groups is admitted: it fits now, and with the duties of each configuration that is pending. -/
def Dev.groupsFit (s : Dev) (g : KMap (Option RateGroup)) : Bool :=
  (s.slotMisfit (groupList g)).isNone && s.planned.all (fun m => (s.slotMisfit (groupList (groupsOver g m))).isNone)

def Dev.hoistAdmissible (s : Dev) : Bool := s.groupsFit s.withHoist
def Dev.axisAdmissible (s : Dev) (n : Nat) : Bool := s.groupsFit (s.withAxis n true)

def Dev.admitHoist (s : Dev) : Dev :=
  ({ s with lpe := { s.lpe with groups := s.withHoist } }).freshLoops 1

def Dev.admitAxis (s : Dev) (n : Nat) : Dev :=
  ({ s with lpe := { s.lpe with groups := s.withAxis n true } }).freshLoops (2 ^ (2 + n) + 2 ^ (8 + n))

def Dev.dropAxis (s : Dev) (n : Nat) : Dev :=
  { s with lpe := { s.lpe with groups := s.withAxis n false } }

end Sys2Proof.Machine
end

