-- ==== Sys2Proof/Machine/Hoist.lean ====
section
/-! DEFINITION. Hoist motion: the profile step, targets and reversals, speed mode, starting, arriving
and re-levelling (05 R89-R105, R114-R116). Positions µm, instants DT in ns. -/
namespace Sys2Proof.Machine

def Dev.setHoist (s : Dev) (f : Hoist → Hoist) : Dev := { s with hoist := f s.hoist }

/-! ## Readings -/

def Dev.setDrv (s : Dev) (f : Drv → Drv) : Dev := { s with drv := f s.drv }

/-- The hoist setup registers as the last profile step took them (R112). -/
def Dev.hreg (s : Dev) (off : Nat) : Word := kget (regReset off) s.hoist.stepRegs off
def Dev.hfld (s : Dev) (off hi lo : Nat) : Nat := bitsOf (s.hreg off) hi lo

/-- The registers that apply to the next profile planned, MSQ_HVMAX to MSQ_HVLIMHI (R112). -/
def profileRegs : List Nat := [Reg.msqHvmax, Reg.msqHamax, Reg.msqHjmax, Reg.msqHvlimlo, Reg.msqHvlimhi]
/-- The registers that apply at the next profile step (R112). -/
def stepRegList : List Nat := [Reg.msqHcfg, Reg.msqHdwell, Reg.msqHlev, Reg.msqHrelev, Reg.msqHrelevt, Reg.msqHspdv, Reg.msqHto]

/-- The registers of a list as they stand, on top of what was held. -/
def Dev.holdRegs (s : Dev) (held : KMap Word) (l : List Nat) : KMap Word :=
  l.foldl (fun m o => kput (regReset o) m o (s.reg o)) held

def Dev.forceStep (s : Dev) : Dev := s.setHoist (fun h => { h with stepRegs := s.holdRegs h.stepRegs stepRegList })
def Dev.forcePlan (s : Dev) : Dev := s.setHoist (fun h => { h with planRegs := s.holdRegs h.planRegs profileRegs })

/-- A register of the profile in force; with no profile, as written. -/
def Dev.preg (s : Dev) (off : Nat) : Word :=
  if s.hoist.plan.isSome then kget (regReset off) s.hoist.planRegs off else s.reg off

/-- The virtual limits of the profile in force, and those of the next profile planned. -/
def Dev.hLo (s : Dev) : Int := sBitsOf (s.preg Reg.msqHvlimlo) 31 0
def Dev.hHi (s : Dev) : Int := sBitsOf (s.preg Reg.msqHvlimhi) 31 0
def Dev.nextLo (s : Dev) : Int := s.sfld Reg.msqHvlimlo 31 0
def Dev.nextHi (s : Dev) : Int := s.sfld Reg.msqHvlimhi 31 0
def Dev.hTol (s : Dev) : Nat := s.hfld Reg.msqHlev 31 16
def Dev.hStartTo (s : Dev) : Nat := s.hfld Reg.msqHto 15 0 * 1000000
def Dev.hStopTo (s : Dev) : Nat := s.hfld Reg.msqHto 31 16 * 1000000
def Dev.hDwell (s : Dev) : Nat := max 200 (s.hfld Reg.msqHdwell 15 0) * 1000000
/-- Acceleration and jerk of the next profile planned. -/
def Dev.hA (s : Dev) : Nat := s.fld Reg.msqHamax 31 0
def Dev.hJ (s : Dev) : Nat := s.fld Reg.msqHjmax 31 0

/-- STATUS bits of the last good status frame (Table 5-6). -/
def Dev.invBit (s : Dev) (i : Nat) : Bool := tbit s.drv.last.status i
def Dev.brakeLifted (s : Dev) : Bool := s.invBit 2
/-- READY, and MAGNETISED under frame version 2 (R100). -/
def Dev.invReady (s : Dev) : Bool := s.invBit 0 && (s.drv.version != 2 || s.invBit 5)

/-- New runs are allowed in these CPF states (04 Table 4-4). -/
def Dev.cpfFit (s : Dev) : Bool := s.cpf.state == .valid || s.cpf.state == .degraded

/-- v_active of R98 in µm/s; `cap` in mm/s. -/
def Dev.vActive (s : Dev) (cap : Nat) : Nat :=
  let v := s.fld Reg.msqHvmax 31 0
  let v1 := if cap = 0 then v else min v (cap * 1000)
  if s.cpf.state = .degraded then min v1 (v * s.cfld Reg.cpfCorr 31 24 / 100) else v1

/-- The deck offset of a hoist goto: axis A's target stands for its position (06 R144). -/
def Dev.gotoDeckOfs (s : Dev) : Int :=
  s.csfld Reg.cpfDeckofs 31 0 +
    (if s.hasAxis 4 && s.fld (Reg.msqDcfg 4) 5 4 == 1 then
      idiv (kget Axis.reset s.door.axes 4).pEnd 256 else 0)

/-- The target of a deck at a landing of the current table (R94). -/
def Dev.landingTarget (s : Dev) (l deck : Nat) : Option Int :=
  match s.cpf.table.bind (fun t => t.entries[l]?) with
  | some e => some (e.sill - deck * s.gotoDeckOfs)
  | none => none

/-- The stopping point from a point of motion (R92). -/
def Kin.stopAt (k : Kin) (A J : Nat) : Int :=
  if k.dir = 0 then k.xUm
  else if 0 < k.dir then k.xUm + stopDist A J k
  else k.xUm - stopDist A J k.mirror

/-- The stopping point a new profile can reach, under the limits it would be planned with. -/
def Dev.stopPoint (s : Dev) : Int := s.hoist.kin.stopAt s.hA s.hJ

/-- A point's stopping point under the limits of the profile in force. -/
def Dev.stopOf (s : Dev) (k : Kin) : Int :=
  k.stopAt (bitsOf (s.preg Reg.msqHamax) 31 0) (bitsOf (s.preg Reg.msqHjmax) 31 0)

/-- The speed limit of a motion, µm/s. -/
def Dev.motionSpeed (s : Dev) (m : HMotion) : Nat :=
  match m.kind with
  | .relevel => min (s.hfld Reg.msqHrelev 15 0 * 1000) (s.vActive 0)
  | .cpfLevel =>
    match s.cpf.run with
    | some r => if r.learning then s.learnSpeed.natAbs else s.corrSpeed.natAbs
    | none => 0
  | _ => s.vActive m.cap

/-- The MODE byte of Table 5-5. -/
def Dev.hMode (s : Dev) : Nat :=
  let h := s.hoist
  match h.phase with
  | .rest | .waitEnable => 0
  | .waitReady | .waitBrake => 1
  | .dwell => 6
  | .braking | .quickStop | .coasting => 4
  | .travel | .settle =>
    match h.active with
    | some m => if m.kind = .relevel then 5 else if m.kind = .stopPoint then 4 else if h.levelling then 3 else 2
    | none => if h.levelling then 3 else 2

/-! ## Planning -/

/-- Set an MSQ compare slot of Q0 at a position, for the direction of travel (R101). -/
def Dev.armMsq (s : Dev) (k line : Nat) (x dir : Int) : Dev :=
  let c := (s.chan 0).tkP + idiv ((x - s.cpf.x) * 2 ^ 24) (s.cfld Reg.cpfK0 31 0)
  let sl : Slot := { Slot.reset with armed := true, pos := wrapS 32 c,
                                     dirf := if 0 < dir then 1 else 2, trig := true, trigLine := line }
  let s := s.setSlot 0 k sl
  (s.judgeArm 0 k s.dt).1

/-- The vane edge met first at the target landing of a motion (R101). -/
def Dev.firstEdge (s : Dev) (m : HMotion) (dir : Int) : Option Int :=
  match s.cpf.table.bind (fun t => t.entries[m.landing]?) with
  | some e => some ((if 0 < dir then e.vlo else e.vhi) - m.deck * s.gotoDeckOfs)
  | none => none

/-- Put a plan in force from the sample of this step, under the limits as they stand (R112): slots 31
and 30 are armed anew and loop L0 goes to its travel parameters (R101, 07 R170); a re-levelling run keeps
those it took at H_RELEVEL_START (log entry 13). A stop keeps the INSPECTION bit of the run it ends. -/
def Dev.setPlan (s : Dev) (m : HMotion) (p : Plan) (peak dir : Int) : Dev :=
  let keeps := m.kind == .stopPoint || m.kind == .interim
  let s := s.forcePlan.setHoist (fun h => { h with
    plan := some p, peak := peak, levelling := false,
    inspection := if keeps then h.inspection else m.inspection })
  let s := if m.kind = .relevel then s else s.handLoop 0 0
  let s := match p.target with
    | some _ =>
      let xLev := (p.k0.runAll (p.segs.take (p.segs.length - 1))).xUm
      s.armMsq 31 0 xLev dir
    | none => s.setSlot 0 31 .reset
  match p.target, s.firstEdge m dir with
  | some _, some e => s.armMsq 30 1 e dir
  | _, _ => s.setSlot 0 30 .reset

/-- Plan to a target position under speed `V` (R90, R91, R94). -/
def Dev.planTo (s : Dev) (m : HMotion) (x : Int) : Dev :=
  let k := s.hoist.kin.held
  let dir : Int := if k.dir ≠ 0 then k.dir else if idiv k.x xUnit ≤ x then 1 else -1
  let kd := if 0 < dir then k else k.mirror
  let d := dir * (x * xUnit - k.x)
  let sh := shapeTo (s.motionSpeed m) s.hA s.hJ kd d
  let segs := shapeSegs sh kd d s.free
  let segs := if 0 < dir then segs else segs.map Seg.mirror
  let peak := (kd.runAll sh.head).vUm
  s.drawn.setPlan m { t0 := s.hoist.sampleAt, k0 := k, segs := segs, target := some x, vEnd := 0 } peak dir

/-- Plan to a speed under A and J (R99); a stop at v = 0 ends wherever the ramp ends. -/
def Dev.planSpeed (s : Dev) (m : HMotion) (v : Int) : Dev :=
  let k := s.hoist.kin.held
  let dir : Int := if k.dir ≠ 0 then k.dir else if v < 0 then -1 else 1
  let kd := if 0 < dir then k else k.mirror
  let segs := if v = 0 then stopSegs s.hA s.hJ kd.vn kd.a
    else transition s.hA s.hJ kd.vn kd.a (dir * v * 1000000000)
  let segs := roundSegs s.free segs
  let segs := if 0 < dir then segs else segs.map Seg.mirror
  s.drawn.setPlan m { t0 := s.hoist.sampleAt, k0 := k, segs := segs, target := none, vEnd := v } v dir

/-- Plan what a motion asks for from the present sample. A speed of the other sign is reached
through zero (R99). -/
def Dev.planMotion (s : Dev) (m : HMotion) : Dev :=
  match m.target with
  | some x => s.planTo m x
  | none =>
    if 0 < s.hoist.kin.dir * m.setPoint ∨ s.hoist.kin.dir = 0 then s.planSpeed m m.setPoint
    else s.planSpeed m 0

/-- The car moves under a plan or stands on an open brake, so a new motion starts from this sample. -/
def Hoist.live (h : Hoist) : Bool := h.phase == .travel || h.phase == .settle

/-- Motions that take the car away from the landing at which it is levelled (R104). -/
def HMotion.leaves (m : HMotion) : Bool :=
  m.kind == .goto || m.kind == .speed || m.kind == .cpfSpeed || m.kind == .cpfLevel

/-- The car moves off: the landing of the last goto is no longer held. A run that ends before that leaves it (R104). -/
def Dev.unlevelled (s : Dev) (m : HMotion) : Dev :=
  if m.leaves then s.setHoist (fun h => { h with levelled := none, offSince := none }) else s

/-- Take up a motion: at once while the car is live, otherwise by the start sequence of R100, with the PRETORQUE
and INSPECTION of the new command where that is under way. -/
def Dev.begin (s : Dev) (m : HMotion) : Dev :=
  let h := s.hoist
  let s := s.setHoist (fun h => { h with active := some m })
  if h.live then ((s.unlevelled m).setHoist (fun h => { h with phase := .travel })).planMotion m
  else if h.phase = .rest then s.setHoist (fun h => { h with phase := .waitEnable, since := s.dt })
  else if h.phase = .waitReady ∨ h.phase = .waitBrake then
    s.setHoist (fun h => { h with pretorque := m.pretorque, inspection := m.inspection })
  else s

/-! ## Completions (R114, R115) -/

/-- Result words of a hoist command. -/
def Dev.hResult (s : Dev) (m : HMotion) (cause : Nat) (superseded : Bool) : List Word :=
  let w := cause + 256 * b2n superseded + 512 * b2n m.clamped + 1024 * b2n m.vlimit
  if m.kind = .speed then [wordN w, wordI s.cpf.x]
  else [wordN w, wordI s.cpf.x, wordN m.interimLanding]

/-- Complete the command of a motion; advance openings hear of a goto that ends ABORTED (06 R139). -/
def Dev.hFinish (s : Dev) (m : HMotion) (st : Status) (cause : Nat) (superseded : Bool) (at_ : Nat) : Dev :=
  let s := if m.kind = .goto ∧ st = .aborted ∧ m.desc.isSome then
      { s with door := { s.door with gotoLost := true } } else s
  s.completeOpt m.desc st at_ (s.hResult m cause superseded)

/-- Complete the active command, and the one that waits for a dwell, and keep their motions. -/
def Dev.hFinishActive (s : Dev) (st : Status) (cause : Nat) (superseded : Bool) (at_ : Nat) : Dev :=
  let s := match s.hoist.active with
    | some m => (s.hFinish m st cause superseded at_).setHoist
        (fun h => { h with active := some { m with desc := none } })
    | none => s
  match s.hoist.next with
  | some m => (s.hFinish m st cause superseded at_).setHoist
      (fun h => { h with next := some { m with desc := none } })
  | none => s

/-- The set-point or profile ends here: clear RUN and BRAKE_LIFT (R105, R110). Stop commands wait for rest (R103). -/
def Dev.hKill (s : Dev) (st : Status) (cause : Nat) (stopped : Bool) : Dev :=
  let s := s.hFinishActive st cause false s.cpf.tk
  let s := s.setHoist (fun h => { h with
    active := none, next := none, plan := none, run := false,
    phase := if h.phase = .quickStop ∨ h.phase = .coasting then .coasting else .braking,
    brakeLift := false, qstop := false, levelling := false, kin := .at_ s.cpf.x })
  if stopped then s.event 4 6 9 0 s.cpf.tk [cause, s.cpf.x, s.cpf.v] else s

/-! ## Interim stops (R95) -/

/-- The first landing of a deck whose target lies at or beyond a point in a direction, and within the
virtual limits (R95, R97). -/
def Dev.firstLanding (s : Dev) (deck : Nat) (p dir : Int) : Option (Nat × Int) :=
  match s.cpf.table with
  | none => none
  | some t =>
    (List.range t.entries.length).foldl (fun best l =>
      match s.landingTarget l deck with
      | some x =>
        if p * dir ≤ x * dir ∧ s.nextLo ≤ x ∧ x ≤ s.nextHi then
          match best with
          | none => some (l, x)
          | some (_, y) => if x * dir < y * dir then some (l, x) else best
        else best
      | none => best) none

/-- The interim stop of R95: the nearer of the old target and the first landing of the deck beyond the
stopping point. -/
def Dev.interimStop (s : Dev) (deck : Nat) : Option (Nat × Int) :=
  let dir := s.hoist.kin.dir
  let old := match s.hoist.active with
    | some m => m.target.map (fun x => (m.landing, x))
    | none => none
  match old, s.firstLanding deck s.stopPoint dir with
  | some (l, x), some (l', x') => if x' * dir < x * dir then some (l', x') else some (l, x)
  | some a, none => some a
  | none, b => b

/-- A motion to a stop, with no command of its own. -/
def interimMotion (l deck : Nat) (x : Int) (afterAbort : Bool) : HMotion :=
  { kind := .interim, desc := none, landing := l, deck := deck, target := some x, cap := 0, setPoint := 0,
    pretorque := 0, inspection := false, clamped := false, vlimit := false, afterAbort := afterAbort,
    interimLanding := 0xFFFF }

def stopMotion (x : Int) : HMotion := { interimMotion 0xFFFF 0 x false with kind := .stopPoint }

/-- Run on to the interim stop, or to the stopping point when there is none (log entry 13). -/
def Dev.runOn (s : Dev) (deck : Nat) (afterAbort : Bool) : Dev :=
  match s.interimStop deck with
  | some (l, x) => s.begin (interimMotion l deck x afterAbort)
  | none => s.begin { stopMotion s.stopPoint with afterAbort := afterAbort }

/-- The car is at rest: the stop commands are done (R103). -/
def Dev.stopsDone (s : Dev) (at_ : Nat) : Dev :=
  (s.hoist.stops.foldl (fun s d => s.complete d .done at_ [wordI s.cpf.x]) s).setHoist (fun h => { h with stops := [] })

/-- At rest loop L0's position term is in force again (R98, 07 R160). -/
def Dev.clearFfOnly (s : Dev) : Dev := s.setLoop 0 { s.loop 0 with ffOnly := false }

/-- Give up a run that has not begun to move: clear RUN and BRAKE_LIFT. -/
def Dev.cancelStart (s : Dev) : Dev :=
  let atRest := s.hoist.phase == .waitEnable || s.hoist.phase == .rest
  let s := if atRest then s.clearFfOnly else s
  (s.setHoist (fun h => { h with
    active := none, next := none, plan := none, run := false, brakeLift := false, pretorque := 0,
    phase := if atRest then .rest else .braking })).stopsDone s.dt

/-- The active command is taken away by an abort or a stop (R103): what is left of the run. A disable under way
goes on: the car stops at the stopping point, or at once. -/
def Dev.afterStop (s : Dev) (atLanding : Bool) : Dev :=
  let deck := (s.hoist.active.map (·.deck)).getD 0
  if s.hoist.phase = .quickStop ∨ s.hoist.phase = .coasting then s
  else if s.hoist.live && s.hoist.kin.moving then
    let s := s.setHoist (fun h => { h with next := none })
    if atLanding && s.hoist.disables.isEmpty then s.runOn deck true else s.begin (stopMotion s.stopPoint)
  else if s.hoist.live || s.hoist.phase == .dwell then
    (s.setHoist (fun h => { h with
      active := none, next := none, plan := none, phase := .braking, brakeLift := false })).stopsDone s.dt
  else s.cancelStart

/-! ## Deciding commands (R93-R99, R103) -/

/-- An UNREACHABLE outcome: the old target stands. -/
def Dev.hUnreachable (s : Dev) (m : HMotion) (want : Int) (cause : Nat) : Dev :=
  let s := s.event 4 4 4 0 s.dt [want, s.stopPoint, cause]
  (s.chrInc 4 4).hFinish m .unreachable cause false s.dt

/-- Take a new command: the earlier one completes superseded (R96). An interim stop's goto that is still
to complete there keeps its command. -/
def Dev.supersede (s : Dev) : Dev := s.hFinishActive .aborted 2 true s.dt

/-- The goto a descriptor describes. -/
def Dev.gotoOf (s : Dev) (d : Desc) : HMotion × Bool :=
  let l := bitsOf (d.w 3) 15 0
  let deck := bitsOf (d.w 3) 16 16
  let cap := bitsOf (d.w 5) 15 0
  ({ kind := .goto, desc := some d, landing := l, deck := deck,
     target := if l = 0xFFFF then some (sWord (d.w 4) - deck * s.gotoDeckOfs) else s.landingTarget l deck,
     cap := cap, setPoint := 0, pretorque := sBitsOf (d.w 5) 31 16, inspection := false,
     clamped := decide (s.fld Reg.msqHvmax 31 0 < cap * 1000), vlimit := false, afterAbort := false,
     interimLanding := 0xFFFF }, bitOf (d.w 3) 17)

/-- A goto that turns the car round through an interim stop (R95). An earlier goto whose target is that
stop keeps its command (R96), but its doors stay closed: an advance opening for it is lost. -/
def Dev.reverseGoto (s : Dev) (m : HMotion) (x : Int) : Dev :=
  match s.interimStop m.deck with
  | none => s.hUnreachable m x 6
  | some (l, xi) =>
    let old := s.hoist.active
    let keeps : Bool := match old with
      | some o => decide (o.target = some xi ∧ (o.kind = .goto ∨ o.kind = .interim)) && o.desc.isSome
      | none => false
    let s := if keeps then { s with door := { s.door with gotoLost := true } } else s.supersede
    let s := match s.hoist.next with
      | some n => (s.hFinish n .aborted 2 true s.dt).setHoist (fun h => { h with next := none })
      | none => s
    let im := interimMotion l m.deck xi false
    let im := if keeps then { im with desc := old.bind (·.desc), deck := (old.map (·.deck)).getD m.deck } else im
    ((s.unlevelled m).setHoist (fun h => { h with next := some { m with interimLanding := l } })).begin im

/-- Table 5-3. While an inverter fault waits for DRV_FAULT_RESET no run is accepted (R105), and while a disable waits
for rest a command ends with the axis (R103, log entry 13). -/
def Dev.decideGoto (s : Dev) (d : Desc) : Dev :=
  let (m, rev) := s.gotoOf d
  match m.target with
  | none => s.fail d .badDescriptor
  | some x =>
    if !s.hoist.enabled ∨ !s.cpfFit then s.hFinish m .refusedInterlock 0 false s.dt
    else if !s.hoist.disables.isEmpty then s.hFinish m .aborted 14 false s.dt
    else if s.hoist.faultHeld then s.hFinish m .hwFault 8 false s.dt
    else if !s.drv.linkUp then s.hFinish m .hwFault 9 false s.dt
    else if x < s.nextLo ∨ s.nextHi < x then s.hUnreachable m x 5
    else
      let k := s.hoist.kin
      if !k.moving then
        if dist x k.xUm ≤ s.hTol then
          let s := s.supersede
          let s := if s.hoist.phase = .rest then s else s.afterStop true
          (s.hFinish m .done 0 false s.dt).setHoist (fun h => { h with
            levelled := if m.landing = 0xFFFF then none else some (m.landing, m.deck, x) })
        else if s.hoist.phase = .dwell then
          s.supersede.setHoist (fun h => { h with next := some m })
        else
          (s.supersede.setHoist (fun h => { h with next := none })).begin m
      else
        let ahead := decide (0 ≤ (x - k.xUm) * k.dir)
        if ahead && decide (s.stopPoint * k.dir ≤ x * k.dir) then
          (s.supersede.setHoist (fun h => { h with next := none })).begin m
        else if rev then s.reverseGoto m x
        else s.hUnreachable m x (if ahead then 3 else 4)

/-- MSQ_H_SPEED (R99). Outside the virtual limits only a set-point toward the interior is accepted (R97). A set-point
of 0 at rest is done at once and leaves re-levelling as it is (log entry 13). -/
def Dev.decideSpeed (s : Dev) (d : Desc) : Dev :=
  let want := sWord (d.w 3)
  let lim : Int := min (s.hfld Reg.msqHspdv 31 0) (s.vActive 0)
  let v := clampI (-lim) lim want
  let m : HMotion :=
    { kind := .speed, desc := some d, landing := 0xFFFF, deck := 0, target := none, cap := 0, setPoint := v,
      pretorque := 0, inspection := bitOf (d.w 4) 0, clamped := v != want, vlimit := false,
      afterAbort := false, interimLanding := 0xFFFF }
  let cpe := s.cpf.x
  if !s.hoist.enabled ∨ !s.cpfFit then s.hFinish m .refusedInterlock 0 false s.dt
  else if !s.hoist.disables.isEmpty then s.hFinish m .aborted 14 false s.dt
  else if s.hoist.faultHeld then s.hFinish m .hwFault 8 false s.dt
  else if !s.drv.linkUp then s.hFinish m .hwFault 9 false s.dt
  else if (s.nextHi < cpe ∧ 0 ≤ v) ∨ (cpe < s.nextLo ∧ v ≤ 0) then s.hUnreachable m cpe 5
  else
    let s := if m.clamped then s.setBit Reg.msqHstat 7 true else s
    let s := s.supersede.setHoist (fun h => { h with next := none })
    if !s.hoist.kin.moving && v == 0 then
      let s := if s.hoist.phase = .rest then s else s.afterStop true
      s.hFinish m .done 0 false s.dt
    else if s.hoist.phase = .dwell then s.setHoist (fun h => { h with next := some m })
    else s.begin m

/-- MSQ_H_STOP (R103). -/
def Dev.decideStop (s : Dev) (d : Desc) : Dev :=
  if s.hoist.phase = .rest then s.complete d .done s.dt [wordI s.cpf.x]
  else
    let s := s.hFinishActive .aborted 1 false s.dt
    let s := s.setHoist (fun h => { h with stops := h.stops ++ [d] })
    s.afterStop (bitOf (d.w 3) 0)

/-- The Drive Port stops with the axis. -/
def Drv.stopped (d : Drv) : Drv :=
  { d with running := false, version := 0, hellos := none, linkUp := false, awaiting := none, fresh := false }

/-- Disable the axis and the Drive Port, and complete the disables that wait. A command taken up while the
disable was under way ends with it (cause 0x0E). -/
def Dev.hDisable (s : Dev) (st : Status) : Dev :=
  let ds := s.hoist.disables
  let s := (s.hFinishActive .aborted 14 false s.dt).stopsDone s.dt
  let s := s.setHoist (fun h => { h with
    enabled := false, phase := .rest, disables := [], active := none, next := none, plan := none,
    run := false, brakeLift := false, qstop := false, levelled := none, offSince := none, kin := .at_ s.cpf.x })
  let s := { s with drv := s.drv.stopped, lpe := { s.lpe with groups := kput none s.lpe.groups 64 none } }
  let s := s.clearFfOnly
  ds.foldl (fun s d => s.complete d st s.dt [if st = .timeout then 13 else 0]) s

/-- MSQ_H_DISABLE (R103). -/
def Dev.decideDisable (s : Dev) (d : Desc) : Dev :=
  if !s.hoist.enabled then s.complete d .done s.dt [0]
  else
    let s := s.hFinishActive .aborted 14 false s.dt
    let s := s.setHoist (fun h => { h with disables := h.disables ++ [d] })
    if bitOf (d.w 3) 0 then
      let s := s.setHoist (fun h => { h with active := none, next := none, plan := none, since := s.dt })
      if s.bit Reg.msqHcfg 0 then
        s.setHoist (fun h => { h with run := false, brakeLift := false, phase := .coasting })
      else s.setHoist (fun h => { h with qstop := true, phase := .quickStop })
    else
      let s := if s.hoist.phase = .rest then s else s.afterStop false
      if s.hoist.phase = .rest then s.hDisable .done else s

/-- MSQ_HSTAT as it reads (Table 5-10). -/
def Dev.hstat (s : Dev) : Nat :=
  s.hMode + 8 * b2n s.hoist.enabled
    + 16 * b2n ((s.hoist.active.map (·.kind)) == some .relevel)
    + 32 * b2n (s.hoist.phase == .dwell)
    + 64 * b2n (decide (s.cpf.x < s.hLo ∨ s.hHi < s.cpf.x))
    + 128 * s.fld Reg.msqHstat 7 7

/-- MSQ_H_READ: the sample of the step at which it is decided. -/
def Dev.decideRead (s : Dev) (d : Desc) : Dev :=
  let k := s.hoist.kin
  s.complete d .done s.dt [wordI k.xUm, wordI k.vUm, wordI k.aUm, wordN s.hstat, wordI (s.stopOf k)]

/-- The setup with which the axis cannot be enabled (R112). -/
def Dev.enableBad (s : Dev) : Bool :=
  s.fld Reg.msqHvmax 31 0 == 0 || s.hA == 0 || s.hJ == 0 || decide (s.nextHi ≤ s.nextLo) || !s.cpfEnabled

/-- MSQ_H_ENABLE (R111, R112): the hoist's duties are admitted and the Drive Port starts. -/
def Dev.decideEnable (s : Dev) (d : Desc) : Dev :=
  if s.enableBad then s.complete d .badDescriptor s.dt []
  else if s.hoist.enabled ∨ s.drv.running then s.complete d .reconfigBusy s.dt []
  else if !s.hoistAdmissible then s.complete d .refusedLedger s.dt []
  else
    let v := s.fld Reg.drvCfg 1 0
    let fixed := v == 1 || v == 2
    s.admitHoist.setDrv (fun r => { r with
      running := true, version := if fixed then v else 0, hellos := if fixed then none else some 0,
      settledFor := 0, sentFor := none, enableDesc := some d, awaiting := none, badRow := 0, goodRow := 0, linkUp := false,
      fresh := false, missing := 0, bad := 0 })

/-- One command at its decision instant, in dispatch order (R93). -/
def Dev.decideHoist (s : Dev) (d : Desc) : Dev :=
  match d.opcode with
  | 0x0401 => s.decideEnable d
  | 0x0406 => s.decideRead d
  | 0x0403 => s.decideGoto d
  | 0x0404 => s.decideSpeed d
  | 0x0405 => s.decideStop d
  | _ => s.decideDisable d

/-! ## Aborts (R96, R100, R103) -/

/-- The car stands after its motion: the brake-setting sequence begins (R102), the stops are done. -/
def Dev.hSetBrake (s : Dev) (at_ : Nat) : Dev :=
  (s.stopsDone at_).setHoist (fun h => { h with
    active := none, next := none, plan := none, phase := .braking, brakeLift := false,
    levelling := false })

/-- Is a motion that of the command? -/
def HMotion.isOf (d : Desc) (m : Option HMotion) : Bool :=
  match m.bind (·.desc) with
  | some e => e.same d
  | none => false

/-- A host abort of a hoist command (R96, R100, R103): one that waits for its decision is removed, an
active one completes ABORTED with cause 0x01 and the car runs on. -/
def Dev.hoistAbort (s : Dev) (d : Desc) : Option Dev :=
  if s.hoist.waiting.any (fun e => e.1.same d) then
    some ((s.setHoist (fun h => { h with waiting := h.waiting.filter (fun e => !e.1.same d) })).complete
      d .aborted s.dt [1])
  else
    if HMotion.isOf d s.hoist.active then
      match s.hoist.active with
      | some m =>
        let s := (s.hFinish m .aborted 1 false s.dt).setHoist
          (fun h => { h with active := some { m with desc := none } })
        some (if s.hoist.next.isSome then s else s.afterStop true)
      | none => none
    else if HMotion.isOf d s.hoist.next then
      match s.hoist.next with
      | some m =>
        let s := (s.hFinish m .aborted 1 false s.dt).setHoist (fun h => { h with
          next := none, active := h.active.map (fun a => { a with afterAbort := true }) })
        some (if s.hoist.phase = .dwell then s.hSetBrake s.dt else s)
      | none => none
    else none

/-- An active command aborted between a period's instant and its profile step may still commit at that instant: the
step decides (R102, 15 R345). -/
def Dev.hoistDefers (s : Dev) (d : Desc) : Bool :=
  (HMotion.isOf d s.hoist.active || HMotion.isOf d s.hoist.next) && decide (s.cpf.tk ≤ s.dt)
    && decide (s.hoist.sampleAt < s.cpf.tk + 250000)

def Dev.hoistDefer (s : Dev) (t a : Desc) : Dev :=
  s.setHoist (fun h => { h with aborts := h.aborts ++ [(t, a, s.dt)] })

/-- An abort that has waited for the profile step: the command's completion at the step's t_k came first, or the abort
applies as of its acceptance. -/
def Dev.hAbortEnd (s : Dev) (e : Desc × Desc × Nat) : Dev :=
  match { s with dt := e.2.2 }.hoistAbort e.1 with
  | some x => { x.complete e.2.1 .abortApplied e.2.2 [0, 8] with dt := s.dt }
  | none =>
    (s.complete e.2.1 .abortTooLate e.2.2 [0, match s.fateOf e.2.1 with
      | some st => wordN st.code
      | none => 0xFFFFFFFF]).dropFate e.2.1

/-- The aborts that come before this step's t_k, and those that come after. -/
def Dev.hAbortsBefore (s : Dev) : Dev :=
  let l := s.hoist.aborts.filter (fun e => decide (e.2.2 < s.cpf.tk))
  l.foldl Dev.hAbortEnd (s.setHoist (fun h => { h with aborts := h.aborts.filter (fun e => decide (s.cpf.tk ≤ e.2.2)) }))
def Dev.hAbortsAfter (s : Dev) : Dev :=
  s.hoist.aborts.foldl Dev.hAbortEnd (s.setHoist (fun h => { h with aborts := [] }))

/-! ## The step (R89) -/

/-- The inverter's FAULT ends the run and holds off the next one; the permit withdrawn or the link lost end
the run (R105, R110). -/
def Dev.hGuards (s : Dev) : Dev :=
  let fault := s.invBit 3 && s.drv.fresh
  let s := if fault then s.setHoist (fun h => { h with faultHeld := true }) else s
  let h := s.hoist
  let busy := h.active.isSome || h.next.isSome
  if h.phase = .rest then s
  else if fault then s.hKill .hwFault 8 false
  else if h.phase = .quickStop then (if s.motionGranted then s else s.hKill .aborted 7 true)
  else if h.phase = .coasting then s
  else if busy && !s.drv.linkUp then s.hKill .hwFault 9 false
  else if h.phase != .waitEnable && !s.motionGranted then
    if busy && h.phase != .braking then s.hKill .aborted 7 true
    else s.setHoist (fun h => { h with run := false, brakeLift := false })
  else s

/-- Entry to SUSPECT or LOST acts at the first step after the change, on a run and on a goto that waits for
its dwell (R98). Entry to LOST away from rest holds loop L0 at feed-forward until rest (07 R160). -/
def Dev.hCpfChange (s : Dev) : Dev :=
  let was := s.hoist.lastCpf
  let now := s.cpf.state
  let s := s.setHoist (fun h => { h with lastCpf := now })
  let busy := s.hoist.active.isSome || s.hoist.next.isSome
  if was = now then s
  else
    let s := if now = .lost ∧ s.hoist.phase ≠ .rest then s.setLoop 0 { s.loop 0 with ffOnly := true } else s
    if s.cpf.run.isSome ∨ !busy then s
    else if now = .suspect ∧ s.hoist.disables.isEmpty then
      let deck := (s.hoist.active.map (·.deck)).getD 0
      let s := s.hFinishActive .aborted 10 false s.dt
      if s.hoist.live && s.hoist.kin.moving then
        (s.setHoist (fun h => { h with next := none })).runOn deck false
      else s.afterStop true
    else if now = .lost then
      let s := s.hFinishActive .aborted 11 false s.dt
      if s.hoist.live && s.hoist.kin.moving then
        let m := { stopMotion 0 with target := none }
        (s.setHoist (fun h => { h with next := none, active := some m, phase := .travel })).planSpeed m 0
      else s.afterStop true
    else s

/-- Compute the profile sample for t_k + 250 µs. -/
def Dev.hSample (s : Dev) : Dev :=
  let ts := s.cpf.tk + 250000
  match s.hoist.plan with
  | some p =>
    let (k, ended) := p.at_ ts
    let moved := dist k.xUm s.hoist.kin.xUm
    s.setHoist (fun h => { h with
      prior := h.kin, kin := k, sampleAt := ts, travelled := h.travelled + moved,
      runTravel := h.runTravel + moved,
      phase := if ended && h.phase == .travel && p.target.isSome then .settle else h.phase,
      since := if ended && h.phase == .travel && p.target.isSome then ts else h.since })
  | none => s.setHoist (fun h => { h with
      prior := h.kin, sampleAt := ts, kin := if h.phase = .travel then h.kin else .at_ s.cpf.x })

/-- H_ARRIVED, and its stop is counted when it is not interim (R102, 18 R399). -/
def Dev.arrived (s : Dev) (m : HMotion) (interim : Bool) (x : Int) : Dev :=
  let s := s.event 4 2 3 0 s.cpf.tk
    [m.landing, m.deck + 2 * b2n interim + 4 * b2n m.afterAbort, s.cpf.x - x]
  if interim ∨ 256 ≤ m.landing then s else s.chrInc 4 (7 + m.landing)

/-- Bin of a value in a histogram of 32 bins (18 R400). -/
def histBin (v first width : Int) : Nat := (clampI 0 31 (idiv (v - first) width)).toNat

/-- SLIPADAPT (04 CPF_CFG): SLIP0 goes an eighth of the way to the slip observed on the run, whose
value the spec does not say how to compute: a free value (log entry 39). -/
def Dev.adaptSlip (s : Dev) : Dev :=
  let slip := s.csfld Reg.cpfSlip 15 0
  let observed := wrapS 16 s.free
  s.drawn.setCfld Reg.cpfSlip 15 0 (wrapU 16 (slip + idiv (observed - slip) 8))

/-- A run has completed: counters and the ride-quality histogram (18 R399, R400). A pass of the learning run, which
writes SLIP0 itself, adapts no slip (04 R82). -/
def Dev.runDone (s : Dev) : Dev :=
  let h := s.hoist
  let s := ((s.chrInc 4 1).chrAdd 4 2 (h.travelled / 1000000)).chrInc 10 (histBin h.peakAcc 0 50000)
  let s := s.setHoist (fun h => { h with travelled := h.travelled % 1000000, peakAcc := 0, runTravel := 0 })
  if s.cbit Reg.cpfCfg 4 && decide (10000000 ≤ h.runTravel) && s.cpf.state != .learning then s.adaptSlip else s

/-- The commit of a motion at its target (R102, R95, R99, R104). -/
def Dev.commitMotion (s : Dev) (m : HMotion) (x : Int) : Dev :=
  let tk := s.cpf.tk
  match m.kind with
  | .interim =>
    let s := (s.hFinish m .done 0 false tk).arrived m (!m.afterAbort) x
    let s := { s with door := { s.door with gotoLost := true } }
    if s.hoist.next.isSome then
      s.setHoist (fun h => { h with active := none, plan := none, phase := .dwell, since := tk })
    else s.runDone.hSetBrake tk
  | .goto =>
    let s := (s.hFinish m .done 0 false tk).arrived m false x
    let s := { s with door := { s.door with gotoDone := true } }
    let s := s.runDone.hSetBrake tk
    s.setHoist (fun h => { h with
      levelled := if m.landing = 0xFFFF ∨ m.desc = none then none else some (m.landing, m.deck, x),
      offSince := none })
  | .relevel =>
    let s := (s.event 4 2 6 0 tk [m.landing, s.cpf.x - x]).chrInc 4 3
    s.hSetBrake tk
  | .speed => (s.hFinish m .done 0 false tk).runDone.hSetBrake tk
  | .stopPoint =>
    let s := if m.afterAbort then s.arrived m false x else s
    s.runDone.hSetBrake tk
  | .cpfSpeed | .cpfLevel => s.hSetBrake tk

/-- Arrival: CPE within HLEVTOL of the target at a speed of at most HSTOPV (R102). A stop, and a speed
command that ends at a virtual limit, are done at rest wherever that is (R99, R103). -/
def Dev.hArrive (s : Dev) : Dev :=
  match s.hoist.phase, s.hoist.active with
  | .settle, some m =>
    match m.target with
    | some x =>
      if decide (s.hoist.since < s.cpf.tk + 250000) && decide (m.kind = .speed ∨ m.kind = .stopPoint ∨ dist s.cpf.x x ≤ s.hTol) &&
          decide (s.cpf.v.natAbs ≤ s.hfld Reg.msqHlev 15 0) then s.commitMotion m x
      else s
    | none => s
  | _, _ => s

/-- The direction in which the speed profile takes the car: that of its motion, from rest that of the set-point. -/
def Dev.speedDir (s : Dev) : Int :=
  if s.hoist.kin.dir ≠ 0 then s.hoist.kin.dir
  else match s.hoist.plan with
    | some p => p.vEnd.sign
    | none => 0

/-- Would the stopping point of the next sample lie beyond a position in a direction: the switch is made at the last
sample from which the car can still end there (R99, log entry 13). -/
def Dev.passesNext (s : Dev) (lim d : Int) : Bool :=
  decide (lim * d ≤ s.stopOf s.hoist.kin * d) ||
    (match s.hoist.plan with
     | some p => decide (lim * d < s.stopOf (p.at_ (s.hoist.sampleAt + 250000)).1 * d)
     | none => false)

/-- The check of each step whether the speed profile reaches a virtual limit, that planned in this step included: the
position profile that ends at the limit takes over (R97, R99). A car that can no longer stop there, the limits or CPE
having moved, stops at its stopping point (log entry 13). -/
def Dev.hLimit (s : Dev) : Dev :=
  match s.hoist.phase, s.hoist.active with
  | .travel, some m =>
    let d := s.speedDir
    let lim := if 0 < d then s.hHi else s.hLo
    let sp := s.stopOf s.hoist.kin
    if m.kind = .speed ∧ m.target = none ∧ d ≠ 0 ∧ s.passesNext lim d then
      let s := s.event 4 4 8 0 s.cpf.tk [lim, s.cpf.x, s.cpf.v]
      s.begin { m with vlimit := true, target := some (if sp * d ≤ lim * d then lim else sp) }
    else s
  | _, _ => s

/-- The speed profile: done at its set-point, turned at zero (R99). -/
def Dev.hSpeedMode (s : Dev) : Dev :=
  match s.hoist.phase, s.hoist.active with
  | .travel, some m =>
    match m.target with
    | some _ => s
    | none =>
      let k := s.hoist.kin
      if k.a = 0 ∧ k.v = m.setPoint * vUnit then
        let s := s.hFinish m .done 0 false s.cpf.tk
        let s := s.setHoist (fun h => { h with active := some { m with desc := none } })
        if m.setPoint = 0 then s.runDone.hSetBrake s.cpf.tk else s
      else if !k.moving && (match s.hoist.plan with | some p => decide (p.vEnd = 0) | none => false) then
        s.setHoist (fun h => { h with phase := .dwell, since := s.cpf.tk, plan := none })
      else s
  | _, _ => s

/-- The start sequence (R100). -/
def Dev.hStart (s : Dev) : Dev :=
  match s.hoist.phase, s.hoist.active with
  | .waitEnable, some m =>
    if s.motionGranted && !s.hoist.faultHeld then
      (s.chrInc 4 0).setHoist (fun h => { h with
        run := true, pretorque := m.pretorque, inspection := m.inspection, phase := .waitReady, since := s.dt,
        peakAcc := 0, runTravel := 0 })
    else s
  | .waitReady, some _ =>
    if s.invReady then s.setHoist (fun h => { h with brakeLift := true, phase := .waitBrake }) else s
  | .waitBrake, some m =>
    if s.brakeLifted then
      let s := (s.unlevelled m).setHoist (fun h => { h with pretorque := 0, phase := .travel, kin := .at_ s.cpf.x })
      let s := s.planMotion m
      let dur := match s.hoist.plan with | some p => totalDur p.segs | none => 0
      s.event 4 1 1 0 s.hoist.sampleAt [m.target.getD 0, s.hoist.peak, (dur / 1000000 : Nat)]
    else s
  | _, _ => s

/-- The brake-setting sequence and immediate stops (R102, R103). -/
def Dev.hBraking (s : Dev) : Dev :=
  match s.hoist.phase with
  | .braking =>
    if s.brakeLifted then s
    else
      let s := (s.setHoist (fun h => { h with run := false })).stopsDone s.dt
      let s := s.clearFfOnly
      if !s.hoist.disables.isEmpty then s.hDisable .done
      else s.setHoist (fun h => { h with
        phase := if h.active.isSome then .waitEnable else .rest, since := s.dt })
  | .quickStop =>
    if s.drv.last.speed = 0 then s.setHoist (fun h => { h with run := false, brakeLift := false, phase := .coasting })
    else s
  | .coasting => if s.brakeLifted then s else s.hDisable .done
  | _ => s

/-- The motion a learning or correction run asks for (04 R81, R84): its speed, then levelling. -/
def Dev.cpfMotion (s : Dev) : Option HMotion :=
  match s.cpf.run with
  | none => none
  | some r =>
    let lev := (r.learning && r.step == 5) || (!r.learning && r.step == 4)
    let m := { stopMotion 0 with target := none }
    if lev then
      let t := if r.learning then s.cpf.staged else s.cpf.table
      match t.bind (fun t => t.entries[r.landing]?) with
      | some e => some { m with kind := .cpfLevel, target := some e.sill, landing := r.landing }
      | none => none
    else some { m with kind := .cpfSpeed, setPoint := s.cpf.drive }

/-- CPF drives the car during its runs. -/
def Dev.hCpfDrive (s : Dev) : Dev :=
  let isCpf (m : HMotion) : Bool := m.kind == .cpfSpeed || m.kind == .cpfLevel
  match s.cpfMotion, s.hoist.active with
  | none, some m =>
    if isCpf m && (m.kind == .cpfLevel || m.setPoint != 0) then
      if s.hoist.live && s.hoist.kin.moving then
        s.begin { m with kind := .cpfSpeed, target := none, setPoint := 0 }
      else s.afterStop false
    else s
  | some m, some a =>
    if isCpf a && (a.kind != m.kind || a.setPoint != m.setPoint || a.target != m.target) then s.begin m else s
  | some m, none =>
    let there := match m.target with
      | some x => decide (dist s.cpf.x x ≤ s.hTol)
      | none => m.setPoint == 0
    if there || !s.hoist.enabled || !s.hoist.disables.isEmpty || s.hoist.faultHeld || s.hoist.phase == .dwell then s
    else s.begin m
  | none, none => s

/-- Since when the car has been off its landing (R104). -/
def Dev.hOff (s : Dev) : Dev :=
  match s.hoist.levelled with
  | some (_, _, x) =>
    if s.hoist.phase = .rest ∧ s.hfld Reg.msqHrelev 31 16 < dist s.cpf.x x then
      s.setHoist (fun h => { h with offSince := some (h.offSince.getD s.cpf.tk) })
    else s.setHoist (fun h => { h with offSince := none })
  | none => s

/-- MSQ_PROFILE_STEP. Order within the step: log entry 14. -/
def msqProfileStep (s : Dev) : Dev :=
  let s := s.forceStep.hAbortsBefore.hGuards.hSample
  let s := s.hArrive.hSpeedMode.hAbortsAfter.hCpfChange
  let w := s.hoist.waiting
  let s := s.setHoist (fun h => { h with waiting := [], peakAcc := max h.peakAcc s.cpf.a.natAbs })
  let s := w.foldl (fun s d => s.decideHoist d.1) s
  let s := s.hCpfDrive.hStart.hLimit.hBraking.hOff
  { s with drv := { s.drv with fresh := false } }

/-! ## Timed rows -/

/-- HOIST_DWELL_END (R95, R99): the run goes on from rest, the brake being lifted. -/
def hoistDwellEnd (s : Dev) : Dev :=
  if s.hoist.phase = .dwell ∧ s.hoist.since + s.hDwell ≤ s.dt then
    s.setHoist (fun h => { h with
      active := if h.next.isSome then h.next else h.active, next := none, phase := .waitBrake, since := s.dt })
  else s

def execHoistDwellEnd (s : State) : Host.Outcome State Fault Refusal := s.upd (whenOn 6 hoistDwellEnd)

/-- H_RELEVEL_BLOCKED: retried after a further RELEV_DELAY (R104). -/
def Dev.relevelBlocked (s : Dev) (l : Nat) (noPermit : Bool) : Dev :=
  (s.event 4 6 7 0 s.cpf.tk [l, s.cpf.state.code, b2n noPermit]).setHoist
    (fun h => { h with offSince := some s.dt })

/-- HOIST_START_TIMEOUT (R100, R104). -/
def hoistStartTimeout (s : Dev) : Dev :=
  let h := s.hoist
  match h.active with
  | none => s
  | some m =>
    if h.since + s.hStartTo ≤ s.dt then
      match h.phase, m.kind with
      | .waitEnable, .relevel => s.cancelStart.relevelBlocked m.landing true
      | .waitReady, _ | .waitBrake, _ => (s.hFinishActive .timeout 12 false s.dt).cancelStart
      | _, _ => s
    else s

def execHoistStartTimeout (s : State) : Host.Outcome State Fault Refusal := s.upd (whenOn 6 hoistStartTimeout)

/-- HOIST_STOP_TIMEOUT (R102, R103). -/
def hoistStopTimeout (s : Dev) : Dev :=
  let h := s.hoist
  if h.since + s.hStopTo ≤ s.dt then
    match h.phase with
    | .settle => ((s.hFinishActive .timeout 13 false s.dt).setHoist (fun h => { h with
        levelled := if h.active.map (·.kind) = some .relevel then h.levelled else none })).hSetBrake s.dt
    | .quickStop | .coasting => s.hDisable .timeout
    | _ => s
  else s

def execHoistStopTimeout (s : State) : Host.Outcome State Fault Refusal := s.upd (whenOn 6 hoistStopTimeout)

/-- RELEVEL_START (R104): loop L0 goes to its re-levelling parameters (07 R170). -/
def relevelStart (s : Dev) : Dev :=
  match s.hoist.levelled, s.hoist.offSince with
  | some (l, deck, x), some t =>
    if bitOf (s.hreg Reg.msqHcfg) 1 && s.hoist.phase == .rest && s.hoist.active.isNone && !s.hoist.faultHeld &&
        decide (t + s.hfld Reg.msqHrelevt 15 0 * 1000000 ≤ s.dt) then
      if !s.cpfFit then s.relevelBlocked l false
      else
        let s := s.event 4 2 5 0 s.dt [l, s.cpf.x - x]
        (s.handLoop 0 2).begin { interimMotion l deck x false with kind := .relevel }
    else s
  | _, _ => s

def execRelevelStart (s : State) : Host.Outcome State Fault Refusal := s.upd (whenOn 6 relevelStart)

/-! ## Commands (R111, R112, R114) -/

/-- A command waits for its decision instant. -/
def Dev.hWait (s : Dev) (d : Desc) : Dev :=
  s.setHoist (fun h => { h with waiting := h.waiting ++ [(d, s.dt)] })

/-- MSQ_H_DISABLE. -/
def msqHDisable (d : Desc) (s : Dev) : Dev :=
  if d.object ≠ 0 ∨ bitsOf (d.w 3) 31 1 ≠ 0 then s.fail d .badDescriptor else s.hWait d

def execMsqHDisable (d : Desc) (s : State) : Host.Outcome State Fault Refusal := s.cmd d (whenOn 6 (msqHDisable d))

/-- MSQ_H_GOTO: a landing absent from the current table, or deck 1 without DZ1EN, is refused. -/
def msqHGoto (d : Desc) (s : Dev) : Dev :=
  let l := bitsOf (d.w 3) 15 0
  let deck := bitsOf (d.w 3) 16 16
  if d.object ≠ 0 ∨ bitsOf (d.w 3) 31 18 ≠ 0 ∨ (l ≠ 0xFFFF ∧ s.landingTarget l deck = none)
      ∨ (deck = 1 ∧ !s.cbit Reg.cpfCfg 2) then s.fail d .badDescriptor
  else s.hWait d

def execMsqHGoto (d : Desc) (s : State) : Host.Outcome State Fault Refusal := s.cmd d (whenOn 6 (msqHGoto d))

/-- MSQ_H_SPEED. -/
def msqHSpeed (d : Desc) (s : Dev) : Dev :=
  if d.object ≠ 0 ∨ bitsOf (d.w 4) 31 1 ≠ 0 then s.fail d .badDescriptor else s.hWait d

def execMsqHSpeed (d : Desc) (s : State) : Host.Outcome State Fault Refusal := s.cmd d (whenOn 6 (msqHSpeed d))

/-- MSQ_H_STOP. -/
def msqHStop (d : Desc) (s : Dev) : Dev :=
  if d.object ≠ 0 ∨ bitsOf (d.w 3) 31 1 ≠ 0 then s.fail d .badDescriptor else s.hWait d

def execMsqHStop (d : Desc) (s : State) : Host.Outcome State Fault Refusal := s.cmd d (whenOn 6 (msqHStop d))

/-- MSQ_H_READ. -/
def msqHRead (d : Desc) (s : Dev) : Dev := if d.object ≠ 0 then s.fail d .badDescriptor else s.hWait d

def execMsqHRead (d : Desc) (s : State) : Host.Outcome State Fault Refusal := s.cmd d (whenOn 6 (msqHRead d))

end Sys2Proof.Machine
end

