-- ==== Sys2Proof/Machine/Drive.lean ====
section
/-! DEFINITION. The Drive Port and the enable of the hoist axis (05 R106-R116). -/
namespace Sys2Proof.Machine

/-- Append the CRC of R107. -/
def withCrc (b : List Byte) : List Byte := b ++ leBytes 2 (crc16 b).toNat

/-- The last two bytes are the CRC of the others. -/
def crcOk (b : List Byte) : Bool :=
  leAt b (b.length - 2) 2 == (crc16 (b.take (b.length - 2))).toNat

/-! ## Set-point frames (R108, R109) -/

/-- A conversion of R109 into int32; a saturation sets CLAMPED. -/
def Dev.toInt32 (s : Dev) (x : Int) : Int × Dev :=
  (satS 32 x, if satS 32 x = x then s else s.setBit Reg.msqHstat 7 true)

def Dev.ptDiv (s : Dev) : Int := s.cfld Reg.cpfK0 31 0 * (s.fld Reg.pfiPtcfg 7 4 + 1)

/-- The CMD byte of Table 5-5 less FAULT_RESET; RUN and BRAKE_LIFT are clear while the link is lost. -/
def Dev.cmdByte (s : Dev) : Nat :=
  let h := s.hoist
  let up := s.drv.linkUp
  b2n (h.run && up) + 2 * b2n (h.brakeLift && up) + 4 * b2n h.qstop + 16 * b2n (decide (0 < h.kin.dir))
    + 32 * b2n h.levelling + 64 * b2n h.inspection

/-- REMAIN of Table 5-5. -/
def Dev.remain (s : Dev) : Nat :=
  match s.hoist.active.bind (·.target) with
  | some x => dist x s.cpf.x
  | none => 0

/-- A set-point frame of version 2 (Table 5-5) or 1 (Table 5-7). -/
def Dev.setpointFrame (s : Dev) : List Byte × Dev :=
  let vsp := s.lpeOut 0
  let cmd := s.cmdByte + 8 * b2n (s.drv.faultReset != 0)
  let q8 := idiv (vsp * 2 ^ 32) s.ptDiv
  let pre := leBytes 2 (wrapU 16 s.hoist.pretorque)
  if s.drv.version = 2 then
    let (spd, s) := s.toInt32 q8
    let (acc, s) := s.toInt32 (idiv (s.hoist.kin.aUm * 2 ^ 24) s.ptDiv)
    (withCrc (leBytes 2 0x02D5 ++ leBytes 1 1 ++ leBytes 1 s.drv.seq ++ leBytes 1 cmd
      ++ leBytes 1 s.hMode ++ pre ++ leBytes 4 (wrapU 32 spd) ++ leBytes 4 (wrapU 32 acc)
      ++ leBytes 4 (wrapU 32 s.cpf.x) ++ leBytes 4 (s.cpf.tk + 250000) ++ leBytes 4 s.remain
      ++ leBytes 2 0), s)
  else
    let (spd, s) := s.toInt32 (idiv (q8 + 128) 256)
    (withCrc (leBytes 2 0x01D5 ++ leBytes 1 s.drv.seq ++ leBytes 1 (cmd % 16)
      ++ leBytes 4 (wrapU 32 spd) ++ pre ++ leBytes 4 0), s)

def Dev.helloFrame (s : Dev) : List Byte :=
  withCrc (leBytes 2 0x00D5 ++ leBytes 1 0x7F ++ leBytes 1 s.drv.seq ++ leBytes 1 1 ++ leBytes 1 2 ++ leBytes 4 0)

/-- A frame of `n` bytes of ten bits at 12.5 MHz lasts this long, ns (R106, R107). -/
def frameTime (n : Nat) : Nat := 800 * n

/-- DRV_SETPOINT_FRAME: one frame per hoist period, not before TXPH: a HELLO while negotiating, up to 20 of
them (R111), else a set-point frame. -/
def drvSetpointFrame (s : Dev) : Dev :=
  let due := s.cpf.tk + clampN 205 245 (s.fld Reg.drvTxph 7 0) * 1000
  if !s.drv.running ∨ s.dt < due ∨ s.drv.sentFor = some s.cpf.tk then s
  else
  let s := s.setDrv (fun d => { d with sentFor := some s.cpf.tk })
  match s.drv.hellos with
    | some n =>
      if n < 20 then (s.emit (.drvFrame s.helloFrame)).setDrv (fun d => { d with hellos := some (n + 1) })
      else s
    | none =>
      let (b, s) := s.setpointFrame
      (s.emit (.drvFrame b)).setDrv (fun d => { d with
        awaiting := some d.seq, sentEnd := s.dt + frameTime b.length, seq := (d.seq + 1) % 256, settledFor := d.settledFor + 1,
        faultReset := d.faultReset - 1 })

def execDrvSetpointFrame (s : State) : Host.Outcome State Fault Refusal := s.upd (whenOn 8 drvSetpointFrame)

/-! ## Status frames (R107, R108, R110) -/

/-- Stop the Drive Port and answer the enable that waits. -/
def Dev.enableFails (s : Dev) (st : Status) : Dev :=
  let d := s.drv.enableDesc
  let s := s.setDrv (fun d => { d with running := false, version := 0, hellos := none, enableDesc := none,
                                       awaiting := none, linkUp := false })
  (s.setGroup 64 none).completeOpt d st s.dt [0]

/-- A missing or bad frame counts toward the loss of the link (R110). -/
def Dev.drvMiss (s : Dev) : Dev :=
  let s := s.setDrv (fun d => { d with awaiting := none, badRow := d.badRow + 1, goodRow := 0 })
  if s.drv.linkUp && decide (max 1 (s.fld Reg.drvCfg 7 4) ≤ s.drv.badRow) then
    let s := (s.setDrv (fun d => { d with linkUp := false })).setBit Reg.drvStat 3 true
    (s.event 10 8 0x0302 0 s.cpf.tk [s.drv.missing, s.drv.bad, (s.drv.seq + 255) % 256]).chrInc 4 5
  else s

/-- The fields of a valid status frame of the version in use. -/
def Dev.parseStatus (s : Dev) (stopOk : Bool) (b : List Byte) : Option (Nat × DrvStatus) :=
  let ok := stopOk && crcOk b && leAt b 0 1 == 0xD5 && leAt b 1 1 == s.drv.version
  if ok && s.drv.version == 2 && b.length == 24 && leAt b 2 1 == 0x81 then
    some (leAt b 3 1, ⟨leAt b 4 1, leAt b 6 2, leAtS b 8 4, leAtS b 12 2, leAt b 14 2, leAtS b 16 1, b⟩)
  else if ok && s.drv.version == 1 && b.length == 12 then
    some (leAt b 2 1, ⟨leAt b 3 1 % 16, leAt b 8 1, leAtS b 4 4, 0, 0, 0, b⟩)
  else none

/-- Three good frames in a row restore the link, and complete the enable (R110, R111). -/
def Dev.drvRestore (s : Dev) : Dev :=
  if !s.drv.linkUp && decide (3 ≤ s.drv.goodRow) then
    let s := s.setDrv (fun d => { d with linkUp := true })
    let s := s.event 10 2 0x0301 0 s.cpf.tk [s.drv.version]
    match s.drv.enableDesc with
    | some d =>
      let s := (s.setDrv (fun d => { d with enableDesc := none })).setHoist (fun h => { h with
        enabled := true, phase := .rest, kin := .at_ s.cpf.x, lastCpf := s.cpf.state })
      s.complete d .done s.dt [wordN s.drv.version]
    | none => s
  else s

/-- A good status frame: DRV_INV_FAULT at the entry of FAULT; a fault reset completes at FAULT clear. -/
def Dev.drvGood (s : Dev) (st : DrvStatus) : Dev :=
  let was := s.invBit 3
  let s := s.setDrv (fun d => { d with last := st, fresh := true, awaiting := none, badRow := 0,
                                       goodRow := d.goodRow + 1 })
  let s := if s.invBit 3 && !was then
      (s.event 10 8 0x0304 0 s.cpf.tk [st.faultCode, st.status, st.speed]).chrInc 4 6 else s
  let s := match s.drv.resetDesc with
    | some (d, code, _) =>
      if s.invBit 3 then s
      else ((s.setDrv (fun d => { d with resetDesc := none })).setHoist
        (fun h => { h with faultHeld := false })).complete d .done s.dt [wordN code]
    | none => s
  s.drvRestore

/-- The end of the window in which the status frame must start (R110). -/
def Dev.rxClose (s : Dev) : Nat := s.drv.sentEnd + s.fld Reg.drvRxwin 7 0 * 1000

/-- A frame of `n` bytes received in full now began within the window (R108, log entry 43). -/
def Dev.inWindow (s : Dev) (n : Nat) : Bool :=
  decide (s.drv.sentEnd + 2000 + frameTime n ≤ s.dt) && decide (s.dt ≤ s.rxClose + frameTime n)

/-- DRV_STATUS_FRAME. A frame with no set-point frame to answer, or begun outside the window, is not looked
at: the frame of the period then counts as missing. -/
def drvStatusFrame (stopOk : Bool) (b : List Byte) (s : Dev) : Dev :=
  if !s.inWindow b.length then s
  else match s.drv.awaiting with
  | none => s
  | some q =>
    match s.parseStatus stopOk b with
    | some (seq, st) =>
      if seq = q then s.drvGood st
      else ((s.setBit Reg.drvStat 5 true).setDrv (fun d => { d with bad := satInc 16 d.bad })).drvMiss
    | none => ((s.setBit Reg.drvStat 5 true).setDrv (fun d => { d with bad := satInc 16 d.bad })).drvMiss

def execDrvStatusFrame (stopOk : Bool) (bytes : List Byte) (s : State) : Host.Outcome State Fault Refusal :=
  s.upd (whenOn 8 (drvStatusFrame stopOk bytes))

/-- DRV_STATUS_WINDOW_EXPIRY. -/
def drvStatusWindowExpiry (s : Dev) : Dev :=
  match s.drv.awaiting with
  | none => s
  | some _ =>
    if s.dt < s.rxClose then s else (s.setDrv (fun d => { d with missing := satInc 16 d.missing })).drvMiss

def execDrvStatusWindowExpiry (s : State) : Host.Outcome State Fault Refusal :=
  s.upd (whenOn 8 drvStatusWindowExpiry)

/-! ## Negotiation (R111) -/

/-- DRV_HELLO_ACK: the first valid one settles the version or fails the enable. -/
def drvHelloAck (stopOk : Bool) (b : List Byte) (s : Dev) : Dev :=
  match s.drv.hellos with
  | none => s
  | some _ =>
    if stopOk && b.length == 12 && crcOk b && leAt b 0 2 == 0x00D5 && leAt b 2 1 == 0xFF then
      let c := leAt b 4 1
      if 1 ≤ c ∧ c ≤ 2 then s.setDrv (fun d => { d with version := c, hellos := none, settledFor := 0 })
      else
        let s := (s.setBit Reg.drvStat 4 true).event 10 6 0x0303 0 s.cpf.tk [c, 1, 2]
        s.enableFails .badVersion
    else s

def execDrvHelloAck (stopOk : Bool) (bytes : List Byte) (s : State) : Host.Outcome State Fault Refusal :=
  s.upd (whenOn 8 (drvHelloAck stopOk bytes))

/-- DRV_NEGOTIATION_TIMEOUT: after 20 HELLO frames with no answer the module uses version 1. -/
def drvNegotiationTimeout (s : Dev) : Dev :=
  match s.drv.hellos with
  | some n =>
    if 20 ≤ n then s.setDrv (fun d => { d with version := 1, hellos := none, settledFor := 0 }) else s
  | none => s

def execDrvNegotiationTimeout (s : State) : Host.Outcome State Fault Refusal :=
  s.upd (whenOn 8 drvNegotiationTimeout)

/-- DRV_ENABLE_TIMEOUT: 20 periods after the version is settled. -/
def drvEnableTimeout (s : Dev) : Dev :=
  if s.drv.enableDesc.isSome && s.drv.hellos.isNone && decide (20 ≤ s.drv.settledFor) then
    s.enableFails .timeout
  else s

def execDrvEnableTimeout (s : State) : Host.Outcome State Fault Refusal := s.upd (whenOn 8 drvEnableTimeout)

/-- DRV_FAULT_RESET_TIMEOUT: HSTARTTO after the command. -/
def drvFaultResetTimeout (s : Dev) : Dev :=
  match s.drv.resetDesc with
  | some (d, code, t) =>
    if t + s.hStartTo ≤ s.dt then
      (s.setDrv (fun d => { d with resetDesc := none })).complete d .timeout s.dt [wordN code]
    else s
  | none => s

def execDrvFaultResetTimeout (s : State) : Host.Outcome State Fault Refusal :=
  s.upd (whenOn 8 drvFaultResetTimeout)

/-! ## Commands -/

/-- MSQ_H_ENABLE: decided at the profile step as every hoist command (R93); with CPF not enabled there is none to wait
for (R112). -/
def msqHEnable (d : Desc) (s : Dev) : Dev :=
  if d.object ≠ 0 ∨ !s.cpfEnabled then s.fail d .badDescriptor else s.hWait d

def execMsqHEnable (d : Desc) (s : State) : Host.Outcome State Fault Refusal := s.cmd d (whenOn 6 (msqHEnable d))

/-- DRV_FAULT_RESET (R114). -/
def drvFaultReset (d : Desc) (s : Dev) : Dev :=
  if d.object ≠ 0 then s.fail d .badDescriptor
  else if s.drv.resetDesc.isSome then s.fail d .reconfigBusy
  else s.setDrv (fun r => { r with faultReset := 4, resetDesc := some (d, r.last.faultCode, s.dt) })

def execDrvFaultReset (d : Desc) (s : State) : Host.Outcome State Fault Refusal :=
  s.cmd d (whenOn 8 (drvFaultReset d))

/-- DRV_STAT as it reads (Table 5-11). -/
def Dev.drvStatWord (s : Dev) : Nat :=
  s.drv.version + 4 * b2n s.drv.linkUp + 64 * b2n (s.invBit 3)
    + (s.reg Reg.drvStat).toNat / 8 % 8 * 8 + 128 * s.fld Reg.drvStat 7 7

/-- DRV_READ: bytes 4-16 of the last status frame, and DRV_STAT. -/
def drvRead (d : Desc) (s : Dev) : Dev :=
  if d.object ≠ 0 then s.fail d .badDescriptor
  else
    let b := s.drv.last.bytes.take 17
    s.complete d .done s.dt
      [wordN (leAt b 4 4), wordN (leAt b 8 4), wordN (leAt b 12 4), wordN (leAt b 16 1), wordN s.drvStatWord]

def execDrvRead (d : Desc) (s : State) : Host.Outcome State Fault Refusal := s.cmd d (whenOn 8 (drvRead d))

/-- A host abort of an enable or a fault reset that waits. -/
def Dev.drvAbort (s : Dev) (d : Desc) : Option Dev :=
  let en := match s.drv.enableDesc with | some e => e.same d | none => false
  let fr := match s.drv.resetDesc with | some (e, _, _) => e.same d | none => false
  if en then some (s.enableFails .aborted)
  else if fr then some ((s.setDrv (fun r => { r with resetDesc := none, faultReset := 0 })).fail d .aborted)
  else none

end Sys2Proof.Machine
end

