-- ==== Sys2Proof/Machine/Door.lean ====
section
/-! DEFINITION. Door and auxiliary axes and general half-bridges (06). Follower quantities in 2^-8 µm,
µm/s and µm/s², positions in µm, instants DT in ns. Commands of a set share one descriptor (R143). -/
namespace Sys2Proof.Machine

def Dev.axis (s : Dev) (n : Nat) : Axis := kget .reset s.door.axes n
def Dev.setAxis (s : Dev) (n : Nat) (x : Axis) : Dev :=
  { s with door := { s.door with axes := kput .reset s.door.axes n x } }
def Dev.modAxis (s : Dev) (n : Nat) (f : Axis → Axis) : Dev := s.setAxis n (f (s.axis n))
def Dev.camSlot (s : Dev) (n k : Nat) : CamSlot := kget .reset s.door.cams (4 * n + k)
def Dev.setCamSlot (s : Dev) (n k : Nat) (x : CamSlot) : Dev :=
  { s with door := { s.door with cams := kput .reset s.door.cams (4 * n + k) x } }
def Dev.bridge (s : Dev) (b : Nat) : Bridge := kget .reset s.door.bridges b
def Dev.setBridge (s : Dev) (b : Nat) (x : Bridge) : Dev :=
  { s with door := { s.door with bridges := kput .reset s.door.bridges b x } }

def DState.code : DState → Nat
  | .disabled => 0 | .closed => 1 | .opening => 2 | .open_ => 3 | .closing => 4 | .stopped => 5
  | .advWait => 6 | .fault => 7 | .positioning => 8

def DState.moving : DState → Bool
  | .opening | .closing | .positioning => true
  | _ => false

/-! ## Readings -/

/-- Position in µm at a reported position (R121). -/
def Dev.doorUm (s : Dev) (n : Nat) (p : Int) : Int :=
  idiv ((p - (s.axis n).pRef) * s.fld (Reg.msqDk n) 31 0) (2 ^ 24)
def Dev.doorPos (s : Dev) (n : Nat) : Int := s.doorUm n (s.pos (n + 2))
/-- The latched position and speed of an axis (R118). -/
def Dev.doorLatched (s : Dev) (n : Nat) : Int := s.doorUm n (s.chan (n + 2)).snapP
def Dev.doorSpeed (s : Dev) (n : Nat) : Int :=
  idiv ((s.chan (n + 2)).snapSpeed * s.fld (Reg.msqDk n) 31 0) (2 ^ 32)

/-- The registers of an axis that are not locked while it is enabled: they apply at the next motion start
(R146). -/
def motionRegs (n : Nat) : List Nat :=
  [Reg.msqDvmax n, Reg.msqDamax n, Reg.msqDjmax n, Reg.msqDstroke n, Reg.msqDobs n, Reg.msqDobsz n, Reg.msqDsw n,
   Reg.msqDband n, Reg.msqDgear n, Reg.msqDgr1 n, Reg.msqDgr2 n, Reg.msqDgchg n, Reg.msqDtol n, Reg.msqDmisc n]

/-- A motion starts: the axis takes these registers as they stand. -/
def Dev.takeRegs (s : Dev) (n : Nat) : Dev :=
  s.modAxis n (fun x => { x with regs := s.holdRegs x.regs (motionRegs n) })

/-- The axis is enabled, being enabled, or still coming to rest. -/
def Axis.live (x : Axis) : Bool := x.state != .disabled || x.enabling.isSome || x.stopping || x.tripped

/-- A register of an axis in force: as its last motion start took it; of an axis at rest and disabled, as
written. -/
def Dev.dreg (s : Dev) (n off : Nat) : Word :=
  if (s.axis n).live then kget (regReset off) (s.axis n).regs off else s.reg off
def Dev.dfld (s : Dev) (n off hi lo : Nat) : Nat := bitsOf (s.dreg n off) hi lo

def Dev.dTol (s : Dev) (n : Nat) : Nat := s.dfld n (Reg.msqDtol n) 31 16
def Dev.dStopV (s : Dev) (n : Nat) : Nat := s.dfld n (Reg.msqDtol n) 15 0
def Dev.dStroke (s : Dev) (n : Nat) : Int := s.dfld n (Reg.msqDstroke n) 31 0
def Dev.dVmax (s : Dev) (n : Nat) : Nat := s.dfld n (Reg.msqDvmax n) 31 0
def Dev.dAmax (s : Dev) (n : Nat) : Nat := s.dfld n (Reg.msqDamax n) 31 0
def Dev.dJmax (s : Dev) (n : Nat) : Nat := s.dfld n (Reg.msqDjmax n) 31 0
/-- The stroke of the next motion. -/
def Dev.nextStroke (s : Dev) (n : Nat) : Int := s.fld (Reg.msqDstroke n) 31 0

/-- E_lim of R133 in mJ, ENUDGE during a close commanded with NUDGE, and the closing speed limit vcl in µm/s. -/
def Dev.eLim (s : Dev) (n : Nat) : Nat :=
  if (s.axis n).nudge && (s.axis n).state == .closing then s.fld (Reg.msqDenergy n) 31 16 else s.fld (Reg.msqDenergy n) 15 0
def Dev.vcl (s : Dev) (n : Nat) : Nat :=
  min (s.dVmax n) (isqrt (2000000000 * 1000 * s.eLim n / s.fld (Reg.msqDmass n) 31 0))
/-- I_FMAX of R135, mA. -/
def Dev.iFmax (s : Dev) (n : Nat) : Int :=
  (s.fld (Reg.msqDforce n) 31 16 * 1000000 / s.fld (Reg.msqDkf n) 31 0 : Nat)

/-- Deck of a door axis; first bridge of an axis. -/
def deckOf (n : Nat) : Nat := n / 2
def firstBridge (n : Nat) : Nat := 3 * n

/-- The CPE of an axis's deck. -/
def Dev.deckCpe (s : Dev) (n : Nat) : Int := if deckOf n = 0 then s.cpf.x else s.cpf.x + s.deckOfs

/-- The landing whose vane interval holds the deck's CPE. -/
def Dev.landingAt (s : Dev) (n : Nat) : Option (Nat × Landing) :=
  match s.cpf.table with
  | some t => (t.entries.zipIdx.find? (fun (e, _) =>
      decide (e.vlo ≤ s.deckCpe n ∧ s.deckCpe n ≤ e.vhi))).map (fun (e, i) => (i, e))
  | none => none

def Dev.landingNo (s : Dev) (n : Nat) : Int :=
  match s.landingAt n with
  | some (l, _) => l
  | none => s.landingNear (s.deckCpe n)

def Dev.axisEnabled (s : Dev) (n : Nat) : Bool := (s.axis n).state != .disabled

/-- Axis A sets the deck spacing (R144). -/
def Dev.aSpacing (s : Dev) : Bool := s.hasAxis 4 && s.fld (Reg.msqDcfg 4) 5 4 == 1
def Dev.aMoving (s : Dev) : Bool :=
  let a := s.axis 4
  s.aSpacing && (a.state.moving || a.stopping || a.gen == .home || a.aligning.isSome || a.tripped && !a.bridgesSafe)
/-- A moves or lies more than POSTOL from its target, which a disable leaves standing. -/
def Dev.aUnsettled (s : Dev) : Bool :=
  s.aSpacing && (s.axis 4).referenced &&
    (s.aMoving || decide (s.dTol 4 < dist (s.doorPos 4) (idiv (s.axis 4).pEnd 256)))

/-- The CPF state, vane interval and landing flags of R140 forbid opening. -/
def Dev.openForbidden (s : Dev) (n : Nat) : Bool :=
  !s.cpfFit ||
  match s.landingAt n with
  | some (_, e) => !tbit e.flags (n % 2)
  | none => true

/-- The car goes to, or dwells at, an interim stop: its doors stay closed (05 R95). -/
def Dev.interimHold (s : Dev) : Bool :=
  s.hoist.next.isSome || ((s.hoist.active.map (fun m => decide (m.kind = .interim))).getD false)

/-- Why an OPEN, or a GOTO in the opening sense, is refused (R95, R140, R144). -/
def Dev.openRefusal (s : Dev) (n : Nat) (advance : Bool) : Option Nat :=
  if s.interimHold ∨ s.aUnsettled then some 0x0B
  else if s.openForbidden n then some 0x09
  else if !advance ∧ !s.doorPermit (deckOf n) then some 0x0A
  else none

def Dev.gotoActive (s : Dev) : Bool := (s.hoist.active.map (fun m => decide (m.kind = .goto))).getD false

/-! ## Completions -/

/-- Result words of a motion command (Table 6-10). -/
def Dev.dResult (s : Dev) (n : Nat) (cause : Nat) (sup : Bool) : List Word :=
  [wordN (cause + 256 * b2n sup + 512 * b2n (s.axis n).gear), wordI (s.doorPos n)]

/-- Bring an axis to rest under its limits (R120). -/
def Dev.brakeAxis (s : Dev) (n : Nat) : Dev :=
  s.modAxis n (fun x => { x with gen := .none, stopping := true, gear := false, reopen := false })

/-- Enter a state; L2 + n and L8 + n change mode with it (07 Table 7-6). -/
def Dev.enter (s : Dev) (n : Nat) (st : DState) : Dev :=
  let s := s.modAxis n (fun x => { x with state := st })
  match st with
  | .opening | .closing => (s.handLoop (2 + n) 0).handLoop (8 + n) 0
  | .open_ | .closed | .stopped => (s.handLoop (2 + n) 1).handLoop (8 + n) 1
  | _ => s

/-- Stop a moving axis: STOPPED, under its limits. -/
def Dev.stopAxis (s : Dev) (n : Nat) : Dev :=
  let s := s.modAxis n (fun x => { x with together := false })
  if (s.axis n).state.moving then (s.enter n .stopped).brakeAxis n
  else if (s.axis n).state = .advWait then s.enter n .closed
  else s

/-- The axes that hold a command. -/
def Dev.holders (s : Dev) (d : Desc) : List Nat :=
  (List.range 5).filter (fun n => match (s.axis n).desc with | some e => e.same d | none => false)

/-- The outcome of an axis for its command (R143): a set is DONE when all its axes are, and ends with
the first other outcome, the rest of it stopping but for the axes of `keep`, which a new command takes. -/
def Dev.axisDoneKeep (s : Dev) (keep : List Nat) (n : Nat) (st : Status) (cause : Nat) (sup : Bool)
    (at_ : Nat) : Dev :=
  match (s.axis n).desc with
  | none => s
  | some d =>
    let r := s.dResult n cause sup
    let s := s.modAxis n (fun x => { x with desc := none })
    let rest := s.holders d
    if st = .done then
      if rest.isEmpty then s.complete d .done at_ r else s
    else
      let s := rest.foldl (fun s m =>
        let s := s.modAxis m (fun x => { x with desc := none })
        if keep.contains m then s else s.stopAxis m) s
      s.complete d st at_ r

def Dev.axisDone (s : Dev) (n : Nat) (st : Status) (cause : Nat) (sup : Bool) (at_ : Nat) : Dev :=
  s.axisDoneKeep [] n st cause sup at_

/-! ## Events -/

def Dev.dEvent (s : Dev) (sev code n at_ : Nat) (p : List Int) : Dev := s.event 5 sev code n at_ p

/-- The stop commands of an axis end before it has come to rest: another motion or a disable takes the axis
(log entry 18). -/
def Dev.dropStops (s : Dev) (n : Nat) (st : Status) (cause : Nat) : Dev :=
  ((s.axis n).stopDescs.foldl (fun s d => s.complete d st s.dt [wordN cause]) s).modAxis n
    (fun x => { x with stopDescs := [] })

/-- D_CLOSED and its cycle count (R150, R151). -/
def Dev.dClosed (s : Dev) (n at_ : Nat) : Dev :=
  let s := s.dEvent 2 2 n at_ [s.doorPos n, s.landingNo n]
  let s := if (s.axis n).openedOnce then s.chrInc 5 (6 * n) else s
  s.modAxis n (fun x => { x with openedOnce := false })

def Dev.dOpened (s : Dev) (n at_ : Nat) : Dev :=
  (s.dEvent 2 1 n at_ [s.doorPos n, s.landingNo n]).modAxis n (fun x => { x with openedOnce := true })

/-! ## Starting motions (R124-R128, R143) -/

/-- The first entry at or beyond the position in the sense of a slot, and its phase (R124). -/
def Cam.startPhase (c : Cam) (closing : Bool) (pf : Int) : Nat :=
  let i := c.entries.findIdx? (fun e => if closing then decide (e.pos * 256 ≤ pf) else decide (pf ≤ e.pos * 256))
  256 * i.getD (c.entries.length - 1)

def CamSlot.usable (c : CamSlot) : Bool := c.valid && c.loading.isNone

/-- The count of the gearing master (R128). -/
def Dev.master (s : Dev) (n : Nat) : Int :=
  match s.dfld n (Reg.msqDgear n) 1 0 with
  | 1 => s.pos 1
  | 2 => s.pos 7
  | _ => (s.axis n).virt

/-- The CRC-32 of a cam image is over its header and entries (Table 6-3). -/
def camCrcOk (b : List Byte) : Bool :=
  leAt b 28 4 == (crc32 (b.take 28 ++ (b.drop 32).take (8 * leAt b 4 2))).toNat

/-- The re-check of a current table at a motion start: one that fails is marked invalid (R126). -/
def Dev.recheck (s : Dev) (n slot : Nat) : Dev :=
  let c := s.camSlot n slot
  if c.valid && c.current.isSome && !camCrcOk c.image then
    ((s.setCamSlot n slot { c with valid := false }).dEvent 6 9 n s.dt [slot, 8, 0]).chrInc 5 (6 * n + 5)
  else s

/-- A motion starts: the axis takes its registers, and its current tables are re-checked (R126, R146). -/
def Dev.motionStart (s : Dev) (n : Nat) : Dev :=
  (((s.takeRegs n).recheck n 0).recheck n 1).recheck n 2

/-- The generator of an OPEN or CLOSE motion: its cam, or gearing when the slot cannot be used (R127). -/
def Dev.startCam (s : Dev) (n slot : Nat) : Gen × Bool × Dev :=
  let c := s.camSlot n slot
  match c.usable, c.current with
  | true, some t => (.cam slot t (t.startPhase (slot == 1) (s.axis n).pf), false, s)
  | _, _ =>
    (.gear slot (if slot = 1 then -1 else 1) (idiv (s.axis n).pf 256) (s.master n) none, true,
      s.dEvent 4 8 n s.dt [slot, b2n c.loading.isSome + 2 * b2n (!c.valid)])

/-- Common part of a motion start: the flags of an earlier trip or obstruction end; the relief of an obstruction
holds on while the door still closes (R137). -/
def Dev.startMotion (s : Dev) (n : Nat) (st : DState) (g : Gen) (gear : Bool) (pEnd : Int) : Dev :=
  let s := (s.dropStops n .aborted 2).enter n st
  s.modAxis n (fun x => { x with
    gen := g, gear := gear, pEnd := pEnd * 256, sense := if pEnd * 256 < x.pf then -1 else 1,
    start := s.dt, stopping := false, tripped := false, bridgesSafe := false, obsRow := 0, overRow := 0,
    relief := x.relief && decide (x.vf < 0), reopen := false, advance := false, nudge := false, nudgeNext := none, together := false,
    pGen := x.pf, vGen := 0 })

def Dev.startOpen (s : Dev) (n : Nat) : Dev :=
  let (g, gear, s) := (s.motionStart n).startCam n 0
  s.startMotion n .opening g gear (s.dStroke n)

def Dev.startClose (s : Dev) (n : Nat) (nudge : Bool) : Dev :=
  let (g, gear, s) := (s.motionStart n).startCam n 1
  (s.startMotion n .closing g gear 0).modAxis n (fun x => { x with nudge := nudge })

def Dev.startAdvance (s : Dev) (n : Nat) (t : Cam) : Dev :=
  let s := s.motionStart n
  (s.startMotion n .opening (.cam 2 t 0) false (s.dStroke n)).modAxis n (fun x => { x with advance := true })

/-! ## The generator (R124, R125, R128) and the follower (R120) -/

def Cam.at_ (c : Cam) (i : Nat) : CamEntry := c.entries.getD i ⟨0, false, false⟩

/-- p_gen and v_gen of a time cam at a phase (R124). -/
def Cam.play (c : Cam) (phi : Nat) : Int × Int :=
  let i := phi / 256
  let f := phi % 256
  let a := (c.at_ i).pos
  let b := if i + 1 < c.entries.length then (c.at_ (i + 1)).pos else a
  (a * 256 + (b - a) * f, idiv ((b - a) * 256 * c.rate * 2500) 256)

/-- D_CAM_MARK for the entries the phase has passed. -/
def Dev.camMarks (s : Dev) (n slot : Nat) (c : Cam) (phi phi' : Nat) : Dev :=
  (List.range c.entries.length).foldl (fun s i =>
    if phi / 256 < i ∧ i ≤ phi' / 256 ∧ (c.at_ i).mark then
      s.dEvent 1 12 n s.dt [slot, i, s.doorPos n] else s) s

/-- The deck's distance phase of a car-position cam (R125). -/
def Dev.carPhase (s : Dev) (n : Nat) (c : Cam) : Nat :=
  match s.hoist.active.bind (·.target) with
  | some t => (c.x0 - min (dist t (s.deckCpe n)) c.x0) * 256 / max 1 c.xstep
  | none => c.x0 * 256 / max 1 c.xstep

/-- The gearing position in µm (R128) and the master count at the ratio change. -/
def Dev.gearPos (s : Dev) (n : Nat) (sense start m0 : Int) (mc : Option Int) : Int × Option Int :=
  let m := s.master n
  let chg : Int := s.dfld n (Reg.msqDgchg n) 31 0
  let raw := start + sense * ((m - m0).natAbs * s.dfld n (Reg.msqDgr1 n) 31 0 / 65536 : Nat)
  let mc := match mc with
    | some c => some c
    | none => if 0 ≤ (chg - start) * sense ∧ 0 < (raw - chg) * sense then some m else none
  let raw := match mc with
    | some c => chg + sense * ((m - c).natAbs * s.dfld n (Reg.msqDgr2 n) 31 0 / 65536 : Nat)
    | none => raw
  let e := idiv (s.axis n).pEnd 256
  (clampI 0 (s.dStroke n) (if 0 < sense then min raw e else max raw e), mc)

/-- One step of the generator of an axis. -/
def Dev.genStep (s : Dev) (n : Nat) : Dev :=
  let x := s.axis n
  match x.gen with
  | .none => s.modAxis n (fun x => { x with pGen := x.pf, vGen := 0 })
  | .home => s.modAxis n (fun x => { x with pGen := x.pf, vGen := -50000 * 256 })
  | .goto t => s.modAxis n (fun x => { x with pGen := t, vGen := 0 })
  | .cam slot c phi =>
    let phi' := if c.kind = 2 then s.carPhase n c
      else if x.start = s.dt then phi
      else min (phi + c.rate) ((c.entries.length - 1) * 256)
    let (p, v) := c.play phi'
    let s := s.camMarks n slot c phi phi'
    s.modAxis n (fun x => { x with gen := .cam slot c phi', pGen := p, vGen := if c.kind = 2 then 0 else v })
  | .gear slot sense start m0 mc =>
    let (p, mc) := s.gearPos n sense start m0 mc
    s.modAxis n (fun x => { x with gen := .gear slot sense start m0 mc, pGen := p * 256,
                                   vGen := (p * 256 - x.pGen) * 2500 })

/-- The virtual master counts GVRATE, its fraction kept (R128). -/
def Dev.virtStep (s : Dev) (n : Nat) : Dev :=
  s.modAxis n (fun x =>
    let f := x.virtFrac + s.dfld n (Reg.msqDgear n) 31 8
    { x with virt := x.virt + f / 2500, virtFrac := f % 2500 })

/-- One step of the follower (R120). Homing has no end position. -/
def Dev.followStep (s : Dev) (n : Nat) : Dev :=
  let x := s.axis n
  let amax : Int := s.dAmax n * 256
  let jmax : Int := s.dJmax n * 256
  let vmax : Int := s.dVmax n * 256
  let vcl : Int := s.vcl n * 256
  let pEnd := if x.gen == .home then x.pf - 2 ^ 40 else if x.stopping || x.gen == .none then x.pf else x.pEnd
  let vd := x.vGen + idiv ((x.pGen - x.pf) * 2500) 16
  let sMax : Int := (isqrt (2 * amax.toNat * (pEnd - x.pf).natAbs) : Nat)
  let vd := clampI (-(min vcl sMax)) (min vmax sMax) vd
  let ad := clampI (-amax) amax (idiv ((vd - x.vf) * 2500) 4)
  let j := idiv jmax 2500
  let a := x.af + clampI (-j) j (ad - x.af)
  let v := x.vf + idiv a 2500
  s.setAxis n { x with af := a, vf := v, pf := x.pf + idiv v 2500 }

/-! ## The step's decisions (R138, R139) -/

def Dev.atRestAxis (s : Dev) (n : Nat) : Bool :=
  decide ((s.doorSpeed n).natAbs ≤ s.dStopV n) && decide ((s.axis n).vf.natAbs ≤ s.dStopV n * 256)

/-- Cause of an axis fault, if any: 1 soft limit, 2 bridge or cell, 3 field supply, 4 link. -/
def Dev.axisFault (s : Dev) (n : Nat) : Option Nat :=
  if s.limLo (n + 2) || s.limHi (n + 2) then some 1
  else if (List.range 3).any (fun i => s.bridgeFaulty (firstBridge n + i)) then some 2
  else if s.fieldLow then some 3
  else if s.linkDown then some 4
  else none

/-- Take an axis out of service: bridges to DSAFE, its loops removed (R141, 07 R170). Its target stands for
the hoist's plans (R144). -/
def Dev.disableAxis (s : Dev) (n : Nat) : Dev :=
  let s := s.dropStops n .aborted 7
  let x := s.axis n
  let s := s.setAxis n { Axis.reset with pRef := x.pRef, pEnd := x.pEnd, virt := x.virt, virtFrac := x.virtFrac,
                                         lastE := x.lastE, openedOnce := x.openedOnce, referenced := x.referenced }
  let s := s.dropAxis n
  x.disabling.foldl (fun s d => s.complete d .done s.dt [0]) s

/-- The enable in progress ends with a cause; its axis comes to rest if it moved (R149). -/
def Dev.endEnable (s : Dev) (n : Nat) (st : Status) (cause : Nat) : Dev :=
  let x := s.axis n
  let s := s.modAxis n (fun x => { x with enabling := none, homing := false, aligning := none, clampSince := none })
  let s := if x.gen == .home then s.brakeAxis n else s
  s.completeOpt x.enabling st s.dt [wordN cause]

/-- Enter FAULT (Table 6-7). A disable that waits for the axis to stop goes on from there. -/
def Dev.faultAxis (s : Dev) (n c : Nat) : Dev :=
  let s := s.axisDone n .hwFault 8 false s.dt
  let s := (s.endEnable n .hwFault 8).dropStops n .hwFault 8
  let s := s.modAxis n (fun x => { x with
    state := .fault, gen := .none, stopping := false, bridgesSafe := true, tripped := false, reopen := false,
    relief := false, forceClamp := false, energyClamp := false, together := false, vf := 0, af := 0 })
  let s := s.dEvent 8 11 n s.dt [c, s.doorPos n]
  if (s.axis n).disabling.isEmpty then s else s.disableAxis n

/-- The commit of a motion (R138, R139); one that a disable stops ends with it (R141). -/
def Dev.commitAxis (s : Dev) (n : Nat) : Dev :=
  let x := s.axis n
  let e := idiv x.pEnd 256
  if x.state.moving && !x.stopping && decide (dist (s.doorPos n) e ≤ s.dTol n) &&
      decide ((s.doorSpeed n).natAbs ≤ s.dStopV n) then
    let st : DState := match x.state with
      | .opening => .open_
      | .closing => .closed
      | _ => if e.natAbs ≤ s.dTol n then .closed else if dist e (s.dStroke n) ≤ s.dTol n then .open_ else .stopped
    let s := s.axisDone n .done 0 false s.dt
    let s := (s.enter n st).modAxis n (fun x => { x with
      gen := .goto x.pEnd, advance := false, nudge := false, energyClamp := false })
    let s := if x.state = .closing ∧ n < 4 then
      s.chrInc 10 (128 + 32 * n + histBin ((s.dt - x.start) / 1000000 : Nat) 0 100) else s
    match st with
    | .closed => s.dClosed n s.dt
    | .open_ => s.dOpened n s.dt
    | _ => s
  else s

/-- A stop under the limits has ended: the commands that wait for it complete (R139, R141). -/
def Dev.restAxis (s : Dev) (n : Nat) : Dev :=
  if (s.axis n).stopping && s.atRestAxis n then
    let s := s.modAxis n (fun x => { x with stopping := false, vf := 0, af := 0, gen := .goto x.pf, pEnd := x.pf })
    let s := (s.axis n).stopDescs.foldl (fun s d => s.complete d .done s.dt [wordI (s.doorPos n)]) s
    s.modAxis n (fun x => { x with stopDescs := [] })
  else s

/-- A disable that waits for its axis to stop (R141); an axis whose enable ended before it was CLOSED goes
out of service too. -/
def Dev.disableAtRest (s : Dev) (n : Nat) : Dev :=
  let x := s.axis n
  if x.stopping || x.immediate || x.tripped && !x.bridgesSafe then s
  else if !x.disabling.isEmpty then (s.axisDone n .aborted 7 false s.dt).disableAxis n
  else if x.state == .disabled && x.enabling.isNone then s.disableAxis n
  else s

/-- The disable that stopped a moving axis has been aborted: the motion it stopped ends with it, and the axis comes to
rest in STOPPED (15 R345, log entry 18). -/
def Dev.disableGone (s : Dev) (n : Nat) : Dev :=
  let x := s.axis n
  if x.disabling.isEmpty && x.stopping && x.state.moving then (s.axisDone n .aborted 7 false s.dt).stopAxis n else s

/-- What the hoist and the permit do to an opening (R139, R142). -/
def Dev.openingGuards (s : Dev) (n : Nat) : Dev :=
  let x := s.axis n
  let lost := x.permit && !s.doorPermit (deckOf n)
  let opening := x.state == .opening || x.state == .advWait ||
    (x.state == .positioning && decide (n < 4) && decide (0 < x.sense))
  let adv := x.state == .advWait || (x.state == .opening && x.advance)
  let s := s.modAxis n (fun x => { x with permit := s.doorPermit (deckOf n) })
  if 4 ≤ n ∨ !x.disabling.isEmpty then s
  else if adv && s.door.gotoLost then
    (s.axisDone n .aborted 6 false s.dt).startClose n false
  else if opening && lost then (s.axisDone n .aborted 5 false s.dt).startClose n false
  else if x.state == .opening && x.advance && s.door.gotoDone then
    let d := x.desc
    (s.startOpen n).modAxis n (fun y => { y with desc := d })
  else s

/-- May a waiting door start on its ADVANCE cam (R142)? -/
def Dev.advReady (s : Dev) (n : Nat) : Bool :=
  (s.axis n).advPulse && decide (s.cpf.state = .valid) && (s.camSlot n 2).usable && s.doorPermit (deckOf n)

/-- One axis of a waiting set starts: on its ADVANCE cam, or with an ordinary OPEN once the car has committed
or where it does not wait for the car itself (R142, R143). -/
def Dev.startWaiting (s : Dev) (n : Nat) (ordinary : Bool) : Dev :=
  let x := s.axis n
  let hold (s : Dev) : Dev := s.modAxis n (fun y => { y with desc := x.desc })
  if ordinary || x.state != .advWait then hold (s.startOpen n)
  else match (s.camSlot n 2).current with
    | some t => hold (s.startAdvance n t)
    | none => s

def Dev.inAdvWait (s : Dev) (n : Nat) : Bool := (s.axis n).state == .advWait

/-- The axes that start together with a waiting one: those of its command that wait or are held to start with it. -/
def Dev.waitingSet (s : Dev) (n : Nat) : List Nat :=
  (match (s.axis n).desc with | some d => s.holders d | none => [n]).filter
    (fun m => s.inAdvWait m || (s.axis m).together)

/-- Each axis of a set that waits meets its own conditions. -/
def Dev.waitingReady (s : Dev) (l : List Nat) : Bool := l.all (fun m => !s.inAdvWait m || s.advReady m)

/-- ADV_WAIT (R142, R143): a set starts together, at the first step at which each of its axes meets its own
conditions, or at the car's commit. -/
def Dev.advWait (s : Dev) (n : Nat) : Dev :=
  let x := s.axis n
  if x.state ≠ .advWait then s
  else
    let set_ := s.waitingSet n
    if s.door.gotoDone then set_.foldl (fun s m => s.startWaiting m true) s
    else if s.waitingReady set_ then
      let s := (set_.filter s.inAdvWait).foldl (fun s m => s.recheck m 2) s
      if s.waitingReady set_ then set_.foldl (fun s m => s.startWaiting m false) s else s
    else s

/-- After an obstruction the axis reopens at the next step (R137). -/
def Dev.reopenAxis (s : Dev) (n : Nat) : Dev :=
  if (s.axis n).reopen then
    let s := s.startOpen n
    let s := s.modAxis n (fun x => { x with relief := true })
    (s.dEvent 2 4 n s.dt [s.doorPos n]).chrInc 5 (6 * n + 1)
  else s

/-! ### Commands at the step -/

/-- A motion that another replaces; one that changes sense counts as a reversal (R151). -/
def Dev.supersedeAxis (s : Dev) (keep : List Nat) (n : Nat) (sense : Int) : Dev :=
  let x := s.axis n
  let s := if x.state.moving ∧ x.sense ≠ sense then s.chrInc 5 (6 * n + 1) else s
  s.axisDoneKeep keep n .aborted 2 false s.dt

/-- Refuse or accept of an OPEN on one axis; a disabled axis answers as one that a disable takes (log entry 18). -/
def Dev.openCheck (s : Dev) (n : Nat) (advance : Bool) : Option (Status × Nat) :=
  if !(s.axis n).disabling.isEmpty then some (.aborted, 7)
  else match (s.axis n).state with
  | .disabled => some (.aborted, 7)
  | .fault => some (.hwFault, 8)
  | .opening | .advWait => if s.interimHold || s.aUnsettled then some (.refusedInterlock, 0x0B) else none
  | _ => (s.openRefusal n advance).map (fun c => (.refusedInterlock, c))

/-- An OPEN with ADVANCE makes this axis wait for the car (Table 6-7, R142). -/
def Dev.entersAdv (s : Dev) (n : Nat) (advance : Bool) : Bool :=
  (s.axis n).state == .advWait ||
    ((s.axis n).state == .closed && advance && s.gotoActive && s.bit (Reg.msqDcfg n) 7)

/-- MSQ_D_OPEN on one axis of a set that is accepted. An axis that could start at once waits for the axes of
its set that wait for the car (R143). -/
def Dev.openAxis (s : Dev) (d : Desc) (set_ waiting : List Nat) (n : Nat) : Dev :=
  let hold (s : Dev) : Dev := s.modAxis n (fun x => { x with desc := some d })
  let start (s : Dev) : Dev :=
    if waiting.isEmpty then hold (s.startOpen n) else hold ((s.stopAxis n).modAxis n (fun x => { x with together := true }))
  match (s.axis n).state with
  | .open_ => s
  | .opening | .advWait => hold (s.axisDoneKeep set_ n .aborted 2 true s.dt)
  | .closed =>
    let s := s.axisDoneKeep set_ n .aborted 2 true s.dt
    if waiting.contains n then
      hold ((s.enter n .advWait).modAxis n (fun x => { x with
        advPulse := false, together := false, permit := s.doorPermit (deckOf n) }))
    else start s
  | _ => start (s.supersedeAxis set_ n 1)

/-- MSQ_D_CLOSE on one axis. -/
def Dev.closeCheck (s : Dev) (n : Nat) : Option (Status × Nat) :=
  if !(s.axis n).disabling.isEmpty then some (.aborted, 7)
  else match (s.axis n).state with
  | .disabled => some (.aborted, 7)
  | .fault => some (.hwFault, 8)
  | .closed | .advWait | .closing => none
  | _ => if s.aMoving then some (.refusedInterlock, 0x0B) else none

/-- MSQ_D_CLOSE on one axis of a set that is accepted. The NUDGE of a CLOSE while closing applies from the
next door step (Table 6-7). -/
def Dev.closeAxis (s : Dev) (d : Desc) (set_ : List Nat) (n : Nat) (nudge : Bool) : Dev :=
  let hold (s : Dev) : Dev := s.modAxis n (fun x => { x with desc := some d })
  match (s.axis n).state with
  | .closed => (s.axisDoneKeep set_ n .aborted 2 false s.dt).modAxis n (fun x => { x with together := false })
  | .advWait => (s.axisDoneKeep set_ n .aborted 2 false s.dt).enter n .closed
  | .closing =>
    hold ((s.axisDoneKeep set_ n .aborted 2 true s.dt).modAxis n (fun x => { x with nudgeNext := some nudge }))
  | _ => hold ((s.supersedeAxis set_ n (-1)).startClose n nudge)

/-- An OPEN or CLOSE on its sync mask: any refusal refuses all (R143). -/
def Dev.decideSet (s : Dev) (d : Desc) (check : Nat → Option (Status × Nat)) (act : List Nat → Dev → Nat → Dev) : Dev :=
  let n0 := bitsOf d.object 7 0
  let mask := bitsOf (d.w 3) 7 4
  let set_ := maskBits 4 mask
  match set_.filterMap check with
  | (st, c) :: _ => s.complete d st s.dt (s.dResult n0 c false)
  | [] =>
    let s := set_.foldl (act set_) s
    if (s.holders d).isEmpty then s.complete d .done s.dt (s.dResult n0 0 false) else s

/-- MSQ_D_GOTO (R139, R148). -/
def Dev.decideDGoto (s : Dev) (d : Desc) (n : Nat) : Dev :=
  let t := sWord (d.w 3)
  let refuse (st : Status) (c : Nat) : Dev := s.complete d st s.dt (s.dResult n c false)
  let opening := decide (n < 4) && decide (s.doorPos n < t)
  let doorsOpen := n == 4 && s.aSpacing &&
    (List.range 4).any (fun m => s.hasAxis m && (s.axis m).state != .closed)
  if !(s.axis n).disabling.isEmpty then refuse .aborted 7
  else match (s.axis n).state with
  | .disabled => refuse .aborted 7
  | .fault => refuse .hwFault 8
  | .advWait => refuse .refusedInterlock 0x0B
  | _ =>
    if doorsOpen then refuse .refusedInterlock 0x0B
    else match if opening then s.openRefusal n false else none with
      | some c => refuse .refusedInterlock c
      | none =>
        let s := (s.supersedeAxis [n] n (if t * 256 < (s.axis n).pf then -1 else 1)).motionStart n
        (s.startMotion n .positioning (.goto (t * 256)) false t).modAxis n (fun x => { x with desc := some d })

/-- MSQ_D_STOP. -/
def Dev.decideDStop (s : Dev) (d : Desc) (n : Nat) : Dev :=
  let s := s.axisDone n .aborted 1 false s.dt
  let s := s.stopAxis n
  if (s.axis n).stopping then s.modAxis n (fun x => { x with stopDescs := x.stopDescs ++ [d] })
  else s.complete d .done s.dt [wordI (s.doorPos n)]

/-- MSQ_D_ENABLE: the reference, after ALIGN and HOME where asked (R121, R131, R146). -/
def Dev.decideDEnable (s : Dev) (d : Desc) (n : Nat) : Dev :=
  let c := s.reg (Reg.msqDcfg n)
  let role := bitsOf c 5 4
  let nz (off : Nat) : Bool := s.reg off == 0
  let bad := s.fld (Reg.msqDk n) 31 0 = 0 ∨ s.fld (Reg.msqDcpr n) 23 0 = 0 ∨ nz (Reg.msqDvmax n) ∨ nz (Reg.msqDamax n)
    ∨ nz (Reg.msqDjmax n) ∨ nz (Reg.msqDstroke n) ∨ s.fld (Reg.msqDmass n) 31 0 = 0 ∨ s.fld (Reg.msqDkf n) 31 0 = 0
    ∨ bitsOf c 23 16 = 0 ∨ (n < 4 ∧ role ≠ 0) ∨ (n = 4 ∧ role ≠ 1 ∧ role ≠ 2)
  let words : List Word := [s.reg (Reg.msqDalign n), wordI (s.axis n).pRef]
  if (s.axis n).live then s.complete d .reconfigBusy s.dt words
  else if bad then s.complete d .badDescriptor s.dt [0x0E, 0]
  else if bitOf (d.w 3) 1 ∧ !s.atRest then s.complete d .refusedInterlock s.dt [0x0B, 0]
  else if !s.axisAdmissible n then s.complete d .refusedLedger s.dt words
  else if s.coc.calFail then s.complete d .hwFault s.dt words
  else
    let s := ((s.admitAxis n).takeRegs n).modAxis n (fun x => { x with
      pRef := s.pos (n + 2), pf := 0, vf := 0, af := 0, gen := .goto 0, pEnd := 0, tripped := false,
      bridgesSafe := false, referenced := true, enabling := some d, homing := bitOf (d.w 3) 0, clampSince := none,
      aligning := if bitOf (d.w 3) 1 then some s.dt else none,
      permit := s.doorPermit (deckOf n) })
    if bitOf (d.w 3) 1 then s
    else if bitOf (d.w 3) 0 then s.modAxis n (fun x => { x with gen := .home })
    else
      let s := (s.enter n .closed).modAxis n (fun x => { x with enabling := none })
      s.complete d .done s.dt [s.reg (Reg.msqDalign n), wordI (s.axis n).pRef]

/-- MSQ_D_DISABLE (R141): a moving or homing axis first stops under its limits. -/
def Dev.decideDDisable (s : Dev) (d : Desc) (n : Nat) : Dev :=
  if !(s.axis n).live then s.complete d .done s.dt [0]
  else
    let s := s.endEnable n .aborted 7
    let s := s.modAxis n (fun x => { x with disabling := x.disabling ++ [d] })
    if bitOf (d.w 3) 0 then
      (s.axisDone n .aborted 7 false s.dt).modAxis n (fun x => { x with immediate := true })
    else if (s.axis n).state.moving then s.brakeAxis n
    else s.disableAtRest n

/-- MSQ_DSTAT as it reads (Table 6-8). -/
def Dev.dstat (s : Dev) (n : Nat) : Nat :=
  let x := s.axis n
  let r := s.reg (Reg.msqDstat n)
  x.state.code + 64 * b2n x.strong + 128 * b2n (x.gear && x.state.moving) + 256 * b2n x.energyClamp + 512 * b2n x.forceClamp
    + 1024 * bitsOf r 10 10 + 2048 * bitsOf r 11 11
    + 4096 * b2n (s.camSlot n 0).valid + 8192 * b2n (s.camSlot n 1).valid + 16384 * b2n (s.camSlot n 2).valid
    + 32768 * bitsOf r 15 15

/-- What MSQ_D_READ returns at its decision instant. -/
def Dev.doorReading (s : Dev) (d : Desc) (n : Nat) : Dev :=
  let x := s.axis n
  s.complete d .done s.dt
    [wordI (s.doorPos n), wordI (s.doorSpeed n), wordI x.iq, wordN (s.dstat n), wordN x.lastE]

/-- MSQ_D_SINE_LOAD: the one table of all axes (R130). -/
def Dev.decideSine (s : Dev) (d : Desc) : Dev :=
  let t := ((s.door.sines.find? (fun e => e.1.same d)).map (·.2)).getD []
  let s := { s with door := { s.door with sines := s.door.sines.filter (fun e => !e.1.same d) } }
  if t.any (fun v => v == -32768) then s.complete d .badDescriptor s.dt []
  else if (List.range 5).any s.axisEnabled then s.complete d .reconfigBusy s.dt []
  else ({ s with door := { s.door with sine := t } }).complete d .done s.dt []

/-- One command at its decision instant (R138). -/
def Dev.decideDoor (s : Dev) (d : Desc) : Dev :=
  let n := bitsOf d.object 7 0
  match d.opcode with
  | 0x0501 => s.decideDEnable d n
  | 0x0502 => s.decideDDisable d n
  | 0x0503 =>
    let adv := bitOf (d.w 3) 0
    let waiting := (maskBits 4 (bitsOf (d.w 3) 7 4)).filter (fun n => s.entersAdv n adv)
    s.decideSet d (fun n => s.openCheck n adv) (fun l s n => s.openAxis d l waiting n)
  | 0x0504 => s.decideSet d (fun n => s.closeCheck n) (fun l s n => s.closeAxis d l n (bitOf (d.w 3) 0))
  | 0x0505 => s.decideDGoto d n
  | 0x0506 => s.decideDStop d n
  | 0x0507 =>
    let k := bitsOf (d.w 3) 1 0
    s.setCamSlot n k { s.camSlot n k with loading := some d }
  | 0x0508 => s.decideSine d
  | 0x0509 => s.doorReading d n
  | _ => s

/-- The events of one axis at a step, in the order of R138: log entry 18. -/
def Dev.axisEvents (s : Dev) (n : Nat) : Dev :=
  let s := match (s.axis n).nudgeNext with
    | some b => s.modAxis n (fun x => { x with nudge := b, nudgeNext := none })
    | none => s
  if !(s.axis n).live then s
  else
    let f := s.axisFault n
    match (s.axis n).state, f with
    | .fault, _ => s
    | _, some c => s.faultAxis n c
    | _, none => ((((s.commitAxis n).openingGuards n).reopenAxis n).restAxis n).disableAtRest n

/-- MSQ_DOOR_STEP: every axis that is present. What the hoist's goto has come to acts on the openings that
waited before this step's commands. -/
def msqDoorStep (s : Dev) : Dev :=
  let ns := (List.range 5).filter s.hasAxis
  let s := ns.foldl (fun s n => s.axisEvents n) s
  let s := ns.foldl (fun s n => s.advWait n) s
  let w := s.door.waiting
  let s := { s with door := { s.door with waiting := [], gotoDone := false, gotoLost := false } }
  let s := w.foldl (fun s d => s.decideDoor d.1) s
  ns.foldl (fun s n =>
    let x := s.axis n
    if !x.live ∨ x.state = .fault ∨ x.aligning.isSome then s.virtStep n
    else ((s.virtStep n).genStep n).followStep n) s

/-! ## Commutation (R129, R131, R132, R134, R135) -/

/-- The sine of an electrical angle, interpolated (R129). -/
def Dev.sineAt (s : Dev) (t : Nat) : Int :=
  let i := t / 64 % 1024
  let a := s.door.sine.getD i 0
  let b := s.door.sine.getD ((i + 1) % 1024) 0
  a + idiv ((b - a) * (t % 64 : Nat)) 64

/-- The electrical angle at a reported position. -/
def Dev.elecAngle (s : Dev) (n : Nat) (p : Int) : Nat :=
  wrapU 16 (idiv ((p - s.sfld (Reg.msqDalign n) 31 0) * s.fld (Reg.msqDcfg n) 23 16 * 65536)
    (s.fld (Reg.msqDcpr n) 23 0))

def phaseAngles (t : Nat) : List Nat := [t, (t + 65536 - 21845) % 65536, (t + 65536 - 43691) % 65536]

/-- Bridges are off or at DSAFE, so commutation sends nothing. -/
def Dev.axisIdle (s : Dev) (n : Nat) : Bool :=
  let x := s.axis n
  !x.live || x.state == .fault || x.bridgesSafe

/-- The torque current the limiter stage passes (R131, R134, R135, R137), and the flags it sets. -/
def Dev.limitIq (s : Dev) (n : Nat) : Int × Dev :=
  let x := s.axis n
  let f := s.iFmax n
  if x.aligning.isSome then (s.dfld n (Reg.msqDmisc n) 15 0, s)
  else if x.tripped then (-(s.doorSpeed n).sign * f, s.modAxis n (fun x => { x with forceClamp := false }))
  else
    let q := s.lpeOut (8 + n)
    let relief := x.relief && decide (x.vf < 0) && !s.atRestAxis n
    let s := s.modAxis n (fun x => { x with relief := relief })
    if q < -f then
      let s := if x.forceClamp then s
        else (s.dEvent 4 7 n s.dt [q, f, s.doorPos n]).chrInc 5 (6 * n + 4)
      (if relief then 0 else -f, s.modAxis n (fun x => { x with forceClamp := true }))
    else (if relief then max 0 q else q, s.modAxis n (fun x => { x with forceClamp := false }))

/-- Quiet or strong mode at a commutation step (R132). An energy trip runs in strong mode whatever SWMODE
holds (R134). -/
def Dev.switchMode (s : Dev) (n : Nat) (iq : Int) : Dev :=
  let x := s.axis n
  let off := if iq.natAbs < s.dfld n (Reg.msqDsw n) 15 0 then some (x.offSince.getD s.dt) else none
  let want := x.tripped || match s.fld (Reg.msqDcfg n) 3 2 with
    | 1 => false
    | 2 => true
    | _ => x.strong || x.relief || decide (s.dfld n (Reg.msqDsw n) 31 16 < iq.natAbs)
  let s := s.modAxis n (fun x => { x with strong := want, offSince := off })
  if want != x.strong then s.dEvent 1 10 n s.dt [b2n want, iq] else s

/-- COMMUTATION_STEP. -/
def commutationStep (n : Nat) (s : Dev) : Dev :=
  if !s.hasAxis n then s
  else if (s.axis n).immediate then s.disableAxis n
  else if s.axisIdle n then s
  else
    let (iq, s) := s.limitIq n
    let s := s.switchMode n iq
    let t := if (s.axis n).aligning.isSome then 0 else s.elecAngle n (s.pos (n + 2))
    let sn := (phaseAngles t).map s.sineAt
    let set_ := sn.map (fun v => idiv (iq * v) 32768)
    let cur := (List.range 3).map (fun i => s.phaseCurrent (firstBridge n + i))
    let dot := ((cur.zip sn).map (fun (a, b) => a * b)).foldl (· + ·) 0
    let sh := idiv (2 * dot) (3 * 32768)
    let x := s.axis n
    let s := s.setAxis n { x with iq := iq, theta := t, setU := set_.getD 0 0, setV := set_.getD 1 0,
                                  setW := set_.getD 2 0, shunts := (sh :: x.shunts).take 10 }
    if x.tripped && decide ((s.doorSpeed n).natAbs ≤ s.dStopV n) then
      s.modAxis n (fun x => { x with bridgesSafe := true, vf := 0, af := 0 })
    else s

def execCommutationStep (n : Fin 5) (s : State) : Host.Outcome State Fault Refusal :=
  s.upd (whenOn 6 (commutationStep n))

/-- QUIET_MODE_ENTRY (R132). -/
def quietModeEntry (n : Nat) (s : Dev) : Dev :=
  let x := s.axis n
  let m := s.fld (Reg.msqDcfg n) 3 2
  match x.offSince with
  | some t =>
    if s.hasAxis n && x.strong && m != 1 && m != 2 && !x.tripped && !x.relief && decide (t + 50000000 ≤ s.dt) then
      (s.modAxis n (fun x => { x with strong := false })).dEvent 1 10 n s.dt [0, x.iq]
    else s
  | none => s

def execQuietModeEntry (n : Fin 5) (s : State) : Host.Outcome State Fault Refusal :=
  s.upd (whenOn 6 (quietModeEntry n))

/-! ## Energy and obstruction (R133-R137) -/

/-- ENERGY_CLAMP (R133). -/
def Dev.energyClampStep (s : Dev) (n vm : Nat) : Dev :=
  let x := s.axis n
  let on := x.state == .closing && decide (s.vcl n < vm)
  let s := s.modAxis n (fun x => { x with energyClamp := on })
  if on && !x.energyClamp then s.dEvent 1 5 n s.dt [vm, s.vcl n] else s

/-- The limiter trips (R134): a motion or homing ends with cause 0x04, and the axis runs down to rest; one
that was in no motion keeps its state (log entry 18). -/
def Dev.energyTrip (s : Dev) (n e vm : Nat) : Dev :=
  let moving := (s.axis n).state.moving
  let s := if moving then s.axisDone n .aborted 4 false s.dt else s
  let s := s.endEnable n .aborted 4
  let s := (if moving then s.enter n .stopped else s).modAxis n (fun x => { x with
    tripped := true, gen := .none, stopping := true, reopen := false, energyClamp := false, forceClamp := false,
    overRow := 0 })
  let s := (s.setBit (Reg.msqDstat n) 11 true).chrInc 5 (6 * n + 3)
  s.dEvent 8 6 n s.dt [e, vm, s.doorPos n]

/-- Detection is off here (R136). -/
def Dev.obsSuppressed (s : Dev) (n : Nat) : Bool :=
  decide (s.doorLatched n ≤ s.dfld n (Reg.msqDobsz n) 15 0 * 1000) ||
  match (s.axis n).gen with
  | .cam _ c phi => (c.at_ (phi / 256)).noObs
  | _ => false

/-- The sense an axis moves in; the commanded one while it stands. -/
def Dev.moveSense (s : Dev) (n : Nat) : Int :=
  let v := (s.doorSpeed n).sign
  if v = 0 then (s.axis n).sense else v

/-- f_meas and f_mod of R136, mN. -/
def Dev.forces (s : Dev) (n : Nat) : Int × Int :=
  let x := s.axis n
  let iqm := idiv (x.shunts.foldl (· + ·) 0) 10
  (idiv (s.fld (Reg.msqDkf n) 31 0 * iqm) 1000,
   idiv (s.fld (Reg.msqDmass n) 31 0 * x.af) 256000000 + s.axisForce n (s.doorLatched n) (s.moveSense n))

/-- An obstruction is detected (R137). -/
def Dev.obstructed (s : Dev) (n : Nat) (r f : Int) : Dev :=
  let x := s.axis n
  let s := s.dEvent 4 3 n s.dt [s.doorPos n, r, f, b2n x.nudge]
  let s := ((s.setBit (Reg.msqDstat n) 10 true).chrInc 5 (6 * n + 2)).modAxis n (fun x => { x with obsRow := 0 })
  if x.state = .closing ∧ x.nudge then s
  else
    let s := s.axisDone n .aborted 3 false s.dt
    if x.state = .closing then
      let s := s.modAxis n (fun x => { x with relief := true })
      if s.bit (Reg.msqDcfg n) 6 then s.modAxis n (fun x => { x with reopen := true })
      else s.stopAxis n
    else s.stopAxis n

/-- DOOR_LIMITER_EVALUATION: the energy limiter, then the obstruction detector; an energy trip wins. -/
def doorLimiterEvaluation (n : Nat) (s : Dev) : Dev :=
  if !s.hasAxis n || s.axisIdle n then s
  else
    let vm := (s.doorSpeed n).natAbs
    let e := s.fld (Reg.msqDmass n) 31 0 * vm * vm / 2000000000
    let s := (s.modAxis n (fun x => { x with lastE := e })).energyClampStep n vm
    let above := decide (s.eLim n * 10 * clampN 100 200 (s.fld (Reg.msqDforce n) 15 8) < e)
    let row := if above then (s.axis n).overRow + 1 else 0
    let s := s.modAxis n (fun x => { x with overRow := row })
    let x := s.axis n
    let clamp := x.gen == .home && x.forceClamp && decide (vm ≤ s.dStopV n)
    let s := s.modAxis n (fun x => { x with clampSince := if clamp then some (x.clampSince.getD s.dt) else none })
    if decide (2 ≤ row) && !x.tripped then s.energyTrip n e vm
    else if !x.state.moving || x.reopen then s
    else
      let (f, m) := s.forces n
      let r := f - m
      let counts := decide (s.dfld n (Reg.msqDobs n) 31 16 * 1000 < r.natAbs) && decide (0 < r * s.moveSense n) &&
        !s.obsSuppressed n
      let row := if counts then x.obsRow + 1 else 0
      let s := s.modAxis n (fun x => { x with obsRow := row })
      if max 1 (s.dfld n (Reg.msqDobs n) 15 8) ≤ row then s.obstructed n r f else s

def execDoorLimiterEvaluation (n : Fin 5) (s : State) : Host.Outcome State Fault Refusal :=
  s.upd (whenOn 6 (doorLimiterEvaluation n))

/-! ## Timed rows -/

/-- The enable ends: CLOSED with its reference. -/
def Dev.enableDone (s : Dev) (n : Nat) : Dev :=
  let x := s.axis n
  let s := (s.enter n .closed).modAxis n (fun x => { x with
    enabling := none, homing := false, aligning := none, clampSince := none, gen := .goto 0, pEnd := 0, pf := 0,
    vf := 0, af := 0 })
  s.completeOpt x.enabling .done s.dt [s.reg (Reg.msqDalign n), wordI (s.axis n).pRef]

/-- HOME_REFERENCE_DONE (R121). -/
def homeReferenceDone (n : Nat) (s : Dev) : Dev :=
  let x := s.axis n
  match x.clampSince with
  | some t =>
    if x.enabling.isSome && x.gen == .home && decide (t + 200000000 ≤ s.dt) then
      (s.modAxis n (fun x => { x with pRef := s.pos (n + 2) })).enableDone n
    else s
  | none => s

def execHomeReferenceDone (n : Fin 5) (s : State) : Host.Outcome State Fault Refusal :=
  s.upd (whenOn 6 (homeReferenceDone n))

/-- ALIGN_DONE (R131): p is written to DALIGN; HOME follows where asked. -/
def alignDone (n : Nat) (s : Dev) : Dev :=
  let x := s.axis n
  match x.aligning with
  | some t =>
    if t + 200000000 ≤ s.dt then
      let s := s.setReg (Reg.msqDalign n) (wordI (s.pos (n + 2)))
      if x.homing then s.modAxis n (fun x => { x with aligning := none, gen := .home })
      else s.enableDone n
    else s
  | none => s

def execAlignDone (n : Fin 5) (s : State) : Host.Outcome State Fault Refusal := s.upd (whenOn 6 (alignDone n))

/-- DOOR_MOTION_TIMEOUT (R139). -/
def doorMotionTimeout (n : Nat) (s : Dev) : Dev :=
  let x := s.axis n
  if x.state.moving && decide (x.start + s.dfld n (Reg.msqDmisc n) 31 16 * 1000000 ≤ s.dt) then
    (s.axisDone n .timeout 12 false s.dt).stopAxis n
  else s

def execDoorMotionTimeout (n : Fin 5) (s : State) : Host.Outcome State Fault Refusal :=
  s.upd (whenOn 6 (doorMotionTimeout n))

/-! ## Cam images (R122, R123, R126) -/

def parseCamEntries : Nat → List Byte → List CamEntry
  | 0, _ => []
  | n + 1, b => ⟨leAtS b 0 4, bitOf (wordN (leAt b 4 1)) 0, bitOf (wordN (leAt b 4 1)) 1⟩
      :: parseCamEntries n (b.drop 8)

/-- The cam an image holds. -/
def parseCam (b : List Byte) : Cam :=
  { kind := leAt b 2 1, rate := leAt b 6 2, xstep := leAt b 8 4, x0 := leAt b 12 4,
    entries := parseCamEntries (leAt b 4 2) (b.drop 32) }

/-- The first entry that breaks a rule on neighbours. -/
def firstPair (f : CamEntry → CamEntry → Bool) : Nat → List CamEntry → Option Nat
  | i, a :: b :: t => if f a b then some i else firstPair f (i + 1) (b :: t)
  | _, _ => none

/-- Speeds v_i of a time cam, scaled by 256 (R123). -/
def camSpeeds (rate : Nat) : List CamEntry → List Int
  | a :: b :: t => (b.pos - a.pos) * 2500 * rate :: camSpeeds rate (b :: t)
  | _ => []

def firstIdx (f : Int → Bool) (l : List Int) : Option Nat := l.findIdx? f

def camAccels (rate : Nat) : List Int → List Int
  | a :: b :: t => (b - a) * 2500 * rate :: camAccels rate (b :: t)
  | _ => []

/-- The failing rule of R123 (1-7, in its order) and the entry it fails at, under the registers the next
motion will take. -/
def Dev.camFailure (s : Dev) (n slot : Nat) (b : List Byte) : Option (Nat × Nat) :=
  let c := parseCam b
  let k := leAt b 4 2
  let stroke := s.nextStroke n
  let tol := s.fld (Reg.msqDtol n) 31 16
  let last := ((c.entries.getLast?).map (·.pos)).getD 0
  let first := ((c.entries.head?).map (·.pos)).getD 0
  let vs := camSpeeds c.rate c.entries
  if leAt b 0 2 ≠ 1 ∨ k < 2 ∨ 4096 < k ∨ (b.drop 32).length < 8 * k ∨ !camCrcOk b then some (1, 0)
  else if c.kind ≠ (if slot = 2 then 2 else 1) ∨ leAt b 3 1 ≠ slot then some (2, 0)
  else match c.entries.findIdx? (fun e => decide (e.pos < 0 ∨ stroke < e.pos)) with
    | some i => some (3, i)
    | none => match firstPair (fun a b => if slot = 1 then decide (a.pos < b.pos) else decide (b.pos < a.pos)) 0 c.entries with
      | some i => some (4, i)
      | none =>
        if (slot = 0 ∧ tol < dist last stroke) ∨ (slot = 1 ∧ tol < last.natAbs) then some (5, k - 1)
        else if slot = 2 ∧ first ≠ 0 then some (5, 0)
        else if slot ≠ 2 then
          match firstIdx (fun v => decide (s.fld (Reg.msqDvmax n) 31 0 * 256 < v.natAbs)) vs with
          | some i => some (6, i)
          | none => (firstIdx (fun v => decide (s.fld (Reg.msqDamax n) 31 0 * 65536 < v.natAbs)) (camAccels c.rate vs)).map (fun i => (6, i))
        else if c.x0 ≠ (k - 1) * c.xstep then some (7, 0)
        else none

/-- CAM_CHECK_COMPLETE (R126). -/
def camCheckComplete (n k : Nat) (s : Dev) : Dev :=
  let x := s.camSlot n k
  match x.loading with
  | none => s
  | some d =>
    let count := leAt x.staged 4 2
    match s.camFailure n k x.staged with
    | some (rule, i) =>
      let s := s.setCamSlot n k { x with valid := false, staged := [], loading := none }
      let s := (s.dEvent 6 9 n s.dt [k, rule, i]).chrInc 5 (6 * n + 5)
      s.complete d .badDescriptor s.dt [0x0D, wordN count]
    | none =>
      let s := s.setCamSlot n k { current := some (parseCam x.staged), image := x.staged, valid := true, staged := [], loading := none }
      s.complete d .done s.dt [0, wordN count]

def execCamCheckComplete (n : Fin 5) (slot : Fin 3) (s : State) : Host.Outcome State Fault Refusal :=
  s.upd (whenOn 6 (camCheckComplete n slot))

/-! ## Commands (R148) -/

def Dev.doorWait (s : Dev) (d : Desc) : Dev :=
  { s with door := { s.door with waiting := s.door.waiting ++ [(d, s.dt)] } }

/-- The object of an axis command: present, an axis, and where only doors serve no axis A with a role. -/
def Dev.axisCheck (s : Dev) (d : Desc) (doorsOnly : Bool) : Option Status :=
  let n := bitsOf d.object 7 0
  if n ≤ 4 ∧ !s.hasAxis n then some .notInVariant
  else if 4 < n ∨ bitsOf d.object 31 8 ≠ 0 then some .badDescriptor
  else if doorsOnly ∧ n = 4 ∧ s.fld (Reg.msqDcfg 4) 5 4 ≠ 0 then some .badDescriptor
  else none

def msqDEnable (d : Desc) (s : Dev) : Dev :=
  match s.axisCheck d false with
  | some st => s.fail d st
  | none => if bitsOf (d.w 3) 31 2 ≠ 0 then s.fail d .badDescriptor else s.doorWait d

def execMsqDEnable (d : Desc) (s : State) : Host.Outcome State Fault Refusal := s.cmd d (whenOn 6 (msqDEnable d))

def msqDDisable (d : Desc) (s : Dev) : Dev :=
  match s.axisCheck d false with
  | some st => s.fail d st
  | none => if bitsOf (d.w 3) 31 1 ≠ 0 then s.fail d .badDescriptor else s.doorWait d

def execMsqDDisable (d : Desc) (s : State) : Host.Outcome State Fault Refusal := s.cmd d (whenOn 6 (msqDDisable d))

/-- The sync mask names present axes and the addressed one (R148); it can never name axis A. -/
def Dev.syncCheck (s : Dev) (d : Desc) : Option Status :=
  let m := bitsOf (d.w 3) 7 4
  if (maskBits 4 m).any (fun n => !s.hasAxis n) then some .notInVariant
  else if Nat.land (d.w 3).toNat 0xFFFFFF0E ≠ 0 ∨ !tbit m (bitsOf d.object 7 0) then some .badDescriptor
  else none

def Dev.doorSet (s : Dev) (d : Desc) : Dev :=
  match s.axisCheck d true with
  | some st => s.fail d st
  | none => match s.syncCheck d with
    | some st => s.fail d st
    | none => s.doorWait d

def msqDOpen (d : Desc) (s : Dev) : Dev := s.doorSet d
def execMsqDOpen (d : Desc) (s : State) : Host.Outcome State Fault Refusal := s.cmd d (whenOn 6 (msqDOpen d))

def msqDClose (d : Desc) (s : Dev) : Dev := s.doorSet d
def execMsqDClose (d : Desc) (s : State) : Host.Outcome State Fault Refusal := s.cmd d (whenOn 6 (msqDClose d))

def msqDGoto (d : Desc) (s : Dev) : Dev :=
  match s.axisCheck d false with
  | some st => s.fail d st
  | none =>
    let t := sWord (d.w 3)
    if t < 0 ∨ s.nextStroke (bitsOf d.object 7 0) < t then s.fail d .badDescriptor else s.doorWait d

def execMsqDGoto (d : Desc) (s : State) : Host.Outcome State Fault Refusal := s.cmd d (whenOn 6 (msqDGoto d))

def msqDStop (d : Desc) (s : Dev) : Dev :=
  match s.axisCheck d false with
  | some st => s.fail d st
  | none => s.doorWait d

def execMsqDStop (d : Desc) (s : State) : Host.Outcome State Fault Refusal := s.cmd d (whenOn 6 (msqDStop d))

/-- MSQ_D_CAM_LOAD: the image is copied to staging; a slot being loaded is busy (log entry 18). -/
def msqDCamLoad (d : Desc) (img : HostBytes) (s : Dev) : Dev :=
  match s.axisCheck d false with
  | some st => s.fail d st
  | none =>
    let n := bitsOf d.object 7 0
    let k := bitsOf (d.w 3) 1 0
    let b := s.fetch d (d.w64 4) img
    if bitsOf (d.w 3) 31 2 ≠ 0 ∨ k = 3 ∨ !s.addrOk d (d.w64 4) b.length then s.fail d .badDescriptor
    else if (s.camSlot n k).loading.isSome ∨ s.door.waiting.any (fun e =>
        e.1.opcode == 0x0507 && e.1.object == d.object && bitsOf (e.1.w 3) 1 0 == k) then s.fail d .reconfigBusy
    else (s.setCamSlot n k { s.camSlot n k with staged := b }).doorWait d

def execMsqDCamLoad (d : Desc) (img : HostBytes) (s : State) : Host.Outcome State Fault Refusal :=
  s.updIn d img (whenOn 6 (msqDCamLoad d img))

def parseSine : Nat → List Byte → List Int
  | 0, _ => []
  | n + 1, b => leAtS b 0 2 :: parseSine n (b.drop 2)

/-- MSQ_D_SINE_LOAD: the table is read and waits for the door step; by the object of any axis of the part (log
entry 18). -/
def msqDSineLoad (d : Desc) (img : HostBytes) (s : Dev) : Dev :=
  let b := s.fetch d (d.w64 3) img
  match s.axisCheck d false with
  | some st => s.fail d st
  | none =>
    if !s.addrOk d (d.w64 3) 2048 ∨ b.length < 2048 then s.fail d .badDescriptor
    else ({ s with door := { s.door with sines := s.door.sines ++ [(d, parseSine 1024 b)] } }).doorWait d

def execMsqDSineLoad (d : Desc) (img : HostBytes) (s : State) : Host.Outcome State Fault Refusal :=
  s.updIn d img (whenOn 6 (msqDSineLoad d img))

/-- MSQ_D_READ: decided at the door step like every axis command (R138). -/
def msqDRead (d : Desc) (s : Dev) : Dev :=
  match s.axisCheck d false with
  | some st => s.fail d st
  | none => s.doorWait d

def execMsqDRead (d : Desc) (s : State) : Host.Outcome State Fault Refusal := s.cmd d (whenOn 6 (msqDRead d))

/-- The duty a bridge applies (R145). -/
def dutyApplied (v : Nat) : Nat := if v < 5 then 0 else if 1020 ≤ v then 1024 else v

/-- MSQ_B_SET (R145, R148). -/
def msqBSet (d : Desc) (s : Dev) : Dev :=
  let o := bitsOf d.object 7 0
  let b := o - 0x10
  let v := bitsOf (d.w 3) 10 0
  if 0x10 ≤ o ∧ o < 0x20 ∧ !s.hasBridge b then s.fail d .notInVariant
  else if o < 0x10 ∨ 0x20 ≤ o ∨ !s.bridgeGeneral b ∨ bitsOf d.object 31 8 ≠ 0 ∨ 1024 < v ∨ bitsOf (d.w 3) 31 11 ≠ 0 then
    s.fail d .badDescriptor
  else (s.setBridge b { s.bridge b with next := dutyApplied v }).complete d .done s.dt []

def execMsqBSet (d : Desc) (s : State) : Host.Outcome State Fault Refusal := s.cmd d (whenOn 6 (msqBSet d))

/-- A host abort of a door command (R138, R139). -/
def Dev.doorAbort (s : Dev) (d : Desc) : Option Dev :=
  if s.door.waiting.any (fun e => e.1.same d) then
    some (({ s with door := { s.door with waiting := s.door.waiting.filter (fun e => !e.1.same d),
                                          sines := s.door.sines.filter (fun e => !e.1.same d) } }).complete
      d .aborted s.dt [1])
  else match s.holders d with
    | n :: _ => some ((s.axisDone n .aborted 1 false s.dt).stopAxis n)
    | [] => none

end Sys2Proof.Machine
end

