-- ==== Sys2Proof/Machine/Monarch.lean ====
section
/-! DEFINITION. Monarch dispatch: stop lists, simulation, cost, and what each committed event does to the
trips (09). Times of a simulation are ms from the event; instants are DT in ns. -/
namespace Sys2Proof.Machine

def Dev.setMon (s : Dev) (f : Mon → Mon) : Dev := { s with mon := f s.mon }
def Dev.trip (s : Dev) (id : Nat) : Option Trip := kget none s.mon.trips id
def Dev.putTrip (s : Dev) (t : Trip) : Dev := s.setMon (fun m => { m with trips := kput none m.trips t.id (some t) })
def Dev.freeTrip (s : Dev) (id : Nat) : Dev := s.setMon (fun m => { m with trips := kput none m.trips id none })
/-- The trips in ascending TRIP_ID. -/
def Dev.tripList (s : Dev) : List Trip := s.mon.trips.filterMap (·.2)
def Dev.car (s : Dev) (c : Nat) : CarRec := kget .reset s.mon.cars c

/-! ## Configuration (Tables 9-6 to 9-8) -/

def Dev.dcfg (s : Dev) (off n : Nat) : Nat := leAt s.mon.cfg off n
def Dev.landings (s : Dev) : Nat := s.dcfg 38 2
def Dev.horizon (s : Dev) : Nat := s.dcfg 18 2
def Dev.carDesc (s : Dev) (c i : Nat) : Nat := s.dcfg (64 + 4 * c + i) 1
/-- Service-mask bit of car c, deck e and landing l. -/
def Dev.serves (s : Dev) (c e l : Nat) : Bool := tbit (s.dcfg (128 + 32 * (2 * c + e) + l / 8) 1) (l % 8)
/-- Flight time between lower-deck landings (R209). -/
def Dev.flight (s : Dev) (k a b : Nat) : Nat := leAt (kget [] s.mon.ftt k) (16 + 2 * (256 * a + b)) 2

/-! ## Stop lists (R208) -/

/-- A stop of a trip: its lower-deck landing, sweep coordinate and passengers. -/
structure Stop where
  lam : Int
  w : Int
  id : Nat
  pick : Bool
  pax : Nat
  deck : Nat
  acc : Bool
  hall : Bool
deriving DecidableEq, Repr

/-- Stops of one sweep coordinate. -/
structure Halt where
  lam : Int
  w : Int
  stops : List Stop
deriving DecidableEq, Repr

/-- The sweep coordinate of R208; `dUp`: d = +1. -/
def sweep (dUp : Bool) (p lam : Int) (up : Bool) : Int :=
  if dUp then
    if up && decide (p ≤ lam) then lam - p
    else if !up then 256 + (255 - lam)
    else 512 + lam
  else
    if !up && decide (lam ≤ p) then p - lam
    else if up then 256 + lam
    else 512 + (255 - lam)

def Trip.pending (t : Trip) : Bool := t.state == .assigned || t.state == .frozen
def Trip.aboard (t : Trip) : Bool := t.state == .pickup || t.state == .riding

/-- Lower-deck landing of a trip's pickup and drop. -/
def Trip.lamP (t : Trip) : Int := t.origin - t.deck
def Trip.lamD (t : Trip) : Int := t.dest - t.deck

/-- A stop of the halt at TARGET, in the pass ahead, has w = 0 (log entry 27). -/
def atTarget (target : Nat) (lam w : Int) : Int := if target ≠ 0xFF ∧ lam = target ∧ w < 256 then 0 else w

/-- The stops a trip adds to its car's list. -/
def Trip.stops (t : Trip) (dUp : Bool) (r : CarRec) : List Stop :=
  let p : Int := r.ncl
  let stop (lam w : Int) (pick : Bool) : Stop := ⟨lam, atTarget r.target lam w, t.id, pick, t.pax, t.deck, t.acc, t.type == 1⟩
  if t.aboard then
    if t.dest = 0xFFFF then [] else [stop t.lamD (sweep dUp p t.lamD t.up) false]
  else
    let w := sweep dUp p t.lamP t.up
    stop t.lamP w true ::
      (if t.dest = 0xFFFF then [] else [stop t.lamD (w + ((t.dest : Int) - t.origin).natAbs) false])

/-- Put a stop into the halts, in ascending w. -/
def addStop (x : Stop) : List Halt → List Halt
  | [] => [⟨x.lam, x.w, [x]⟩]
  | h :: t =>
    if x.w = h.w ∧ x.lam = h.lam then { h with stops := h.stops ++ [x] } :: t
    else if x.w < h.w then ⟨x.lam, x.w, [x]⟩ :: h :: t
    else h :: addStop x t

/-- The stop list of a car for a list of its trips; `dUp` as for R208. -/
def stopList (r : CarRec) (dUp : Bool) (l : List Trip) : List Halt :=
  let hs := (l.flatMap (fun t => t.stops dUp r)).foldl (fun hs x => addStop x hs) []
  if r.target = 0xFF ∨ hs.any (fun h => decide (h.w = 0 ∧ h.lam = r.target)) then hs
  else ⟨r.target, 0, []⟩ :: hs

/-- d = +1 for an idle car with an empty list, from the trip being evaluated; otherwise by DIR. A car that stands
with DIR none and an empty list takes it from the trip too (log entry 27). -/
def dirFor (r : CarRec) (l : List Trip) (new : Option Trip) : Bool :=
  match new with
  | some t =>
    if (r.phase = 0 ∨ (r.phase ≠ 3 ∧ r.dir = 0)) ∧ l.isEmpty ∧ r.target = 0xFF then
      let lam := if t.aboard then t.lamD else t.lamP
      if lam = r.o then t.up else decide ((r.o : Int) < lam)
    else r.dir == 1
  | none => r.dir == 1

/-- The trips of a car that put stops into its list. -/
def Dev.carTrips (s : Dev) (c : Nat) : List Trip :=
  s.tripList.filter (fun t => t.car == c && (t.pending || t.aboard))

/-! ## Simulation (R210) -/

/-- Passengers boarding and alighting at a halt on a deck. -/
def Halt.moves (h : Halt) (e : Nat) : Nat := ((h.stops.filter (·.deck == e)).map (·.pax)).foldl (· + ·) 0
def Halt.n (h : Halt) : Nat := max (h.moves 0) (h.moves 1)
def Halt.acc (h : Halt) : Bool := h.stops.any (·.acc)

/-- Change of the load of deck e at a halt; a hall call is never counted as alighting. -/
def Halt.load (h : Halt) (e : Nat) : Int :=
  (h.stops.filter (·.deck == e)).foldl (fun a x => if x.pick then a + x.pax else a - x.pax) 0

/-- A halt as simulated: arrival, and the loads after it. -/
structure Visit where
  halt : Halt
  arr : Int
  load0 : Int
  load1 : Int
deriving DecidableEq, Repr

/-- The halts that remain, from a departure; none where a flight time cannot be made. -/
def Dev.simRun (s : Dev) (k : Nat) : List Halt → Int → Int → Int → Int → Option (List Visit)
  | [], _, _, _, _ => some []
  | h :: t, prev, dep, l0, l1 =>
    let f := s.flight k prev.toNat h.lam.toNat
    if f = 0xFFFF then none
    else
      let arr := max 0 (dep + f)
      let dwell : Int := if h.stops.isEmpty then 0
        else s.dcfg 10 2 + s.dcfg 12 2 * h.n + (if h.acc then s.dcfg 14 2 else 0)
      let l0 := l0 + h.load 0
      let l1 := l1 + h.load 1
      (s.simRun k t h.lam (arr + dwell) l0 l1).map (fun v => ⟨h, arr, l0, l1⟩ :: v)

/-- The simulation of a car's halts at an event time. -/
def Dev.simulate (s : Dev) (c tEv : Nat) (r : CarRec) (hs : List Halt) : Option (List Visit) :=
  let k := s.carDesc c 0
  let rr := idiv ((r.tRef : Int) - tEv) 1000000
  if r.phase = 3 then s.simRun k hs r.o rr r.load0 r.load1
  else
    let dep := max 0 rr
    match hs.find? (fun h => decide (h.w = 0 ∧ h.lam = (r.o : Int))) with
    | some h =>
      let base : Int := match r.phase with | 0 => s.dcfg 10 2 | 2 => s.dcfg 16 2 | _ => 0
      let dep := dep + base + s.dcfg 12 2 * h.n + (if h.acc then s.dcfg 14 2 else 0)
      let l0 := r.load0 + h.load 0
      let l1 := r.load1 + h.load 1
      (s.simRun k (hs.erase h) r.o dep l0 l1).map (fun v => ⟨h, 0, l0, l1⟩ :: v)
    | none => s.simRun k hs r.o dep r.load0 r.load1

/-- Arrival at a trip's pickup or drop. -/
def arrival (v : List Visit) (id : Nat) (pick : Bool) : Option Int :=
  (v.find? (fun x => x.halt.stops.any (fun y => y.id == id && y.pick == pick))).map (·.arr)

/-- Completion of a trip: its drop when known and pending, else its pickup. -/
def completionOf (v : List Visit) (id : Nat) : Int := (arrival v id false).getD ((arrival v id true).getD 0)

def Visit.load (v : Visit) (e : Nat) : Int := if e = 0 then v.load0 else v.load1

/-- The peak load of the trip's deck from its pickup to its drop. -/
def peakLoad (v : List Visit) (t : Trip) : Int :=
  let has (pick : Bool) (x : Visit) : Bool := x.halt.stops.any (fun y => y.id == t.id && y.pick == pick)
  let v := if t.aboard then v else v.dropWhile (fun x => !has true x)
  (v.takeWhile (fun x => !has false x)).foldl (fun a x => max a (x.load t.deck)) 0

/-! ## Candidates and cost (R211-R215) -/

/-- What a candidate offers. -/
structure Offer where
  car : Nat
  deck : Nat
  cost : Int
  pick : Option Int
  drop : Option Int
deriving DecidableEq, Repr

/-- Car c is a live member that may be assigned (R212, R233). -/
def Dev.carLive (s : Dev) (c : Nat) : Bool := tbit s.grp.view c && tbit s.grp.eligible c

/-- Conditions of R212 on a candidate that need no simulation. -/
def Dev.candidateFit (s : Dev) (t : Trip) (c e : Nat) : Bool :=
  let ok (l : Nat) : Bool := l == 0xFFFF || (decide (e ≤ l) && s.serves c e l)
  s.carLive c && decide ((s.car c).mode = 0 ∨ (t.type = 3 ∧ (s.car c).mode = 1)) && decide (e < s.carDesc c 1)
    && decide (t.pref = 0 ∨ t.pref = e + 1) && ok t.origin && ok t.dest

/-- A new trip assigned to a candidate. -/
def Trip.placed (t : Trip) (c e : Nat) : Trip :=
  { t with car := c, deck := e, state := if t.type = 3 then .riding else .assigned }

/-- The lists of a candidate without and with a trip. -/
def Dev.candidateLists (s : Dev) (t : Trip) (c e : Nat) : List Halt × List Halt :=
  let r := s.car c
  let l := (s.carTrips c).filter (·.id != t.id)
  let n := if t.aboard && t.car == c then t else t.placed c e
  let d := dirFor r l (some n)
  (stopList r d l, stopList r d (l ++ [n]))

/-- The weighted sum of the three terms, by version (Table 9-5). -/
def weigh (v1 : Bool) (a b c : Int) : Int :=
  if v1 then (a + 128) / 256 + (b + 128) / 256 + (c + 128) / 256 else (a + b + c) / 256

/-- The offer of candidate (c, e) for trip t at an event time, if it is eligible; `cur`: the candidate the
trip is assigned to. -/
def Dev.offer (s : Dev) (t : Trip) (tEv : Nat) (cur : Option (Nat × Nat)) (c e : Nat) : Option Offer :=
  if !s.candidateFit t c e then none
  else
    let r := s.car c
    let (old, new) := s.candidateLists t c e
    if 64 < new.length then none
    else
      match s.simulate c tEv r old, s.simulate c tEv r new with
      | some vo, some vn =>
        let cap := s.carDesc c (2 + e)
        if vn.any (fun x => decide ((cap : Int) < x.load e)) then none
        else
          let v1 := s.grp.costver == 1
          let p := t.placed c e
          let pick := arrival vn t.id true
          let drop := arrival vn t.id false
          let wait := pick.getD 0
          let ride := match drop with
            | some d => d - pick.getD 0
            | none => 0
          let others := (s.carTrips c).filter (·.id != t.id)
          let dsum := others.foldl (fun a j =>
            a + (if v1 then 1 else (j.pax : Int)) * (completionOf vn j.id - completionOf vo j.id)) 0
          let ww : Int := if t.type = 4 then s.dcfg 8 2 else s.dcfg 2 2
          let base := weigh v1 (ww * t.pax * wait) ((s.dcfg 4 2 : Int) * t.pax * ride) ((s.dcfg 6 2 : Int) * dsum)
          let heavy := decide ((cap * s.dcfg 32 1 / 100 : Nat) < peakLoad vn p)
          let hyst := !v1 && decide (cur = some (c, e))
          some { car := c, deck := e, pick := pick, drop := drop,
                 cost := base + (if heavy then s.dcfg 28 4 else 0) - (if hyst then s.dcfg 24 4 else 0) }
      | _, _ => none

/-- Every candidate, by car then deck. -/
def candidates : List (Nat × Nat) := (List.range 16).flatMap (fun c => [(c, 0), (c, 1)])

/-- The best of a list of offers: lowest cost, the earlier on a tie (R213). -/
def bestOf : List Offer → Option Offer
  | [] => none
  | o :: t =>
    match bestOf t with
    | some p => if p.cost < o.cost then some p else some o
    | none => some o

def Dev.bestOffer (s : Dev) (t : Trip) (tEv : Nat) (cur : Option (Nat × Nat)) : Option Offer :=
  bestOf (candidates.filterMap (fun (c, e) => s.offer t tEv cur c e))

/-- The candidates of a call's first evaluation: its own car, the named car and deck, or every one (Table 9-1). -/
def Trip.candidates (t : Trip) : List (Nat × Nat) :=
  match t.type with
  | 3 => [(t.id / 2 ^ 40, if t.pref = 2 then 1 else 0)]
  | 5 => [(t.car, t.deck)]
  | _ => Machine.candidates

/-- The candidates refused for more than 64 halts. -/
def Dev.tooLong (s : Dev) (t : Trip) (l : List (Nat × Nat)) : List (Nat × Nat) :=
  l.filter (fun (c, e) => decide (64 < (s.candidateLists t c e).2.length) &&
    (if t.type = 3 then s.carLive c && decide ((s.car c).mode ≤ 1) else s.candidateFit t c e))

/-! ## Events (R225) -/

def tripNode (id : Nat) : Nat := id / 2 ^ 40
def tripSeq (id : Nat) : Nat := id % 2 ^ 40

/-- Is a record of this trip raised here. -/
def Dev.concerns (s : Dev) (id car : Nat) : Bool :=
  s.bit Reg.monEvcfg 0 || tripNode id == s.grp.node || car == s.grp.node

/-- Raise a Monarch event whose payload begins with the TRIP_ID. -/
def Dev.monEvent (s : Dev) (sev code car id tEv : Nat) (payload : List Int) : Dev :=
  if s.concerns id car then s.event 8 sev code car tEv (id :: payload) else s

def Dev.assignedEvent (s : Dev) (t : Trip) (tEv : Nat) (attached : Bool) : Dev :=
  s.monEvent 1 1 t.car t.id tEv
    [t.deck, b2n t.late + 2 * b2n attached + 4 * b2n (tripNode t.id == s.grp.node), t.cost, t.pickEst]

/-! ## Answers (R223, R224) -/

/-- Result words of MON_CALL. -/
def Dev.callResult (s : Dev) (c : MonCall) : List Word :=
  let t := c.trip.bind s.trip
  let car := (t.map (·.car)).getD 0xFF
  let deck := (t.map (·.deck)).getD 0
  let id := c.trip.getD c.id
  [wordN (c.cause + 256 * b2n c.late + 512 * b2n c.track), wordN id,
   wordN (id / 2 ^ 32 % 65536 + 65536 * car + 2 ^ 24 * deck), wordI ((t.map (·.cost)).getD 0)]

/-- The cause of a call entered here is known: the command without TRACK, and one that created no trip,
completes; the answer goes to the fixture. -/
def Dev.answerCall (s : Dev) (id : Nat) (trip : Option Nat) (cause : Nat) (late : Bool) : Dev :=
  if tripNode id ≠ s.grp.node then s
  else
    let t := trip.bind s.trip
    let s := s.emit (.answer (trip.getD id) ((t.map (·.car)).getD 0xFF) ((t.map (·.deck)).getD 0) late)
    match s.mon.calls.find? (·.id == id) with
    | some c =>
      let c := { c with trip := trip, cause := cause, late := late }
      if c.track && trip.isSome then
        s.setMon (fun m => { m with calls := m.calls.map (fun x => if x.id == id then c else x) })
      else
        let s := s.setMon (fun m => { m with calls := m.calls.filter (fun x => x.id != id) })
        (s.complete c.desc .done (c.sentAt.getD s.dt) (s.callResult c)).completeOpt c.abort .abortTooLate (s.acceptedAt c.abort)
          (abortRes .done)
    | none => s

/-- A trip ends at an instant: its tracked calls complete; an abort that waits is decided (R224). -/
def Dev.endCalls (s : Dev) (id at_ : Nat) (served : Bool) : Dev :=
  (s.mon.calls.filter (fun c => c.trip == some id)).foldl (fun s c =>
    let res := s.callResult c
    let s := s.setMon (fun m => { m with calls := m.calls.filter (fun x => x.id != c.id) })
    let acc := s.acceptedAt c.abort
    let s := s.complete c.desc (if served then .done else .aborted) (if served || c.abort.isNone then at_ else acc) res
    s.completeOpt c.abort (if served then .abortTooLate else .abortApplied) acc (abortRes (if served then .done else .aborted))) s

/-! ## Evaluation queue (R202, R219) -/

/-- Evaluations queued or running, those of committed calls that wait included (log entry 27). -/
def Dev.qdepth (s : Dev) : Nat :=
  s.mon.jobs.length + (s.mon.committed.filter (fun c => match c with
    | .event e => (match e.body with | .call _ => true | _ => false)
    | .tick _ => false)).length

def Dev.queueEval (s : Dev) (j : EvalJob) : Dev :=
  s.setMon (fun m => { m with jobStart := if m.jobs.isEmpty then s.dt else m.jobStart, jobs := m.jobs ++ [j] })

/-- Fabric cycles of an evaluation (R219). -/
def Dev.evalCycles (s : Dev) (j : EvalJob) : Nat :=
  match s.trip j.trip with
  | some t =>
    if j.kind = .call ∧ (t.type = 3 ∨ t.type = 5) then 16000
    else
      let n := (List.range 16).foldl (fun a c =>
        if s.carLive c then max a (stopList (s.car c) ((s.car c).dir == 1) ((s.carTrips c).filter (·.id != t.id))).length
        else a) 0
      16000 + 11000 * (n + 2)
  | none => 16000

/-- The cost field saturates to int32. -/
def cost32 (x : Int) : Int := satS 32 x

/-- An estimate as ms after T_EV. -/
def estMs (t : Trip) (tEv : Nat) (a : Option Int) : Nat :=
  match a with
  | some a => satU 32 (idiv ((tEv : Int) - t.tEv) 1000000 + a)
  | none => 0xFFFFFFFF

/-- The trip enters the winner's list. -/
def Trip.assign (t : Trip) (o : Offer) (tEv : Nat) : Trip :=
  { t with state := .assigned, car := o.car, deck := o.deck, cost := cost32 o.cost,
           pickEst := estMs t tEv o.pick, dropEst := estMs t tEv o.drop }

/-- MON_STOPLIST_FULL for the candidates refused (R212), at the nodes the trip concerns once it is evaluated. -/
def Dev.noteLong (s : Dev) (id tEv : Nat) (l : List (Nat × Nat)) : Dev :=
  let car := ((s.trip id).map (·.car)).getD 0xFF
  l.foldl (fun s (c, e) =>
    let s := s.setBit Reg.monStat 4 true
    if s.concerns id car then s.event 8 4 9 c tEv (id :: [(e : Int)]) else s) s

/-- A call's evaluation: assignment or insertion (Table 9-3). -/
def Dev.evalCall (s : Dev) (t : Trip) (tEv : Nat) : Dev :=
  if t.type = 3 then
    let c := tripNode t.id
    let e := if t.pref = 2 then 1 else 0
    let n := { t.placed c e with pickEst := 0xFFFFFFFF }
    if s.carLive c && decide ((s.car c).mode ≤ 1) && decide ((s.candidateLists t c e).2.length ≤ 64) then
      let v := s.simulate c tEv (s.car c) (s.candidateLists t c e).2
      (s.putTrip { n with dropEst := estMs t tEv (v.bind (fun v => arrival v t.id false)) }).answerCall t.id (some t.id) 0 t.late
    else (s.freeTrip t.id).answerCall t.id none 5 t.late
  else if t.type = 5 then
    match s.offer t tEv none t.car t.deck with
    | some o => (s.putTrip { t.assign o tEv with cost := 0 }).answerCall t.id (some t.id) 0 t.late
    | none => (s.freeTrip t.id).answerCall t.id none 4 t.late
  else
    match s.bestOffer t tEv none with
    | some o =>
      let t := t.assign o tEv
      ((s.putTrip t).assignedEvent t tEv false).answerCall t.id (some t.id) 0 t.late
    | none =>
      let t := { t with state := .unassigned, car := 0xFF }
      ((s.putTrip t).monEvent 6 3 0xFF t.id tEv [t.type]).answerCall t.id (some t.id) 2 t.late

/-- MON_REASSIGNED. -/
def Dev.reassigned (s : Dev) (t : Trip) (n : Trip) (cause tEv : Nat) : Dev :=
  let pay : List Int := [t.car, n.car, cause, n.deck, n.cost]
  if s.concerns t.id t.car || s.concerns t.id n.car then s.event 8 4 2 n.car tEv (t.id :: pay) else s

/-- The entering node announces the car again (R217, R242). -/
def Dev.announce (s : Dev) (t : Trip) : Dev :=
  if tripNode t.id = s.grp.node then s.emit (.answer t.id t.car t.deck t.late) else s

/-- A re-evaluation of a trip whose candidate is no longer eligible (Table 9-3). -/
def Dev.evalIneligible (s : Dev) (t : Trip) (tEv : Nat) : Dev :=
  match s.bestOffer t tEv none with
  | some o =>
    if o.car = t.car ∧ o.deck = t.deck then s
    else
      let n := { t.assign o tEv with reann := t.reann || o.car != t.car }
      ((s.putTrip n).reassigned t n 2 tEv).announce n
  | none =>
    let n := { t with state := .unassigned, car := 0xFF }
    (s.putTrip n).reassigned t n 2 tEv

/-! ## Freezing (R216) -/

/-- The freeze rule at an applied event: PICKUP_EST recomputed, HORIZON, a pickup in the halt at TARGET. -/
def Dev.freezeTrip (s : Dev) (tEv : Nat) (t : Trip) : Dev :=
  if t.state ≠ .assigned then s
  else
    let r := s.car t.car
    let l := s.carTrips t.car
    let dUp := dirFor r (l.filter (·.id != t.id)) (some t)
    let hs := stopList r dUp l
    let next := r.target != 0xFF && decide (t.lamP = r.target ∧ sweep dUp r.ncl t.lamP t.up < 256)
    match (s.simulate t.car tEv r hs).bind (fun v => arrival v t.id true) with
    | some a =>
      s.putTrip { t with pickEst := estMs t tEv (some a), state := if decide (a ≤ s.horizon) || next then .frozen else .assigned }
    | none => s.putTrip { t with state := if next then .frozen else .assigned }

def Dev.freezeAll (s : Dev) (tEv : Nat) : Dev := s.tripList.foldl (fun s t => s.freezeTrip tEv t) s

/-- A re-evaluation at a tick (R217); the freeze row of Table 9-3 precedes the cost row. -/
def Dev.evalTick (s : Dev) (t : Trip) (tEv : Nat) : Dev :=
  let s := s.freezeTrip tEv t
  match ((s.trip t.id).map (·.state)).getD t.state with
  | .unassigned =>
    match s.bestOffer t tEv none with
    | some o =>
      let t := t.assign o tEv
      (s.putTrip t).assignedEvent t tEv false
    | none => s
  | .assigned =>
    let cur := (t.car, t.deck)
    match s.bestOffer t tEv (some cur) with
    | some o =>
      let better := s.grp.costver != 1 ||
        (match s.offer t tEv (some cur) t.car t.deck with | some c => decide (o.cost < c.cost) | none => true)
      if (o.car, o.deck) = cur ∨ !better then s
      else
        let n := { t.assign o tEv with reassigns := t.reassigns + 1 }
        (s.putTrip n).reassigned t n 1 tEv
    | none => s
  | _ => s

/-- The end of an event's application: with no evaluation left, the freeze rule. -/
def Dev.settleEvent (s : Dev) (tEv : Nat) : Dev :=
  if s.mon.jobs.isEmpty then (s.freezeAll tEv).setMon (fun m => { m with running := none })
  else s.setMon (fun m => { m with running := some tEv })

/-- Finish the evaluation at the head of the queue. -/
def Dev.finishEval (s : Dev) : Dev :=
  match s.mon.jobs with
  | j :: rest =>
    let t := s.trip j.trip
    let cyc := s.evalCycles j
    let long := match t with
      | some t => s.tooLong t (if j.kind = .call then t.candidates else candidates)
      | none => []
    let s := s.setMon (fun m => { m with jobs := rest, jobStart := m.jobStart + 2 * cyc, lastEval := cyc,
                                         maxEval := max m.maxEval cyc })
    let s := match t with
      | some t => match j.kind with
        | .call => s.evalCall t j.tEv
        | .tick => s.evalTick t j.tEv
        | .ineligible => s.evalIneligible t j.tEv
      | none => s
    let s := s.noteLong j.trip j.tEv long
    match s.mon.running with
    | some t => s.settleEvent t
    | none => s
  | [] => s

/-! ## The applied events -/

/-- The token bucket (R218): whether the call is LATE. -/
def Dev.bucket (s : Dev) (tEv : Nat) : Bool × Dev :=
  let m := s.mon
  let earn := (tEv - m.tFill) / 5000000
  let tok := m.tok + earn
  let fill := m.tFill + earn * 5000000
  let (tok, fill) := if 64 ≤ tok then (64, tEv) else (tok, fill)
  (tok == 0, s.setMon (fun m => { m with tok := tok - 1, tFill := fill }))

/-- The trip a hall call attaches to (R204). -/
def Dev.attachTo (s : Dev) (t : Trip) : Option Trip :=
  if t.type ≠ 1 then none
  else s.tripList.find? (fun x => x.type == 1 && x.origin == t.origin && x.up == t.up && x.pref == t.pref &&
    (x.state == .unassigned || x.pending))

/-- The trip of a call event (R203). -/
def Dev.tripOf (s : Dev) (c : CallBody) (tEv node : Nat) (late : Bool) : Trip :=
  let ty := bitsOf c.w4 2 0
  let up := if ty = 1 then bitOf c.w4 3
    else if ty = 3 then decide ((s.car node).o ≤ c.ld)
    else decide (c.lo < c.ld)
  { id := c.id, type := ty, state := .unassigned, origin := if ty = 3 then 0xFFFF else c.lo, dest := c.ld, up := up,
    late := late, acc := bitOf c.w4 6, pref := bitsOf c.w4 5 4, reann := false,
    pax := if ty = 1 then s.dcfg 33 1 else if ty = 3 then 1 else bitsOf c.w4 11 8,
    car := if ty = 5 then bitsOf c.w4 19 16 else 0xFF, deck := if ty = 5 then b2n (bitOf c.w4 20) else 0, tEv := tEv,
    cost := 0, pickEst := 0xFFFFFFFF, dropEst := 0xFFFFFFFF, reassigns := 0, attach := 0, tPick := 0, tag := c.tag }

/-- Contexts usable in this group (R205). -/
def Dev.tripCap (s : Dev) : Nat :=
  if s.hasGrp then min s.grp.capacity s.tripCtx else if s.grp.epoch = 0 then 0 else s.tripCtx

def Dev.applyCall (s : Dev) (e : GroupEvent) (c : CallBody) : Dev :=
  let (late, s) := s.bucket e.tEv
  let t := s.tripOf c e.tEv e.node late
  let s := { s with grp := { s.grp with hw := kput 0 s.grp.hw (tripNode c.id) (max (kget 0 s.grp.hw (tripNode c.id)) (tripSeq c.id)) } }
  let s := if late then
      ((s.setBit Reg.monStat 3 true).setMon (fun m => { m with lateCnt := satInc 32 m.lateCnt })).monEvent 4 4 0xFF
        c.id e.tEv [t.type, s.qdepth]
    else s
  match s.attachTo t with
  | some x =>
    let x := { x with attach := satInc 8 x.attach }
    (((s.putTrip x).assignedEvent x e.tEv true).answerCall c.id (some x.id) 1 late).settleEvent e.tEv
  | none =>
    if s.tripCap ≤ s.tripList.length then
      let s := s.setBit Reg.monStat 2 true
      let s := if s.concerns c.id 0xFF then s.event 8 6 7 0xFF e.tEv [t.origin, t.dest, t.type, s.tripList.length] else s
      (s.answerCall c.id none 3 late).settleEvent e.tEv
    else ((s.putTrip t).queueEval ⟨t.id, .call, e.tEv⟩).settleEvent e.tEv

/-- A trip ends without being served. -/
def Dev.cancelTrip (s : Dev) (t : Trip) (cause tEv : Nat) : Dev :=
  let st : Int := match t.state with | .unassigned => 0 | .assigned => 1 | .frozen => 2 | .pickup => 3 | .riding => 4
  let code : Int := (Config.tripStateCode (st.toNat + 1)).toNat
  ((s.monEvent 2 6 t.car t.id tEv [cause, code]).endCalls t.id tEv false).freeTrip t.id

/-- The cancel of an abort is applied to a call that holds no trip of its own (log entry 27). -/
def Dev.endAbortedCall (s : Dev) (id : Nat) : Dev :=
  match s.mon.calls.find? (fun c => c.id == id && c.abort.isSome) with
  | some c =>
    let res := s.callResult c
    let s := s.setMon (fun m => { m with calls := m.calls.filter (fun x => x.id != id) })
    let acc := s.acceptedAt c.abort
    (s.complete c.desc .aborted acc res).completeOpt c.abort .abortApplied acc (abortRes .aborted)
  | none => s

def Dev.applyCancel (s : Dev) (e : GroupEvent) (id : Nat) : Dev :=
  let t := s.trip id
  let s := match t with
    | some t => s.cancelTrip t 1 e.tEv
    | none => s
  let s := if e.node = s.grp.node then
      match s.mon.cancels.find? (fun c => c.2.1 == id && c.2.2 == e.tEv) with
      | some c =>
        (s.setMon (fun m => { m with cancels := m.cancels.erase c })).complete c.1 .done s.dt [wordN (b2n t.isSome)]
      | none => s.endAbortedCall id
    else s
  s.settleEvent e.tEv

/-- The car record serves a stop of a trip at a lower-deck landing (R206). -/
def CarRec.serves (r : CarRec) (t : Trip) (lam : Int) : Bool :=
  r.phase == 1 && decide (lam = r.o) && tbit r.doors t.deck && (r.dir == 0 || (r.dir == 1) == t.up)

/-- MON_TRIP_DONE. -/
def Dev.tripDone (s : Dev) (t : Trip) (tEv : Nat) : Dev :=
  let pick := if t.type = 1 then tEv else t.tPick
  let wait := if t.type = 3 then 0 else (pick - t.tEv) / 1000000
  let ride := if t.type = 1 then 0 else (tEv - (if t.type = 3 then t.tEv else pick)) / 1000000
  ((s.monEvent 1 5 t.car t.id tEv [t.deck, t.type, wait, ride]).endCalls t.id tEv true).freeTrip t.id

/-- One trip at a car-status event of its car. -/
def Dev.serveTrip (s : Dev) (tEv : Nat) (r : CarRec) (t : Trip) : Dev :=
  if t.pending then
    if r.serves t t.lamP then
      if t.type = 1 then s.tripDone t tEv else s.putTrip { t with state := .pickup, tPick := tEv }
    else s
  else if t.state = .pickup ∧ r.phase = 3 then s.putTrip { t with state := .riding }
  else if t.aboard && t.dest != 0xFFFF && r.serves t t.lamD then s.tripDone t tEv
  else s

/-- Queue the re-evaluation of every trip whose candidate is no longer eligible. -/
def Dev.reevaluate (s : Dev) (tEv : Nat) : Dev :=
  s.tripList.foldl (fun s t =>
    if t.pending && (s.offer t tEv none t.car t.deck).isNone then s.queueEval ⟨t.id, .ineligible, tEv⟩ else s) s

def Dev.applyStatus (s : Dev) (e : GroupEvent) (r : CarRec) : Dev :=
  let s := s.setMon (fun m => { m with cars := kput .reset m.cars e.node r })
  let s := { s with grp := { s.grp with eligible := s.grp.eligible ||| 2 ^ e.node } }
  let s := (s.carTrips e.node).foldl (fun s t => s.serveTrip e.tEv r t) s
  (s.reevaluate e.tEv).settleEvent e.tEv

/-- The trips of R217 item 2, from the one after RRPTR, wrapping once. -/
def Dev.roundRobin (s : Dev) : List Trip :=
  let dest := tbit (s.dcfg 34 1) 0
  let l := s.tripList.filter (fun t => t.state == .assigned && decide (t.reassigns < s.dcfg 23 1) &&
    (t.type == 1 || (dest && (t.type == 2 || t.type == 4))))
  l.filter (fun t => decide (s.mon.rrptr < t.id)) ++ l.filter (fun t => decide (t.id ≤ s.mon.rrptr))

def Dev.applyTick (s : Dev) (tEv : Nat) : Dev :=
  let ttl := s.dcfg 36 2 * 1000000000
  let s := (s.tripList.filter (fun t => decide (ttl < tEv - t.tEv))).foldl (fun s t => s.cancelTrip t 2 tEv) s
  let s := s.freezeAll tEv
  let n := s.dcfg 22 1
  let first := (s.tripList.filter (fun t => t.state == .unassigned)).take n
  let second := s.roundRobin.take (n - first.length)
  let s := (first ++ second).foldl (fun s t => s.queueEval ⟨t.id, .tick, tEv⟩) s
  let s := match second.getLast? with
    | some t => s.setMon (fun m => { m with rrptr := t.id })
    | none => s
  s.settleEvent tEv

def Dev.applyCommitted (s : Dev) : Committed → Dev
  | .tick t => s.applyTick t
  | .event e => match e.body with
    | .status r => s.applyStatus e r
    | .call c => s.applyCall e c
    | .cancel id => s.applyCancel e id

/-- Apply what is committed, and every evaluation it needs (10 R236: an epoch closes). -/
def drainMon : Nat → Dev → Dev
  | 0, s => s
  | n + 1, s =>
    match s.mon.jobs, s.mon.committed with
    | _ :: _, _ => drainMon n s.finishEval
    | [], c :: rest => drainMon n ((s.setMon (fun m => { m with committed := rest })).applyCommitted c)
    | [], [] => s

/-- Enough steps for everything queued: each event queues at most one evaluation per trip. -/
def Dev.drain (s : Dev) : Dev := drainMon ((s.mon.committed.length + 1) * (s.tripList.length + s.mon.committed.length + 2) + s.mon.jobs.length) s

/-- Apply the head of the committed order when it is of the row's kind and no evaluation is left. -/
def Dev.applyHead (s : Dev) (p : Committed → Bool) : Dev :=
  match s.mon.jobs, s.mon.committed with
  | [], c :: rest => if p c then (s.setMon (fun m => { m with committed := rest })).applyCommitted c else s
  | _, _ => s

def Committed.isTick : Committed → Bool
  | .tick _ => true
  | .event _ => false
def Committed.isCall : Committed → Bool
  | .event ⟨_, _, _, _, .call _⟩ => true
  | _ => false
def Committed.isCancel : Committed → Bool
  | .event ⟨_, _, _, _, .cancel _⟩ => true
  | _ => false
def Committed.isStatus : Committed → Bool
  | .event ⟨_, _, _, _, .status _⟩ => true
  | _ => false

/-- MON_APPLY_CALL, MON_APPLY_CANCEL, MON_APPLY_CAR_STATUS and MON_APPLY_TICK: the event itself. -/
def monApplyCall (s : Dev) : Dev := s.applyHead Committed.isCall
def monApplyCancel (s : Dev) : Dev := s.applyHead Committed.isCancel
def monApplyCarStatus (s : Dev) : Dev := s.applyHead Committed.isStatus
def monApplyTick (s : Dev) : Dev := s.applyHead Committed.isTick

end Sys2Proof.Machine
end

