-- ==== Sys2Proof/Machine/GroupLink.lean ====
section
/-! DEFINITION. The records of group replication as bytes, group frames, and the sending of group events
(10 R226-R229, 11 R254-R256). Records are little-endian. -/
namespace Sys2Proof.Machine

def Dev.setGrp (s : Dev) (f : Grp → Grp) : Dev := { s with grp := f s.grp }
def Dev.setStl (s : Dev) (f : Stl → Stl) : Dev := { s with stl := f s.stl }
def Dev.peer (s : Dev) (n : Nat) : Peer := kget .reset s.grp.peers n
def Dev.modPeer (s : Dev) (n : Nat) (f : Peer → Peer) : Dev :=
  s.setGrp (fun g => { g with peers := kmod .reset g.peers n f })

def zeros (n : Nat) : List Byte := List.replicate n 0

/-! ## Records -/

def CarRec.bytes (r : CarRec) : List Byte :=
  [r.mode, r.phase, r.dir, r.doors, r.o, r.ncl, r.load0, r.load1].flatMap (leBytes 1)
    ++ leBytes 8 r.tRef ++ leBytes 1 r.target ++ zeros 15

def CarRec.ofBytes (b : List Byte) : CarRec :=
  let g (i : Nat) : Nat := leAt b i 1
  ⟨g 0, g 1, g 2, g 3, g 4, g 5, g 6, g 7, leAt b 8 8, g 16⟩

def TripState.index : TripState → Nat
  | .unassigned => 1 | .assigned => 2 | .frozen => 3 | .pickup => 4 | .riding => 5

/-- The STATE byte of Table 9-2 (log entry 26). -/
def TripState.code (t : TripState) : Byte := Config.tripStateCode t.index
def TripState.ofCode (b : Byte) : TripState :=
  ([TripState.unassigned, .assigned, .frozen, .pickup, .riding].find? (fun t => t.code == b)).getD .unassigned

/-- A trip context (09 Table 9-2). -/
def Trip.bytes (t : Trip) : List Byte :=
  leBytes 6 t.id ++ leBytes 1 t.type ++ [t.state.code] ++ leBytes 2 t.origin ++ leBytes 2 t.dest
    ++ leBytes 1 (b2n t.up + 2 * b2n t.late + 4 * b2n t.acc + 8 * t.pref + 32 * b2n t.reann)
    ++ leBytes 1 t.pax ++ leBytes 1 t.car ++ leBytes 1 t.deck ++ leBytes 8 t.tEv ++ leBytes 4 (wrapU 32 t.cost)
    ++ leBytes 4 t.pickEst ++ leBytes 4 t.dropEst ++ leBytes 1 t.reassigns ++ leBytes 1 t.attach ++ zeros 2
    ++ leBytes 8 t.tPick ++ leBytes 4 t.tag.toNat ++ zeros 12

def Trip.ofBytes (b : List Byte) : Trip :=
  let f := leAt b 12 1
  { id := leAt b 0 6, type := leAt b 6 1, state := .ofCode (b.getD 7 0), origin := leAt b 8 2, dest := leAt b 10 2,
    up := tbit f 0, late := tbit f 1, acc := tbit f 2, pref := natBits f 4 3, reann := tbit f 5, pax := leAt b 13 1,
    car := leAt b 14 1, deck := leAt b 15 1, tEv := leAt b 16 8, cost := leAtS b 24 4, pickEst := leAt b 28 4,
    dropEst := leAt b 32 4, reassigns := leAt b 36 1, attach := leAt b 37 1, tPick := leAt b 40 8,
    tag := BitVec.ofNat 32 (leAt b 48 4) }

/-- An event record (10 Table 10-2). -/
def GroupEvent.bytes (e : GroupEvent) (resent : Bool) : List Byte :=
  let (kind, body) : Nat × List Byte := match e.body with
    | .status r => (1, r.bytes ++ zeros 8)
    | .call c => (2, leBytes 6 c.id ++ leBytes 2 c.lo ++ leBytes 2 c.ld ++ leBytes 4 c.w4.toNat ++ leBytes 4 c.tag.toNat ++ zeros 22)
    | .cancel id => (3, leBytes 6 id ++ zeros 34)
  leBytes 1 2 ++ leBytes 1 kind ++ leBytes 1 e.node ++ leBytes 1 (b2n resent) ++ leBytes 4 e.gseq ++ leBytes 8 e.tEv
    ++ leBytes 4 e.epoch ++ zeros 4 ++ body

def GroupEvent.ofBytes (b : List Byte) : Option GroupEvent :=
  let mk (x : EventBody) : Option GroupEvent := some ⟨leAt b 2 1, leAt b 4 4, leAt b 8 8, leAt b 16 4, x⟩
  match leAt b 1 1 with
  | 1 => mk (.status (.ofBytes (b.drop 24)))
  | 2 => mk (.call ⟨leAt b 24 6, leAt b 30 2, leAt b 32 2, BitVec.ofNat 32 (leAt b 34 4), BitVec.ofNat 32 (leAt b 38 4)⟩)
  | 3 => mk (.cancel (leAt b 24 6))
  | _ => none

/-- A heartbeat record (10 Table 10-1). -/
def Heartbeat.bytes (h : Heartbeat) : List Byte :=
  [1, h.proto, h.protoMin, h.protoMax, h.node, h.flags, h.costMin, h.costMax].flatMap (leBytes 1)
    ++ leBytes 8 h.hbT ++ leBytes 4 h.epoch ++ leBytes 1 h.coord ++ zeros 1 ++ leBytes 2 h.view ++ leBytes 4 h.cap.toNat
    ++ leBytes 8 h.active ++ leBytes 8 h.staged ++ leBytes 4 h.gseq ++ leBytes 2 h.groupId ++ leBytes 2 h.capacity
    ++ leBytes 1 h.members ++ zeros 1 ++ leBytes 2 h.skew ++ zeros 8

def Heartbeat.ofBytes (b : List Byte) : Heartbeat :=
  let g (i : Nat) : Nat := leAt b i 1
  { proto := g 1, protoMin := g 2, protoMax := g 3, node := g 4, flags := g 5, costMin := g 6, costMax := g 7,
    hbT := leAt b 8 8, epoch := leAt b 16 4, coord := g 20, view := leAt b 22 2, cap := BitVec.ofNat 32 (leAt b 24 4),
    active := leAt b 28 8, staged := leAt b 36 8, gseq := leAt b 44 4, groupId := leAt b 48 2, capacity := leAt b 50 2,
    members := g 52, skew := leAt b 54 2 }

/-- A FLUSH record (10 R235). -/
def Flush.bytes (f : Flush) : List Byte :=
  leBytes 1 3 ++ leBytes 1 f.node ++ leBytes 2 f.proposed ++ leBytes 4 f.epoch ++ leBytes 1 f.coord ++ zeros 7
    ++ leBytes 8 f.hbT ++ (List.range 16).flatMap (fun i => leBytes 4 (f.recv.getD i 0)) ++ zeros 8

def Flush.ofBytes (b : List Byte) : Flush :=
  { node := leAt b 1 1, proposed := leAt b 2 2, epoch := leAt b 4 4, coord := leAt b 8 1, hbT := leAt b 16 8,
    recv := (List.range 16).map (fun i => leAt b (24 + 4 * i) 4), view := 0, told := false, came := 0 }

/-- An EPOCH_START record (10 R235); an unused snapshot entry is all zero (log entry 28). -/
def EpochStart.bytes (e : EpochStart) : List Byte :=
  leBytes 1 4 ++ leBytes 1 e.coord ++ leBytes 2 e.view ++ leBytes 4 e.epoch ++ leBytes 1 e.proto ++ leBytes 1 e.costver
    ++ leBytes 1 e.cause ++ leBytes 1 (b2n e.merge) ++ zeros 4 ++ leBytes 8 e.tS
    ++ (List.range 16).flatMap (fun i => leBytes 4 (e.cut.getD i 0)) ++ leBytes 8 e.active
    ++ (List.range 4).flatMap (fun i => match e.snaps[i]? with
      | some (n, c) => leBytes 1 n ++ zeros 3 ++ leBytes 4 c.toNat
      | none => zeros 8)

def EpochStart.ofBytes (b : List Byte) : EpochStart :=
  { coord := leAt b 1 1, view := leAt b 2 2, epoch := leAt b 4 4, proto := leAt b 8 1, costver := leAt b 9 1,
    cause := leAt b 10 1, merge := tbit (leAt b 11 1) 0, tS := leAt b 16 8,
    cut := (List.range 16).map (fun i => leAt b (24 + 4 * i) 4), active := leAt b 88 8,
    snaps := (List.range 4).filterMap (fun i =>
      let c := leAt b (100 + 8 * i) 4
      if c = 0 ∧ leAt b (96 + 8 * i) 1 = 0 then none else some (leAt b (96 + 8 * i) 1, BitVec.ofNat 32 c)) }

/-! ## Group frames (11 R254-R256) -/

/-- The ports that may transmit: enabled and not failed. -/
def Dev.stlPorts (s : Dev) : Nat :=
  if !s.bit Reg.stlCfg 0 then 0
  else b2n (s.bit Reg.stlCfg 4 && !s.stl.portA.failed) + 2 * b2n (s.bit Reg.stlCfg 5 && !s.stl.portB.failed)

def be2 (x : Nat) : List Byte := beBytes 2 x

/-- The addresses, tag and EtherType of a group frame. -/
def Dev.groupHead (s : Dev) : List Byte :=
  let tag := s.reg Reg.stlVlan
  [0x03, 0x50, 0x4C, 0x53] ++ be2 s.grp.groupId ++ be2 (s.fld Reg.stlMachi 15 0) ++ beBytes 4 (s.reg Reg.stlMaclo).toNat
    ++ (if bitOf tag 16 then be2 0x8100 ++ be2 (bitsOf tag 15 0) else []) ++ be2 0x88B5

/-- The first twelve bytes of the Swallowtail header (11 Table 11-1). -/
def stlHead (node gid sseq len : Nat) : List Byte :=
  leBytes 1 1 ++ leBytes 1 node ++ leBytes 2 gid ++ leBytes 4 sseq ++ leBytes 2 len ++ zeros 2

/-- Send a record to the group on every port that may transmit; Solo parts send none (R28). -/
def Dev.groupSend (s : Dev) (r : List Byte) : Dev :=
  if !s.hasGrp || !s.powered 8 || !s.bit Reg.stlCfg 0 then s
  else
    let q := (s.stl.sseq + 1) % 2 ^ 32
    let h := stlHead s.grp.node s.grp.groupId q r.length
    let f := s.groupHead ++ h ++ leBytes 4 (crc32 (h ++ r)).toNat ++ r
    let f := f ++ zeros (60 - f.length)
    (s.setStl (fun t => { t with sseq := q })).emit (.groupSend s.stlPorts (f ++ leBytes 4 (crc32 f).toNat))

/-! ## Watermark and event records (10 R226, R227, R229) -/

/-- HB_T: below the event time of every input received or formed and not sent (R227): events that wait, CAN frames
for the host that no CAN_RX has taken, and dispatched MON_CALL, MON_CANCEL, MON_CAR_MODE and aborts of tracked calls. -/
def Dev.watermark (s : Dev) : Nat :=
  let unsent := s.grp.unsent.map (·.2)
  let frames := s.canCtl.flatMap (fun x => (x.2.rx.filter (fun f => !(s.qp f.qp).isLocal)).map (·.at_))
  let cmds := (s.hiu.inFlight.filter (fun e =>
    decide (0x0801 ≤ e.desc.opcode ∧ e.desc.opcode ≤ 0x0803) && !s.mon.calls.any (fun c => c.desc.same e.desc)
      && !s.mon.cancels.any (fun c => c.1.same e.desc) ||
    e.desc.opcode == 0x0106 && s.mon.calls.any (fun c => c.track && c.abort.isNone
      && c.desc.qp == bitsOf (e.desc.w 3) 6 0 && c.desc.tag == e.desc.w 4))).map (·.at_)
  (unsent ++ frames ++ cmds).foldl min s.dt - 1

/-- The node sends car-status records now: a member, not between its FLUSH and the next EPOCH_START, in
synchronisation. A Solo part: once its local epoch runs (R246). -/
def Dev.mayEnter (s : Dev) : Bool :=
  if s.hasGrp then s.grp.member && s.grp.change.isNone && s.stl.sync
  else !s.mon.cfg.isEmpty

/-- The node sends an event of this kind now: calls and cancels once its snapshot is installed (R243). -/
def Dev.maySend (s : Dev) : EventBody → Bool
  | .status _ => s.mayEnter
  | _ => s.mayEnter && (!s.hasGrp || s.grp.installed)

/-- Keep a record for re-sending: the last 1,024 of each node. -/
def keepLog (l : List GroupEvent) (e : GroupEvent) : List GroupEvent :=
  let l := l ++ [e]
  if 1024 < (l.filter (·.node == e.node)).length then
    match l.find? (·.node == e.node) with
    | some x => l.erase x
    | none => l
  else l

/-- Number, keep and send an own event. -/
def Dev.enterEvent (s : Dev) (b : EventBody) (tEv : Nat) : Dev :=
  let q := (s.grp.gseq + 1) % 2 ^ 32
  let e : GroupEvent := ⟨s.grp.node, q, tEv, s.grp.epoch, b⟩
  let s := s.setGrp (fun g => { g with gseq := q, log := keepLog g.log e, held := g.held ++ [e] })
  let s := match b with
    | .call c => s.setMon (fun m => { m with calls := m.calls.map (fun (x : MonCall) => if x.id == c.id then { x with sentAt := some s.dt } else x) })
    | _ => s
  s.groupSend (e.bytes false)

/-- Form an event: it is sent at once, or waits until it may be sent. -/
def Dev.formEvent (s : Dev) (b : EventBody) (tEv : Nat) : Dev :=
  if s.maySend b then s.enterEvent b tEv
  else s.setGrp (fun g => { g with unsent := g.unsent ++ [(b, tEv)] })

/-- Send what has waited and may be sent. -/
def Dev.sendWaiting (s : Dev) : Dev :=
  let go := s.grp.unsent.filter (fun e => s.maySend e.1)
  let stay := s.grp.unsent.filter (fun e => !s.maySend e.1)
  go.foldl (fun s e => s.enterEvent e.1 e.2) (s.setGrp (fun g => { g with unsent := stay }))

end Sys2Proof.Machine
end

