-- ==== Sys2Proof/Machine/CarStatus.lean ====
section
/-! DEFINITION. The car record the node forms of its own car, and the hoist and door steps that change it
(09 R207). What the spec leaves to the module's own choice: log entry 29. -/
namespace Sys2Proof.Machine

/-- The car is between its departure and its halt. -/
def Dev.carRunning (s : Dev) : Bool :=
  s.hoist.live || s.hoist.phase == .quickStop || s.hoist.phase == .coasting || s.hoist.kin.moving

/-- A deck of the own car has a door axis enabled. -/
def Dev.deckHasAxis (s : Dev) (e : Nat) : Bool :=
  (List.range 4).any (fun n => deckOf n == e && (s.axis n).state != .disabled)

/-- A deck the car has, by its descriptor, without a door axis enabled; deck 0 where no axis is. -/
def Dev.bareDeck (s : Dev) (e : Nat) : Bool :=
  !s.deckHasAxis e && (decide (e < s.carDesc s.grp.node 1) || (e == 0 && !s.deckHasAxis 1))

/-- PHASE (Table 9-4). At a deck with no door axis enabled the module sees no door: the car dwells from the end of a
run, and from when a stop of its list is at its halt on such a deck, until it runs again (log entry 29). -/
def Dev.ownPhase (s : Dev) : Nat :=
  let ax := (List.range 4).map (fun n => (s.axis n).state)
  let was := (s.mon.own.map (·.phase)).getD 0
  let r := s.car s.grp.node
  let here := (stopList r (r.dir == 1) (s.carTrips s.grp.node)).any (fun h => h.stops.any (fun x => s.bareDeck x.deck) && decide (h.lam = r.o))
  if s.carRunning then 3
  else if ax.any (· == .closing) then 2
  else if ax.any (fun x => x == .opening || x == .open_ || x == .stopped || x == .positioning || x == .fault) then 1
  else if (s.bareDeck 0 || s.bareDeck 1) && (was == 1 || was == 3 || here
      || (List.range 2).any (fun e => s.bareDeck e && tbit s.mon.doors e)) then 1
  else 0

/-- DOORS bits of the decks whose axes are opening. -/
def Dev.openingDecks (s : Dev) : Nat :=
  let o (e : Nat) : Bool := (List.range 4).any (fun n => deckOf n == e && (s.axis n).state == .opening)
  b2n (o 0) + 2 * b2n (o 1)

/-- Lower-deck landing of the present halt. -/
def Dev.haltLanding (s : Dev) : Nat :=
  match s.hoist.levelled with
  | some (l, deck, _) => l - deck
  | none => if s.cpf.table.isSome then s.landingNear s.cpf.x else 0

/-- Direction of the first halt of the own stop list that is not the present one: 0 none, 1 up, 2 down. -/
def Dev.nextDir (s : Dev) (o : Nat) : Nat :=
  let r := s.car s.grp.node
  match (stopList r (r.dir == 1) (s.carTrips s.grp.node)).find? (fun h => h.lam != (o : Int)) with
  | some h => if (o : Int) < h.lam then 1 else 2
  | none => 0

/-- Passengers aboard on deck e: those of the own car's trips. -/
def Dev.aboardOn (s : Dev) (e : Nat) : Nat :=
  (((s.carTrips s.grp.node).filter (fun t => t.aboard && t.deck == e)).map (·.pax)).foldl (· + ·) 0

/-- The sense of the run: of the motion; before it moves and as it settles, DIR as it was, or toward the target. -/
def Dev.runSense (s : Dev) : Int :=
  if s.hoist.kin.dir ≠ 0 then s.hoist.kin.dir
  else match (s.mon.own.map (·.dir)).getD 0 with
    | 1 => 1
    | 2 => -1
    | _ => match s.hoist.active with
      | some m => ((m.target.getD s.cpf.x) - s.cpf.x).sign
      | none => 0

/-- The own car record now. -/
def Dev.ownRecord (s : Dev) (doors tRef : Nat) : CarRec :=
  let ph := s.ownPhase
  let run := ph == 3
  let o := if run then (s.mon.own.map (·.o)).getD s.haltLanding else s.haltLanding
  let d := s.runSense
  { mode := s.mon.mode, phase := ph,
    dir := if run then (if 0 < d then 1 else if d < 0 then 2 else (s.mon.own.map (·.dir)).getD 0) else s.nextDir o,
    doors := doors, o := o,
    ncl := if run then ((s.firstLanding 0 s.stopPoint d).map (·.1)).getD o else o,
    load0 := s.aboardOn 0, load1 := s.aboardOn 1, tRef := tRef,
    target := match s.hoist.active with
      | some m => if m.kind = .goto ∧ m.landing < 256 then m.landing - m.deck else 0xFF
      | none => 0xFF }

/-- T_REF for a PHASE that begins now: the departure of a run; ready now for an idle car; for one that dwells or
closes, when its doors will be ready, which the spec leaves to the module: a free value, not before now (log entry 29). -/
def Dev.refOf (s : Dev) (phase : Nat) : Nat × Dev :=
  if phase = 1 ∨ phase = 2 then (satU 64 ((s.dt + s.free : Nat) : Int), s.drawn) else (s.dt, s)

/-- Form a car-status event whenever a field of the own record has changed (R207, 10 R226); a member that may not
send it now keeps it. -/
def Dev.carStatus (s : Dev) : Dev :=
  let ph := s.ownPhase
  let was := (s.mon.own.map (·.phase)).getD 0
  let (ref, s) := if s.mon.own.isNone ∨ ph ≠ was then s.refOf ph else (s.mon.tRef, s)
  let doors := (if ph = 3 ∧ was ≠ 3 then 0 else s.mon.doors) ||| s.openingDecks
  let s := s.setMon (fun m => { m with doors := doors, tRef := ref })
  let r := s.ownRecord doors ref
  if s.mon.own = some r then s
  else
    let s := s.setMon (fun m => { m with own := some r })
    if s.mayEnter || s.grp.member then s.formEvent (.status r) s.dt else s

/-- MSQ_PROFILE_STEP. -/
def execMsqProfileStep (s : State) : Host.Outcome State Fault Refusal :=
  s.upd (whenOn 6 (fun s => (msqProfileStep s).carStatus))

/-- MSQ_DOOR_STEP. -/
def execMsqDoorStep (s : State) : Host.Outcome State Fault Refusal :=
  s.upd (whenOn 6 (fun s => (msqDoorStep s).carStatus))

/-! An applied event may change LOAD and DIR of the own record (R207). -/

def execMonApplyCall (s : State) : Host.Outcome State Fault Refusal := s.upd (whenOn 5 (fun s => (monApplyCall s).carStatus))
def execMonApplyCancel (s : State) : Host.Outcome State Fault Refusal := s.upd (whenOn 5 (fun s => (monApplyCancel s).carStatus))
def execMonApplyCarStatus (s : State) : Host.Outcome State Fault Refusal :=
  s.upd (whenOn 5 (fun s => (monApplyCarStatus s).carStatus))
def execMonApplyTick (s : State) : Host.Outcome State Fault Refusal := s.upd (whenOn 5 (fun s => (monApplyTick s).carStatus))

end Sys2Proof.Machine
end

