-- ==== Sys2Proof/Machine/GroupCommit.lean ====
section
/-! DEFINITION. The commit rule, the staging store and its activation, snapshots, and the uniting of trip
stores (09 R221, 10 R230-R232, R240-R244). -/
namespace Sys2Proof.Machine

/-! ## Node masks -/

def nodesOf (m : Nat) : List Nat := (List.range 16).filter (tbit m)
def nodeMask (l : List Nat) : Nat := (List.range 16).foldl (fun a n => if l.contains n then a + 2 ^ n else a) 0
/-- The lowest node of a mask; 16 for an empty one. -/
def lowestOf (m : Nat) : Nat := ((nodesOf m).head?).getD 16
def subMask (a b : Nat) : Bool := (nodesOf a).all (tbit b)

/-- Sequence a follows b (GSEQ wraps modulo 2 ^ 32, R229). -/
def seqAfter (a b : Nat) : Bool :=
  let d := (a + 2 ^ 32 - b) % 2 ^ 32
  decide (0 < d ∧ d < 2 ^ 31)

/-! ## The commit rule (R230, R231) -/

def Dev.skewNs (s : Dev) : Nat := if s.hasGrp then s.fld Reg.grpSkew 9 0 * 1000 else 0

/-- Kind rank. -/
def EventBody.rank : EventBody → Nat
  | .status _ => 1
  | .call _ => 2
  | .cancel _ => 3

/-- The order of R231, as a list of keys. -/
def Committed.key : Committed → List Nat
  | .tick t => [t, 0, 0, 0]
  | .event e => [e.tEv, e.body.rank, e.node, e.gseq]

def keyLt : List Nat → List Nat → Bool
  | a :: as, b :: bs => decide (a < b) || (a == b && keyLt as bs)
  | _, _ => false

def insertCommitted (x : Committed) : List Committed → List Committed
  | [] => [x]
  | y :: t => if keyLt x.key y.key then x :: y :: t else y :: insertCommitted x t

def sortCommitted (l : List Committed) : List Committed := l.foldl (fun a x => insertCommitted x a) []

/-- The ticks below a group time, and the next one (R201). -/
def Dev.ticksBelow (s : Dev) (t : Nat) : List Nat × Nat :=
  let p := s.dcfg 20 2 * 1000000
  if p = 0 ∨ t ≤ s.grp.tick then ([], s.grp.tick)
  else
    let n := (t - s.grp.tick + p - 1) / p
    ((List.range n).map (fun i => s.grp.tick + i * p), s.grp.tick + n * p)

/-- Hand to Monarch the held events that satisfy `p` and the ticks below a group time. -/
def Dev.commitWhere (s : Dev) (p : GroupEvent → Bool) (below : Nat) : Dev :=
  let ev := s.grp.held.filter p
  let (ts, next) := s.ticksBelow below
  let l := sortCommitted (ts.map .tick ++ ev.map .event)
  (s.setGrp (fun g => { g with held := g.held.filter (fun e => !p e), tick := next })).setMon
    (fun m => { m with committed := m.committed ++ l })

/-- The HB_T used of a peer: that of its last heartbeat that follows no gap in its records (log entry 30). -/
def Peer.heldT (p : Peer) : Nat :=
  match p.hb with
  | some h => if seqAfter h.gseq p.recv then p.safeT else h.hbT
  | none => p.safeT

/-- The smallest HB_T over the view. -/
def Dev.frontierNow (s : Dev) : Nat :=
  (nodesOf s.grp.view).foldl (fun a n => min a (if n = s.grp.node then s.watermark else (s.peer n).heldT)) s.watermark

/-- An event committed later than R232 allows: 2 ms after its event time, or after the EPOCH_START of the view
change that overtook it. -/
def Dev.noteSlow (s : Dev) (e : GroupEvent) : Dev :=
  if 2000000 < s.dt - max e.tEv s.grp.startedAt then
    (s.setBit Reg.grpStat 3 true).event 9 4 6 0 s.dt [e.tEv, ((s.dt - e.tEv) / 1000 : Nat)]
  else s

/-- GROUP_COMMIT: events and ticks below the frontier minus SKEW are committed. -/
def Dev.commitStep (s : Dev) : Dev :=
  if s.grp.member && s.grp.installed && s.grp.change.isNone then
    let f := s.frontierNow
    let s := s.setGrp (fun g => { g with frontier := f })
    let p (e : GroupEvent) : Bool := e.epoch == s.grp.epoch && tbit s.grp.view e.node && decide (e.tEv + s.skewNs < f)
    let s := (s.grp.held.filter p).foldl (fun s e => s.noteSlow e) s
    s.commitWhere p (f - s.skewNs)
  else s

/-- Close the epoch: commit every event up to CUT and every tick below T_S, and finish what they need (R236). -/
def Dev.closeEpoch (s : Dev) (cut : List Nat) (tS : Nat) : Dev :=
  (s.commitWhere (fun e => e.epoch == s.grp.epoch && tbit s.grp.view e.node && !seqAfter e.gseq (cut.getD e.node 0)) tS).drain

/-! ## Configuration (09 R221) -/

def imageCrc (b : List Byte) : Word := crc32 b

/-- Checks of a dispatch configuration image. -/
def configFit (b : List Byte) : Bool :=
  leAt b 0 2 == 1 && leAt b 1152 4 == (crc32 (b.take 1152)).toNat && decide (1 ≤ leAt b 38 2 ∧ leAt b 38 2 ≤ 256)
    && leAt b 2 2 != 0 && leAt b 4 2 != 0 && leAt b 6 2 != 0 && leAt b 8 2 != 0 && decide (100 ≤ leAt b 20 2)

/-- Checks of a flight-time image. -/
def fttFit (b : List Byte) : Bool :=
  leAt b 0 2 == 1 && leAt b 12 4 == (crc32 (b.take 12 ++ b.drop 16)).toNat
    && (List.range 256).all (fun a => leAt b (16 + 2 * (257 * a)) 2 == 0)

/-- The staged digest; 0 while an image is missing. -/
def stagedDigest (cfg : List Byte) (ftt : KMap (List Byte)) : Nat :=
  let f (k : Nat) : List Byte := kget [] ftt k
  if cfg.isEmpty || (f 0).isEmpty || (f 1).isEmpty || (f 2).isEmpty || (f 3).isEmpty then 0
  else
    let h := sha256 (cfg ++ f 0 ++ f 1 ++ f 2 ++ f 3)
    (h.getD 0 0).toNat * 2 ^ 32 + (h.getD 1 0).toNat

def Dev.stage (s : Dev) (cfg : List Byte) (ftt : KMap (List Byte)) : Dev :=
  s.setMon (fun m => { m with stagedCfg := cfg, stagedFtt := ftt, sdigest := stagedDigest cfg ftt })

/-- The offered digest a heartbeat carries; 0 none. -/
def Dev.offeredDigest (s : Dev) : Nat := if s.mon.offered.isEmpty then 0 else s.mon.sdigest

/-- The staged set becomes active at an epoch's start. -/
def Dev.activate (s : Dev) (epoch costver tS : Nat) : Dev :=
  let w := s.mon.offered
  let s := s.setMon (fun m => { m with cfg := m.stagedCfg, ftt := m.stagedFtt, digest := m.sdigest, stagedCfg := [],
                                       stagedFtt := [], sdigest := 0, offered := [] })
  let s := s.event 8 2 8 0xFF tS [s.mon.digest, epoch, costver]
  w.foldl (fun s d => s.complete d .done tS [wordN epoch]) s

/-! ## Snapshots (R244) -/

/-- A snapshot as read. -/
structure Snap where
  epoch : Nat
  coord : Nat
  active : Nat
  rrptr : Nat
  cars : List CarRec
  hw : List Nat
  trips : List Trip
deriving DecidableEq, Repr

def Dev.snapBytes (s : Dev) : List Byte :=
  let t := s.tripList
  let head := leBytes 4 s.grp.epoch ++ leBytes 1 s.grp.coord ++ leBytes 1 s.grp.costver ++ leBytes 2 t.length
    ++ leBytes 8 s.mon.digest ++ leBytes 6 s.mon.rrptr ++ zeros 38
  let body := (List.range 16).flatMap (fun c => (s.car c).bytes)
    ++ (List.range 16).flatMap (fun n => leBytes 8 (kget 0 s.grp.hw n)) ++ t.flatMap Trip.bytes
  head ++ leBytes 4 (crc32 (head ++ body)).toNat ++ body

def Snap.ofBytes (b : List Byte) : Snap :=
  { epoch := leAt b 0 4, coord := leAt b 4 1, active := leAt b 8 8, rrptr := leAt b 16 6,
    cars := (List.range 16).map (fun c => CarRec.ofBytes (b.drop (64 + 32 * c))),
    hw := (List.range 16).map (fun n => leAt b (576 + 8 * n) 8),
    trips := (List.range (leAt b 6 2)).map (fun i => Trip.ofBytes (b.drop (704 + 64 * i))) }

def snapCrc (b : List Byte) : Word := BitVec.ofNat 32 (leAt b 60 4)
def snapGood (b : List Byte) : Bool := snapCrc b == crc32 (b.take 60 ++ b.drop 64)

/-- The snapshot chunks as one byte list, once every chunk is held. -/
def joinChunks (l : List (Nat × List Byte)) : Option (List Byte) :=
  match kget [] l 0 with
  | [] => none
  | c0 =>
    let len := 704 + 64 * leAt c0 6 2
    let n := (len + 1023) / 1024
    if (List.range n).all (fun i => !(kget [] l i).isEmpty) then
      some (((List.range n).flatMap (fun i => kget [] l i)).take len)
    else none

/-- The snapshot of a sender, complete and with a good CRC; `epoch`: of its chunks. -/
def Dev.snapFrom (s : Dev) (sender epoch : Nat) : Option (List Byte) :=
  match joinChunks (kget [] s.grp.snaps (16 * epoch + sender)) with
  | some b => if snapGood b then some b else none
  | none => none

def pad1024 (b : List Byte) : List Byte := b ++ zeros (1024 - b.length)

def Dev.keepChunk (s : Dev) (sender epoch i : Nat) (b : List Byte) : Dev :=
  s.setGrp (fun g => { g with snaps := kmod [] g.snaps (16 * epoch + sender) (fun l => kins i b l) })

/-- Send a snapshot in SNAP records; the sender keeps it too. -/
def Dev.sendSnapshot (s : Dev) (b : List Byte) : Dev :=
  let e := leAt b 0 4
  (List.range ((b.length + 1023) / 1024)).foldl (fun s i =>
    let c := pad1024 ((b.drop (1024 * i)).take 1024)
    (s.keepChunk s.grp.node e i c).groupSend (leBytes 1 5 ++ leBytes 1 s.grp.node ++ leBytes 2 i ++ leBytes 4 e ++ c)) s

/-- Install a store: trips, car records, HW and RRPTR. The next trip sequence is HW[self] + 1, past the calls that
have theirs and still wait (log entry 31). -/
def Dev.install (s : Dev) (x : Snap) : Dev :=
  let s := s.setMon (fun m => { m with
    trips := x.trips.foldl (fun k t => kput none k t.id (some t)) [],
    cars := (List.range 16).foldl (fun k c => kput .reset k c (x.cars.getD c .reset)) [],
    rrptr := x.rrptr, seq := (m.calls.map (fun c => tripSeq c.id)).foldl max (x.hw.getD s.grp.node 0) })
  s.setGrp (fun g => { g with hw := (List.range 16).foldl (fun k n => kput 0 k n (x.hw.getD n 0)) [] })

/-! ## Uniting two stores (R241, R242) -/

/-- What a union has done: records dropped, duplicates to resolve, twins made. -/
structure Union where
  kept : List Trip
  dups : List (Trip × Trip)
  dropped : Nat
  twins : Nat
deriving DecidableEq, Repr

/-- The twin of a trip: entering node 0x80 | n, the same sequence. -/
def Trip.twin (t : Trip) : Trip := { t with id := (0x80 ||| tripNode t.id) * 2 ^ 40 + tripSeq t.id }

/-- Trips held on both sides; `newer`: side b has the higher epoch ID. -/
def uniteBoth (proto : Nat) (newer : Bool) (a b : Trip) (u : Union) : Union :=
  let keep (t : Trip) : Union := { u with kept := u.kept ++ [t] }
  let merged (t : Trip) : Trip := { t with reassigns := max a.reassigns b.reassigns, attach := max a.attach b.attach }
  if a.aboard && b.aboard && a.car != b.car then
    if proto = 2 then keep (if newer then b else a)
    else
      let (lo, hi) := if a.car < b.car then (a, b) else (b, a)
      { u with kept := u.kept ++ [lo, hi.twin], twins := u.twins + 1 }
  else if a.state ≠ b.state then keep (if a.state.index < b.state.index then b else a)
  else if a.car = b.car ∧ a.deck = b.deck then keep (merged a)
  else { u with dups := u.dups ++ [(a, b)] }

/-- A trip held on one side only; `hw`: the other side's. -/
def uniteOne (hw : List Nat) (t : Trip) (u : Union) : Union :=
  if tripSeq t.id ≤ hw.getD (tripNode t.id % 128) 0 then { u with dropped := u.dropped + 1 }
  else { u with kept := u.kept ++ [t] }

/-- Unite the trips of two snapshots. -/
def uniteTrips (proto : Nat) (newer : Bool) (a b : Snap) (u : Union) : Union :=
  let u := a.trips.foldl (fun u t => match b.trips.find? (·.id == t.id) with
    | some x => uniteBoth proto newer t x u
    | none => uniteOne b.hw t u) u
  (b.trips.filter (fun t => !a.trips.any (·.id == t.id))).foldl (fun u t => uniteOne a.hw t u) u

/-- Unite two snapshots, the first with the cars of mask `va`: the duplicates stay out of its trips. -/
def uniteSnaps (proto : Nat) (va : Nat) (a b : Snap) (u : Union) : Snap × Union :=
  let newer := decide (a.epoch < b.epoch ∨ (a.epoch = b.epoch ∧ a.coord < b.coord))
  let u := uniteTrips proto newer a b { u with kept := [] }
  ({ epoch := max a.epoch b.epoch, coord := min a.coord b.coord, active := a.active, rrptr := 0,
     cars := (List.range 16).map (fun c => if tbit va c then a.cars.getD c .reset else b.cars.getD c .reset),
     hw := (List.range 16).map (fun n => max (a.hw.getD n 0) (b.hw.getD n 0)), trips := u.kept }, u)

/-- Unite the snapshots of all sides, given with the view of each. -/
def uniteAll (proto : Nat) : List (Nat × Snap) → Option (Snap × Union)
  | [] => none
  | (v, x) :: t =>
    let r := t.foldl (fun (acc : Nat × Snap × Union) y =>
      let (w, z, u) := acc
      let (z, u) := uniteSnaps proto w z y.2 u
      (w ||| y.1, z, u)) (v, x, ⟨x.trips, [], 0, 0⟩)
    some r.2

/-- Resolve a duplicate assignment between its two candidates (R242). -/
def Dev.resolveDup (s : Dev) (tS : Nat) (a b : Trip) : Dev :=
  let (a, b) := if a.car < b.car ∨ (a.car = b.car ∧ a.deck < b.deck) then (a, b) else (b, a)
  let offers := [s.offer a tS none a.car a.deck, s.offer b tS none b.car b.deck].filterMap id
  let moved (s : Dev) (n : Trip) (l : Trip) : Dev :=
    if l.car = s.grp.node then s.event 8 4 2 n.car tS (n.id :: [(l.car : Int), n.car, 3, n.deck, n.cost]) else s
  match bestOf offers with
  | some o =>
    let (w, l) := if o.car = a.car ∧ o.deck = a.deck then (a, b) else (b, a)
    let n := { w.assign o tS with state := w.state }
    (moved (s.putTrip n) n l).announce n
  | none =>
    let n := { a with state := .unassigned, car := 0xFF }
    moved (moved (s.putTrip n) n a) n b

/-- The duplicates in ascending TRIP_ID. -/
def sortDups (l : List (Trip × Trip)) : List (Trip × Trip) :=
  l.foldl (fun acc x =>
    (acc.filter (fun y => decide (y.1.id < x.1.id))) ++ [x] ++ (acc.filter (fun y => !decide (y.1.id < x.1.id)))) []

end Sys2Proof.Machine
end

