-- ==== Sys2Proof/Machine/Group.lean ====
section
/-! DEFINITION. Membership and view changes of group replication: heartbeats, gaps, FLUSH, EPOCH_START,
snapshots and formation (10 R228-R248). -/
namespace Sys2Proof.Machine

/-! ## What a node knows of its peers -/

/-- The package a target counts with: the one it runs, or the older one while it is on trial (18 R410). -/
def UpdTarget.pkg (t : UpdTarget) : Nat :=
  let old := if t.active then t.pkgB else t.pkgA
  if t.trial then min t.runPkg old else t.runPkg

/-- The oldest package on any present target, or on any target on trial (18 R410, 19 Table 19-2). -/
def Dev.pkgMin (s : Dev) : Nat :=
  (((List.range s.clusters) ++ [4]).map (fun t => (kget UpdTarget.reset s.upd.targets t).pkg)).foldl min (2 ^ 24 - 1)

/-- The version ranges the node advertises are those of that package: peer protocol 2-3 and cost function 1-2
for 3.x, 2-2 and 1-1 for 2.x (R247, 18 R410, 19 Table 19-5). -/
def protoMin : Nat := 2
def Dev.protoMax (s : Dev) : Nat := if s.pkgMin / 2 ^ 16 = 2 then 2 else 3
def costMin : Nat := 1
def Dev.costMax (s : Dev) : Nat := if s.pkgMin / 2 ^ 16 = 2 then 1 else 2

def Heartbeat.isMember (h : Heartbeat) : Bool := tbit h.flags 0
def Heartbeat.isJoining (h : Heartbeat) : Bool := tbit h.flags 1
def Heartbeat.isChanging (h : Heartbeat) : Bool := tbit h.flags 2
def Heartbeat.isLeaving (h : Heartbeat) : Bool := tbit h.flags 3

/-- A heartbeat has come from node n in the last 2 ms, without LEAVING. -/
def Dev.heard (s : Dev) (n : Nat) : Bool :=
  n != s.grp.node && (match (s.peer n).hb with
    | some h => decide (s.dt - (s.peer n).hbAt ≤ 2000000) && !h.isLeaving
    | none => false)

/-- PROPOSED of a FLUSH (R235): a leaving node is in it only where it hears no other. -/
def Dev.proposal (s : Dev) : Nat :=
  let l := (List.range 16).filter s.heard
  nodeMask (if s.grp.leaving.isSome && !l.isEmpty then l else s.grp.node :: l)

/-- What the node's own heartbeat says. -/
def Dev.ownHeartbeat (s : Dev) : Heartbeat :=
  let g := s.grp
  { proto := g.proto, protoMin := protoMin, protoMax := s.protoMax, node := g.node,
    flags := b2n g.member + 2 * b2n g.joining + 4 * b2n g.change.isSome + 8 * b2n g.leaving.isSome,
    costMin := costMin, costMax := s.costMax, hbT := s.watermark, epoch := g.epoch, coord := g.coord, view := g.view,
    cap := wordN (s.maxCars + s.tripCtx * 65536), active := s.mon.digest, staged := s.offeredDigest, gseq := g.gseq,
    groupId := g.groupId, capacity := g.capacity, members := g.members, skew := s.fld Reg.grpSkew 9 0 }

/-- The last heartbeat known of a node, its own included. -/
def Dev.hbOf (s : Dev) (n : Nat) : Option Heartbeat := if n = s.grp.node then some s.ownHeartbeat else (s.peer n).hb

/-- The versions in force over a view (R247). -/
def Dev.versionsOver (s : Dev) (view : Nat) : Nat × Nat :=
  match (nodesOf view).filterMap s.hbOf with
  | [] => (s.protoMax, s.costMax)
  | x :: t => t.foldl (fun a h => (min a.1 h.protoMax, min a.2 h.costMax)) (x.protoMax, x.costMax)

/-- Every range of a view holds the versions it would put in force. -/
def Dev.versionsFit (s : Dev) (view : Nat) : Bool :=
  let (p, c) := s.versionsOver view
  ((nodesOf view).filterMap s.hbOf).all (fun h => decide (h.protoMin ≤ p ∧ h.costMin ≤ c))

/-- The digest every node of a view has staged; 0 none. -/
def Dev.commonStaged (s : Dev) (view : Nat) : Nat :=
  let l := (nodesOf view).map (fun n => match s.hbOf n with | some h => h.staged | none => 0)
  match l with
  | d :: t => if t.all (· == d) then d else 0
  | [] => 0

/-! ## Admission (R237) -/

/-- The node is a member, by its own state or its last heartbeat. -/
def Dev.seenMember (s : Dev) (n : Nat) : Bool :=
  if n = s.grp.node then s.grp.member else s.heard n && ((s.peer n).hb.map (·.isMember)).getD false

/-- What the group that a coordinator's change starts from says of itself: its own heartbeat, if it is a member; else
that of the lowest member heard; else, where a group is formed, its own again (R237, log entry 31). -/
def Dev.leadHb (s : Dev) (coord : Nat) : Heartbeat :=
  if s.seenMember coord then (s.hbOf coord).getD s.ownHeartbeat
  else match (List.range 16).find? s.seenMember with
    | some n => (s.hbOf n).getD s.ownHeartbeat
    | none => (s.hbOf coord).getD s.ownHeartbeat

/-- A group is there: a member is heard, or the node is one. -/
def Dev.groupThere (s : Dev) : Bool := (List.range 16).any s.seenMember

/-- Why node n is not admitted by a group to a view of `count` nodes; 0: it is. `form`: the group is being formed (R245). -/
def Dev.refusal (s : Dev) (g : Heartbeat) (form : Bool) (count n : Nat) : Nat :=
  match s.hbOf n with
  | none => 1
  | some h =>
    if h.groupId ≠ g.groupId ∨ h.members ≠ g.members ∨ h.capacity ≠ g.capacity ∨ h.skew ≠ g.skew then 1
    else if bitsOf h.cap 15 0 < g.members ∨ bitsOf h.cap 31 16 < g.capacity then 2
    else if h.active ≠ g.active ∧ (form ∨ g.active ≠ 0 ∧ h.staged ≠ g.active) then 4
    else if g.members ≤ count then 5
    else 0

/-- The admitted nodes among those that answered a coordinator, and the refused ones with their reasons. The nodes of
the group's view stay; every other one, in a merge those of the other sides too, passes R237. -/
def Dev.admits (s : Dev) (coord : Nat) (answered : List Nat) : List Nat × List (Nat × Nat) :=
  let g := s.leadHb coord
  let form := !s.groupThere
  let base := if form then [coord] else answered.filter (tbit g.view)
  let (view, refused) := (answered.filter (fun n => !base.contains n)).foldl (fun (a : List Nat × List (Nat × Nat)) n =>
    match s.refusal g form a.1.length n with
    | 0 => (a.1 ++ [n], a.2)
    | r => (a.1, a.2 ++ [(n, r)])) (base, [])
  let joiners := (List.range 16).reverse.filter (fun n => view.contains n && !base.contains n)
  joiners.foldl (fun (a : List Nat × List (Nat × Nat)) n =>
    if s.versionsFit (nodeMask a.1) then a else (a.1.filter (· != n), a.2 ++ [(n, 3)])) (view, refused)

/-! ## FLUSH rounds (R234, R235) -/

def Dev.flushOf (s : Dev) (n : Nat) : Option Flush := s.grp.flushes.find? (·.node == n)

/-- RECV: own records and those held of every peer. -/
def Dev.recvList (s : Dev) : List Nat :=
  (List.range 16).map (fun n => if n = s.grp.node then s.grp.gseq else (s.peer n).recv)

/-- A FLUSH record counts for a change that begins here now: it names the node and is of the last 2 ms. -/
def Dev.flushFresh (s : Dev) (f : Flush) : Bool := tbit f.proposed s.grp.node && decide (s.dt - f.came ≤ 2000000)

/-- Send FLUSH for a proposal. -/
def Dev.beginRound (s : Dev) (prop cause : Nat) (merge : Bool) : Dev :=
  let f : Flush := ⟨s.grp.node, prop, s.grp.epoch, s.grp.coord, s.watermark, s.recvList,
    if s.grp.member then s.grp.view else 0, true, s.dt⟩
  let c : Change := ⟨prop, cause, merge, s.dt, false, none, 0⟩
  let s := s.setGrp (fun g => { g with
    snaps := if g.change.isNone then [] else g.snaps, change := some c,
    flushes := f :: g.flushes.filter (fun x => x.node != f.node && (g.change.isSome || s.flushFresh x)) })
  s.groupSend f.bytes

/-- Largest of each RECV. -/
def cutOf (l : List Flush) : List Nat :=
  (List.range 16).map (fun n =>
    l.foldl (fun a f => if seqAfter (f.recv.getD n 0) a then f.recv.getD n 0 else a) ((l.head?.map (·.recv.getD n 0)).getD 0))

def minHbT (l : List Flush) : Nat :=
  match l with
  | f :: t => t.foldl (fun a x => min a x.hbT) f.hbT
  | [] => 0

/-- The lowest node of the own side sends its side's snapshot, taken at that side's CUT (R240, log entry 32). -/
def Dev.sideSnapshot (s : Dev) (c : Change) (expired : Bool) : Dev :=
  let side := (nodesOf c.proposed).filter (tbit s.grp.view)
  let fl := side.filterMap s.flushOf
  let cut := cutOf fl
  if c.merge && s.grp.member && side.head? == some s.grp.node && (expired || fl.length == side.length)
      && (s.snapFrom s.grp.node s.grp.epoch).isNone
      && (nodesOf s.grp.view).all (fun n => !seqAfter (cut.getD n 0) (s.recvList.getD n 0)) then
    s.sendSnapshot (s.closeEpoch cut (minHbT fl)).snapBytes
  else s

/-- The epoch ID a node's FLUSH names. -/
def Flush.side (f : Flush) : Nat × Nat := (f.epoch, f.coord)

/-- The members among the nodes that answered, of any side. -/
def Dev.uniting (s : Dev) (answered : List Nat) : List Nat :=
  answered.filter (fun n => ((s.flushOf n).map (fun f => f.view != 0)).getD false)

/-- The sides of a merge: lowest node of each, from the FLUSH records of the members (R240). -/
def Dev.sides (s : Dev) (answered : List Nat) : List Nat :=
  let l := (s.uniting answered).filterMap s.flushOf
  (l.filter (fun f => !l.any (fun g => g.side == f.side && decide (g.node < f.node)))).map (·.node)

/-- The snapshot of the side of a node. -/
def Dev.sideImage (s : Dev) (n : Nat) : Option (List Byte) :=
  match s.flushOf n with
  | some f => s.snapFrom n f.epoch
  | none => none

/-- GRP_PEER_REFUSED at a member, or a node that forms a group, for the nodes an EPOCH_START leaves out by admission;
at its decision, or when it is taken (R237). -/
def Dev.noteRefused (s : Dev) (coord : Nat) (answered : List Nat) (view : Nat) : Dev :=
  if s.grp.member || !s.groupThere then
    ((s.admits coord answered).2.filter (fun x => !tbit view x.1)).foldl
      (fun s x => (s.event 9 6 3 0 s.dt [x.1, x.2]).chrInc 8 49) s
  else s

/-- The coordinator sends EPOCH_START (R235, R237, R247, R248). -/
def Dev.sendStart (s : Dev) (c : Change) (answered : List Nat) : Dev :=
  let answered := if c.merge then
      let lost := (s.sides answered).filter (fun n => (s.sideImage n).isNone)
      let gone := lost.filterMap (fun n => (s.flushOf n).map (·.side))
      answered.filter (fun n => n == s.grp.node || !(match s.flushOf n with
        | some f => (s.uniting answered).contains n && gone.contains f.side
        | none => false))
    else answered
  let view := (s.admits s.grp.node answered).1
  let side (n : Nat) : Option (Nat × Nat) := (s.flushOf n).map (·.side)
  let named := (s.sides answered).filter (fun n => (s.uniting view).any (fun m => side m == side n))
  let fl := answered.filterMap s.flushOf
  let (p, v) := s.versionsOver (nodeMask view)
  let staged := s.commonStaged (nodeMask view)
  let e : EpochStart :=
    { coord := s.grp.node, view := nodeMask view, epoch := (fl.map (·.epoch)).foldl max 0 + 1, proto := p, costver := v,
      cause := if c.merge then 4 else c.cause, merge := c.merge, tS := minHbT fl, cut := cutOf fl,
      active := if staged ≠ 0 ∧ s.groupThere then staged else (s.leadHb s.grp.node).active,
      snaps := if c.merge then named.filterMap (fun n => (s.sideImage n).map (fun b => (n, snapCrc b)))
        else [] }
  let c := { c with sent := true, start := some e, startAt := s.dt }
  ((s.noteRefused s.grp.node answered e.view).setGrp (fun g => { g with change := some c })).groupSend e.bytes

/-- Members of more than one epoch have answered: a joining node that coordinates them unites them (R240). -/
def Dev.unites (s : Dev) (answered : List Nat) : Bool := !s.grp.member && decide (1 < (s.sides answered).length)

/-- The state of the FLUSH round is looked at: the side's snapshot goes out, and the coordinator sends
EPOCH_START once every node it waits for has answered, or its wait has ended. -/
def Dev.roundCheck (s : Dev) (expired : Bool) : Dev :=
  match s.grp.change with
  | some c =>
    if c.start.isSome then s
    else
      let answered := (nodesOf c.proposed).filter (fun n => (s.flushOf n).isSome)
      let c := { c with merge := c.merge || s.unites answered }
      let s := s.sideSnapshot c expired
      if lowestOf c.proposed ≠ s.grp.node then s
      else
        let full := decide (answered.length = (nodesOf c.proposed).length) &&
          (!c.merge || (s.sides answered).all (fun n => (s.sideImage n).isSome))
        if full || expired then s.sendStart { c with proposed := nodeMask answered } answered else s
  | none => s

/-- A trigger of a view change (R234): it starts one, is taken into an open round, or waits. -/
def Dev.trigger (s : Dev) (cause : Nat) (merge : Bool) : Dev :=
  match s.grp.change with
  | none => (s.beginRound s.proposal cause merge).roundCheck false
  | some c =>
    if c.start.isNone then
      if s.proposal ≠ c.proposed ∨ (merge ∧ !c.merge) then
        (s.beginRound s.proposal c.cause (c.merge || merge)).roundCheck false
      else s
    else if s.grp.triggers.contains (cause, merge) then s
    else s.setGrp (fun g => { g with triggers := g.triggers ++ [(cause, merge)] })

/-- The trigger that lies in what the members of the view advertise, the node itself included (R247, R248). -/
def Dev.viewTrigger (s : Dev) : Option (Nat × Bool) :=
  let g := s.grp
  if !g.member then none
  else if s.versionsOver g.view ≠ (g.proto, g.costver) then some (5, false)
  else if s.commonStaged g.view ≠ 0 ∧ s.commonStaged g.view ≠ s.mon.digest then some (6, false)
  else none

/-- The trigger the last heartbeat of node n stands for, if any (R234, R240, R243, R247, R248). A node of the view
that joins again, and is in no change, has left it. -/
def Dev.triggerOf (s : Dev) (n : Nat) : Option (Nat × Bool) :=
  match (s.peer n).hb with
  | none => none
  | some h =>
    let g := s.grp
    if !g.member then none
    else if h.isJoining && !h.isLeaving && (!tbit g.view n || !h.isChanging) then some (2, false)
    else if !tbit g.view n then
      if h.isLeaving then none
      else if h.isMember && (h.epoch, h.coord) != (g.epoch, g.coord) then some (4, true)
      else none
    else if h.isLeaving then some (3, false)
    else s.viewTrigger

/-! ## Heartbeats -/

/-- Take a record of a kind from the front of the delivered ones. -/
def Dev.takeRecord (s : Dev) (msg : Nat) (f : Dev → List Byte → Dev) : Dev :=
  match s.grp.inbox with
  | r :: t =>
    if leAt r 0 1 = msg then
      let s := s.setGrp (fun g => { g with inbox := t })
      if s.grp.en then f s r else s
    else s
  | [] => s

/-- The commit of a leave: the application of the EPOCH_START that excludes the node (R250); an update of Monarch
that waits for it commits then (18 R409). -/
def Dev.excluded (s : Dev) : Dev :=
  let w := s.grp.leaveDesc
  let e := s.grp.epoch
  let s := s.setGrp (fun g => { g with member := false, joining := false, view := 0, change := none, triggers := [],
                                       flushes := [], later := [], installed := false, leaveDesc := none })
  let s := { s with upd := { s.upd with op := s.upd.op.map (fun (o : UpdOp) =>
    if o.target = 4 then { o with commit := some (o.commit.getD s.dt) } else o) } }
  s.completeOpt w .done s.dt [wordN e]

/-- The node leaves for good (R250). -/
def Dev.finishLeave (s : Dev) : Dev := s.excluded.setGrp (fun g => { g with en := false, leaving := none })

/-- The node is out of the view and joins again (R243). -/
def Dev.rejoin (s : Dev) : Dev :=
  s.setGrp (fun g => { g with member := false, joining := true, view := 0, change := none, triggers := [],
                              flushes := [], later := [], install := none, installed := false, quietAt := s.dt })

/-- The cause a node drawn into a change by a FLUSH goes by: the first of a leave, a loss, and what the last
heartbeats stand for (R234, R238, log entry 31). -/
def Dev.drawnCause (s : Dev) (f : Flush) : Nat :=
  if s.grp.joining then (if s.groupThere then 2 else 7)
  else if (nodesOf s.grp.view).any (fun n => ((s.peer n).hb.map (·.isLeaving)).getD false) then 3
  else if !subMask s.grp.view f.proposed then 1
  else match (List.range 16).findSome? s.triggerOf with
    | some (c, _) => c
    | none => 2

/-- A FLUSH that names the node, of a sender whose membership is known, brings it into the change (log entry 31). -/
def Dev.joinRound (s : Dev) (f : Flush) : Dev :=
  if s.grp.change.isSome || s.grp.leaving.isSome || !f.told || !s.flushFresh f then s
  else if s.grp.joining then s.beginRound s.proposal (s.drawnCause f) false
  else if s.grp.member then
    s.beginRound s.proposal (s.drawnCause f) ((f.epoch, f.coord) != (s.grp.epoch, s.grp.coord) && f.epoch != 0 && f.view != 0)
  else s

/-- A heartbeat tells the VIEW of a sender of FLUSH records that came without one. -/
def Dev.tellFlush (s : Dev) (h : Heartbeat) : Dev :=
  let tell (l : List Flush) : List Flush := l.map (fun (f : Flush) =>
    if f.node = h.node ∧ !f.told then { f with told := true, view := if h.isMember then h.view else 0 } else f)
  s.setGrp (fun g => { g with flushes := tell g.flushes, later := tell g.later })

/-- HEARTBEAT_SEND, at the instants of R228. A trigger that lies in the node's own figures is seen here. -/
def heartbeatSend (s : Dev) : Dev :=
  let g := s.grp
  if !s.hasGrp || !g.en || !s.stl.sync || !(g.member || g.joining || g.leaving.isSome)
      || s.dt % 1000000 != g.node * 62500 then s
  else
    let s := s.groupSend s.ownHeartbeat.bytes
    let s := s.setGrp (fun g => { g with leaving := g.leaving.map (· + 1) })
    let alone := decide (3 ≤ s.grp.leaving.getD 0) && (!s.grp.member || s.grp.view == 2 ^ s.grp.node)
    if alone then s.finishLeave
    else
      let s := match s.viewTrigger with
        | some (c, m) => s.trigger c m
        | none => s
      s.commitStep

def execHeartbeatSend (s : State) : Host.Outcome State Fault Refusal := s.upd (whenGrp heartbeatSend)

/-- When the first gap in the records of a peer appeared (R229). -/
def Peer.gapAt (p : Peer) : Option Nat := p.marks.head?.map (·.2)

/-- The peer is known to have sent up to `q`, at `t`. -/
def Peer.mark (p : Peer) (q t : Nat) : Peer :=
  if seqAfter q ((p.marks.getLast?.map (·.1)).getD p.recv) then { p with marks := p.marks ++ [(q, t)] } else p

/-- The gaps that are still open. -/
def Peer.unmark (p : Peer) : Peer :=
  { p with marks := p.marks.filter (fun m => seqAfter m.1 p.recv),
           asked := p.asked.bind (fun q => if seqAfter q p.recv then some q else none) }

def Dev.takeHeartbeat (s : Dev) (r : List Byte) : Dev :=
  let h := Heartbeat.ofBytes r
  if h.groupId ≠ s.grp.groupId ∨ 16 ≤ h.node ∨ h.node = s.grp.node then s
  else
    let p := s.peer h.node
    let p := { p with hb := some h, hbAt := s.dt, safeT := if seqAfter h.gseq p.recv then p.safeT else h.hbT }
    let p := if tbit s.grp.view h.node then p.mark h.gseq s.dt else p
    let s := (s.modPeer h.node (fun _ => p)).tellFlush h
    let s := if h.isMember then s.setGrp (fun g => { g with quietAt := s.dt }) else s
    let s := match s.triggerOf h.node with
      | some (c, m) => s.trigger c m
      | none => s
    let s := match s.flushOf h.node with
      | some f => (s.joinRound f).roundCheck false
      | none => s
    s.commitStep

/-- HEARTBEAT_RECEIVED. -/
def heartbeatReceived (s : Dev) : Dev := s.takeRecord 1 Dev.takeHeartbeat
def execHeartbeatReceived (s : State) : Host.Outcome State Fault Refusal := s.upd (whenGrp heartbeatReceived)

/-! ## Event records (R229) -/

/-- Take the records beyond a gap that now follow on. -/
def drainBeyond : Nat → Peer → List GroupEvent → Peer × List GroupEvent
  | 0, p, acc => (p, acc)
  | n + 1, p, acc =>
    match p.beyond.find? (fun e => e.gseq == (p.recv + 1) % 2 ^ 32) with
    | some e => drainBeyond n { p with recv := e.gseq, beyond := p.beyond.erase e } (acc ++ [e])
    | none => (p, acc)

/-- Records taken of a node in order enter the held ones and the log. -/
def Dev.takeEvents (s : Dev) (l : List GroupEvent) : Dev :=
  l.foldl (fun s e => s.setGrp (fun g => { g with held := g.held ++ [e], log := keepLog g.log e })) s

def Dev.takeEvent (s : Dev) (e : GroupEvent) : Dev :=
  if 16 ≤ e.node ∨ e.node = s.grp.node then s
  else
    let p := s.peer e.node
    if !seqAfter e.gseq p.recv ∨ p.beyond.any (·.gseq == e.gseq) then s
    else
      let p := ({ p with beyond := p.beyond ++ [e] } : Peer).mark e.gseq s.dt
      let (p, l) := drainBeyond p.beyond.length p []
      let p := ({ p with safeT := p.heldT } : Peer).unmark
      ((s.modPeer e.node (fun _ => p)).takeEvents l).commitStep

/-- EVENT_RECORD_RECEIVED. -/
def eventRecordReceived (s : Dev) : Dev :=
  s.takeRecord 2 (fun s r => match GroupEvent.ofBytes r with
    | some e => s.takeEvent e
    | none => s)
def execEventRecordReceived (s : State) : Host.Outcome State Fault Refusal := s.upd (whenGrp eventRecordReceived)

/-- A RETX record (11 R255): target, count, first GSEQ. -/
def retxBytes (target first count : Nat) : List Byte :=
  leBytes 1 6 ++ leBytes 1 target ++ leBytes 2 count ++ leBytes 4 first ++ zeros 8

/-- GAP_RETX: the records of the first gap that have not been asked for. -/
def gapRetx (n : Nat) (s : Dev) : Dev :=
  let p := s.peer n
  match p.marks with
  | (q, t) :: _ =>
    if p.asked.isSome || decide (s.dt < t + s.fld Reg.stlSkewwin 4 0 * 1000 + 100000) then s
    else
      let first := (p.recv + 1) % 2 ^ 32
      let past := p.beyond.foldl (fun a x => if seqAfter a x.gseq then x.gseq else a) ((q + 1) % 2 ^ 32)
      (s.modPeer n (fun p => { p with asked := some ((past + 2 ^ 32 - 1) % 2 ^ 32) })).groupSend
        (retxBytes n first ((past + 2 ^ 32 - first) % 2 ^ 32))
  | [] => s
def execGapRetx (n : Fin 16) (s : State) : Host.Outcome State Fault Refusal := s.upd (whenGrp (gapRetx n))

/-- RETX_RECEIVED. -/
def retxReceived (s : Dev) : Dev :=
  s.takeRecord 6 (fun s r =>
    let first := leAt r 4 4
    if leAt r 1 1 ≠ s.grp.node then s
    else (s.grp.log.filter (fun e => e.node == s.grp.node && decide ((e.gseq + 2 ^ 32 - first) % 2 ^ 32 < leAt r 2 2))).foldl
      (fun s e => s.groupSend (e.bytes true)) s)
def execRetxReceived (s : State) : Host.Outcome State Fault Refusal := s.upd (whenGrp retxReceived)

/-! ## Loss of a peer (R234) -/

/-- GRP_PEER_LOST. -/
def grpPeerLost (n : Nat) (s : Dev) : Dev :=
  let p := s.peer n
  let gap := match p.gapAt with
    | some t => decide (t + 3000000 ≤ s.dt)
    | none => false
  match p.hb with
  | some h =>
    if s.grp.member && tbit s.grp.view n && n != s.grp.node && (gap || decide (p.hbAt + 3000000 ≤ s.dt)) then
      let s := s.modPeer n (fun p => { p with hb := none, marks := [] })
      ((s.event 9 6 2 0 s.dt [n, h.hbT]).chrInc 8 (32 + n)).trigger 1 false
    else s
  | none => s
def execGrpPeerLost (n : Fin 16) (s : State) : Host.Outcome State Fault Refusal := s.upd (whenGrp (grpPeerLost n))

/-! ## FLUSH -/

/-- Re-send the records another node lacks. -/
def Dev.resendBeyond (s : Dev) (f : Flush) : Dev :=
  (s.grp.log.filter (fun e => seqAfter e.gseq (f.recv.getD e.node 0))).foldl (fun s e => s.groupSend (e.bytes true)) s

/-- A FLUSH as it is kept: with the VIEW its sender has announced in the last 2 ms. -/
def Dev.flushCame (s : Dev) (f : Flush) : Flush :=
  match (s.peer f.node).hb with
  | some h => if s.dt - (s.peer f.node).hbAt ≤ 2000000 then
      { f with view := if h.isMember then h.view else 0, told := true, came := s.dt } else { f with came := s.dt }
  | none => { f with came := s.dt }

def putFlush (f : Flush) (l : List Flush) : List Flush := l.filter (fun x => x.node != f.node) ++ [f]

/-- A FLUSH that comes once EPOCH_START is taken is of the closed round when its sender was proposed in it and names
no later epoch; any other is of the next change. -/
def Change.closes (c : Change) (epoch : Nat) (f : Flush) : Bool := tbit c.proposed f.node && decide (f.epoch ≤ epoch)

/-- FLUSH_RECEIVED. -/
def flushReceived (s : Dev) : Dev :=
  s.takeRecord 3 (fun s r =>
    if 16 ≤ (Flush.ofBytes r).node ∨ (Flush.ofBytes r).node = s.grp.node then s
    else
      let f := s.flushCame (Flush.ofBytes r)
      match s.grp.change with
      | some c =>
        if c.start.isNone then ((s.setGrp (fun g => { g with flushes := putFlush f g.flushes })).resendBeyond f).roundCheck false
        else if c.closes s.grp.epoch f then s.resendBeyond f
        else (s.setGrp (fun g => { g with later := putFlush f g.later })).resendBeyond f
      | none =>
        if tbit f.proposed s.grp.node then
          (((s.setGrp (fun g => { g with flushes := putFlush f g.flushes })).resendBeyond f).joinRound f).roundCheck false
        else s.resendBeyond f)
def execFlushReceived (s : State) : Host.Outcome State Fault Refusal := s.upd (whenGrp flushReceived)

/-- FLUSH_WAIT_EXPIRY. -/
def flushWaitExpiry (s : Dev) : Dev :=
  match s.grp.change with
  | some c => if c.start.isNone && decide (c.flushAt + 1000000 ≤ s.dt) then s.roundCheck true else s
  | none => s
def execFlushWaitExpiry (s : State) : Host.Outcome State Fault Refusal := s.upd (whenGrp flushWaitExpiry)

/-! ## EPOCH_START (R235, R236) -/

/-- EPOCH_START_RECEIVED. -/
def epochStartReceived (s : Dev) : Dev :=
  s.takeRecord 4 (fun s r =>
    let e := EpochStart.ofBytes r
    let prop := match s.grp.change with
      | some c => c.proposed
      | none => 0
    if tbit e.view s.grp.node then
      match s.grp.change with
      | some c =>
        if c.start.isNone && lowestOf c.proposed == e.coord && subMask e.view c.proposed then
          (s.noteRefused e.coord ((nodesOf c.proposed).filter (fun n => (s.flushOf n).isSome)) e.view).setGrp
            (fun g => { g with change := some { c with start := some e, startAt := s.dt } })
        else s
      | none => s
    else if !tbit (prop ||| s.grp.view) e.coord then s
    else if s.grp.leaving.isSome then (if 3 ≤ s.grp.leaving.getD 0 then s.finishLeave else s.excluded)
    else if s.grp.member then
      let c := match s.grp.change with
        | some c => c.cause
        | none => 1
      (s.beginRound (nodeMask ((nodesOf s.proposal).filter (fun n => !tbit e.view n))) c false).roundCheck false
    else s.setGrp (fun g => { g with change := none, flushes := [], later := [] }))
def execEpochStartReceived (s : State) : Host.Outcome State Fault Refusal := s.upd (whenGrp epochStartReceived)

/-- EPOCH_START_TIMEOUT. -/
def epochStartTimeout (s : Dev) : Dev :=
  match s.grp.change with
  | some c =>
    if c.start.isNone && decide (c.flushAt + 2000000 ≤ s.dt) && lowestOf c.proposed != s.grp.node then
      (s.beginRound (nodeMask ((nodesOf c.proposed).filter (· != lowestOf c.proposed))) c.cause c.merge).roundCheck false
    else s
  | none => s
def execEpochStartTimeout (s : State) : Host.Outcome State Fault Refusal := s.upd (whenGrp epochStartTimeout)

/-- The node holds every event up to CUT, which takes the store they act on, and every snapshot EPOCH_START names. -/
def Dev.startReady (s : Dev) (e : EpochStart) : Bool :=
  (!s.grp.member || s.grp.installed && (nodesOf s.grp.view).all (fun n => !seqAfter (e.cut.getD n 0) (s.recvList.getD n 0))) &&
  (!e.merge || e.snaps.all (fun x => match s.sideImage x.1 with
    | some b => snapCrc b == x.2
    | none => false))

/-- CUT_TIMEOUT. -/
def cutTimeout (s : Dev) : Dev :=
  match s.grp.change with
  | some c => match c.start with
    | some e => if decide (c.startAt + 2000000 ≤ s.dt) && !s.startReady e then s.rejoin else s
    | none => s
  | none => s
def execCutTimeout (s : State) : Host.Outcome State Fault Refusal := s.upd (whenGrp cutTimeout)

/-- A peer a view brings in counts from what it says it has sent, or from the records of the new epoch held of it since;
the records beyond that follow on are taken. -/
def Peer.enter (p : Peer) (q : Nat) (held : Bool) : Peer × List GroupEvent :=
  let q := if held then p.recv else q
  let (p, l) := drainBeyond p.beyond.length { p with recv := q, beyond := p.beyond.filter (fun x => seqAfter x.gseq q) } []
  ({ p with marks := [], asked := none, safeT := p.heldT }, l)

def Dev.alignPeers (s : Dev) (e : EpochStart) (old : Nat) : Dev :=
  ((nodesOf e.view).filter (fun n => n != s.grp.node && !tbit old n)).foldl (fun s n =>
    let q := match s.flushOf n with
      | some f => f.recv.getD n 0
      | none => e.cut.getD n 0
    let held := s.grp.held.any (fun x => x.node == n && x.epoch == e.epoch && x.gseq == (s.peer n).recv)
    let (p, l) := (s.peer n).enter q held
    (s.modPeer n (fun _ => p)).takeEvents l) s

/-- The fields of the new epoch (R236): versions, membership, ticks, the bucket, and the active configuration: an offered
set with its digest becomes active, also where that digest was in force, if every member offers it (09 R221). -/
def Dev.enterEpoch (s : Dev) (e : EpochStart) : Dev :=
  let s := s.setGrp (fun g => { g with
    member := true, joining := false, epoch := e.epoch, coord := e.coord, view := e.view, proto := e.proto,
    costver := e.costver, tS := e.tS, startedAt := s.dt, change := none, flushes := g.later, later := [],
    changes := satInc 16 g.changes, held := g.held.filter (fun x => x.epoch == e.epoch) })
  let s := (s.setMon (fun m => { m with tok := 64, tFill := e.tS })).setStl (fun t => { t with stepLeft := true })
  let s := if e.active = 0 then s
    else if s.mon.sdigest = e.active ∧ (e.active ≠ s.mon.digest ∨ s.commonStaged e.view = e.active) then s.activate e.epoch e.costver e.tS
    else s
  s.setGrp (fun g => { g with tick := e.tS + s.dcfg 20 2 * 1000000 })

/-- The events that have waited, and the own car-status event of a new epoch (R233). -/
def Dev.announceSelf (s : Dev) : Dev :=
  let s := s.sendWaiting
  let r := s.ownRecord s.mon.doors s.mon.tRef
  (s.setMon (fun m => { m with own := some r })).formEvent (.status r) s.dt

def Dev.completeJoin (s : Dev) (at_ : Nat) : Dev :=
  let w := s.grp.joinDesc
  let s := s.setGrp (fun g => { g with joinDesc := none })
  s.completeOpt w .done at_ [wordN s.grp.epoch, wordN s.grp.view, wordN (b2n s.grp.formed + 2 * b2n (!s.grp.formed))]

/-- The view of the side whose lowest node is n, as it stood when that node sent its FLUSH. -/
def Dev.sideView (s : Dev) (n : Nat) : Nat := ((s.flushOf n).map (·.view)).getD (2 ^ n)

/-- Node n enters the view by a join or a formation: its FLUSH did not come from a member (R233). -/
def Dev.newcomer (s : Dev) (n : Nat) : Bool := match s.flushOf n with
  | some f => f.view == 0
  | none => !tbit s.grp.view n

/-- The united store of a merge (R240, R241). -/
def Dev.mergeImages (s : Dev) (e : EpochStart) : Option (Snap × Union) :=
  if e.merge then
    uniteAll e.proto (e.snaps.filterMap (fun x => (s.sideImage x.1).map (fun b => (s.sideView x.1, Snap.ofBytes b))))
  else none

/-- Install a united store and resolve its duplicates (R242). -/
def Dev.applyUnion (s : Dev) (e : EpochStart) : Option (Snap × Union) → Dev
  | some (z, u) =>
    let s := (sortDups u.dups).foldl (fun s d => s.resolveDup e.tS d.1 d.2) (s.install z)
    let s := s.setGrp (fun g => { g with merges := satInc 16 g.merges })
    (s.event 9 4 4 0 e.tS [e.snaps.length, u.dropped, u.dups.length, u.twins]).chrInc 8 48
  | none => s

/-- Cars eligible at once in a new epoch (R233). -/
def Dev.eligibleIn (s : Dev) (e : EpochStart) (oldView : Nat) : Nat :=
  nodeMask ((nodesOf e.view).filter (fun n =>
    !s.newcomer n && (tbit oldView n && tbit s.grp.eligible n || e.merge && !tbit oldView n)))

/-- GRP_EPOCH_NEW. -/
def Dev.epochEvent (s : Dev) (e : EpochStart) : Dev :=
  s.event 9 (if e.cause = 1 ∨ e.cause = 4 then 4 else 2) 1 0 e.tS [e.epoch, e.view, e.coord, e.cause]

/-- A member applies EPOCH_START. -/
def Dev.applyStart (s : Dev) (e : EpochStart) : Dev :=
  let old := s.grp.view
  let s := s.closeEpoch e.cut e.tS
  let el := s.eligibleIn e old
  let joins := (nodesOf e.view).filter s.newcomer
  let s := (s.alignPeers e old).setGrp (fun g => { g with eligible := el })
  let closed := s.snapBytes
  let un := s.mergeImages e
  let s := (s.enterEpoch e).applyUnion e un
  let s := if !e.merge && !joins.isEmpty && (nodesOf e.view).find? (fun n => !joins.contains n) == some s.grp.node then
      s.sendSnapshot closed
    else s
  (((s.reevaluate e.tS).settleEvent e.tS).epochEvent e).announceSelf

/-- A joining node applies EPOCH_START without commits (R243): the store of a formed group starts empty (R245), that
of a merge is united here as everywhere (R240), any other comes as a snapshot. -/
def Dev.joinStart (s : Dev) (e : EpochStart) : Dev :=
  let form := e.cause == 7
  let whole := form || e.merge
  let el := if form then 0 else nodeMask ((nodesOf e.view).filter (fun n => !s.newcomer n))
  let un := s.mergeImages e
  let s := (s.alignPeers e 0).setGrp (fun g => { g with
    eligible := el, formed := form, installed := whole, install := if whole then none else some s.dt })
  let s := s.setMon (fun m => { m with trips := [], cars := [], jobs := [], running := none, committed := [], rrptr := 0 })
  let s := (s.enterEpoch e).applyUnion e un
  let s := if e.merge then (s.reevaluate e.tS).settleEvent e.tS else s
  let s := (s.epochEvent e).announceSelf
  if whole then s.completeJoin s.dt else s

/-- A trigger that waited still stands: a loss always does, another while the heartbeats say so. -/
def Dev.stands (s : Dev) (c : Nat × Bool) : Bool :=
  if c.1 = 1 then true
  else s.viewTrigger == some c || (List.range 16).any (fun n => s.triggerOf n == some c)

/-- The first trigger that waited and still stands starts the next change, or a FLUSH that has come for it does. -/
def Dev.nextChange (s : Dev) : Dev :=
  let l := s.grp.triggers
  let s := s.setGrp (fun g => { g with triggers := [] })
  let s := match l.find? s.stands with
    | some (c, m) => s.trigger c m
    | none => s
  (s.grp.flushes.foldl (fun s f => s.joinRound f) s).roundCheck false

/-- EPOCH_START_APPLY. A coordinator that was not admitted itself goes on joining. -/
def epochStartApply (s : Dev) : Dev :=
  match s.grp.change with
  | some c => match c.start with
    | some e =>
      if !s.startReady e then s
      else if !tbit e.view s.grp.node then s.setGrp (fun g => { g with change := none, flushes := [], later := [] })
      else (if s.grp.member then s.applyStart e else s.joinStart e).nextChange
    | none => s
  | none => s
def execEpochStartApply (s : State) : Host.Outcome State Fault Refusal := s.upd (whenGrp epochStartApply)

/-! ## Joining (R243-R245) -/

/-- SNAP_RECEIVED. -/
def snapReceived (s : Dev) : Dev :=
  s.takeRecord 5 (fun s r =>
    if 16 ≤ leAt r 1 1 then s
    else (s.keepChunk (leAt r 1 1) (leAt r 4 4) (leAt r 2 2) ((r.drop 8).take 1024)).roundCheck false)
def execSnapReceived (s : State) : Host.Outcome State Fault Refusal := s.upd (whenGrp snapReceived)

/-- A whole snapshot a joiner holds. -/
def Dev.anySnapshot (s : Dev) : Option (List Byte) :=
  s.grp.snaps.findSome? (fun x => match joinChunks x.2 with
    | some b => if snapGood b then some b else none
    | none => none)

/-- GRP_SNAPSHOT_DONE: the snapshot is that of CUT; the departures of the new epoch act on it as they did on the
members' stores at T_S. -/
def grpSnapshotDone (s : Dev) : Dev :=
  match s.grp.install, s.anySnapshot with
  | some t, some b =>
    let x := Snap.ofBytes b
    let s := (s.install x).setGrp (fun g => { g with install := none, installed := true, snaps := [] })
    let s := s.event 9 2 5 0 s.dt [b.length, x.trips.length, x.epoch]
    let s := ((s.reevaluate s.grp.tS).settleEvent s.grp.tS).carStatus
    s.sendWaiting.commitStep.completeJoin t
  | _, _ => s
def execGrpSnapshotDone (s : State) : Host.Outcome State Fault Refusal := s.upd (whenGrp grpSnapshotDone)

/-- INSTALL_TIMEOUT. -/
def installTimeout (s : Dev) : Dev :=
  match s.grp.install with
  | some t => if t + 50000000 ≤ s.dt then s.rejoin else s
  | none => s
def execInstallTimeout (s : State) : Host.Outcome State Fault Refusal := s.upd (whenGrp installTimeout)

/-- This node and the joining nodes it hears (R244). -/
def Dev.joiners (s : Dev) : List Nat :=
  s.grp.node :: (List.range 16).filter (fun n => s.heard n &&
    (match (s.peer n).hb with | some h => h.isJoining | none => false))

/-- GROUP_FORMATION. -/
def groupFormation (s : Dev) : Dev :=
  let g := s.grp
  if g.en && g.joining && g.change.isNone && g.leaving.isNone && decide (g.quietAt + 3000000 ≤ s.dt)
      && lowestOf (nodeMask s.joiners) == g.node then
    s.trigger 7 false
  else s
def execGroupFormation (s : State) : Host.Outcome State Fault Refusal := s.upd (whenGrp groupFormation)

end Sys2Proof.Machine
end

