-- ==== Sys2Proof/Machine/MonCmd.lean ====
section
/-! DEFINITION. The host commands of Monarch and of group replication, the end of an evaluation, and the
local epoch of a Solo part (09 R219, R221-R224, 10 R246, R250). -/
namespace Sys2Proof.Machine

/-! ## The local epoch of a Solo part (R246) -/

/-- Close the local epoch and start the next with the staged set active. -/
def Dev.soloEpoch (s : Dev) : Dev :=
  let s := s.closeEpoch [s.grp.gseq] s.dt
  let s := s.setGrp (fun g => { g with member := true, installed := true, node := 0, view := 1, coord := 0,
                                       epoch := g.epoch + 1, costver := s.costMax, tS := s.dt, eligible := 1 })
  let s := s.setMon (fun m => { m with tok := 64, tFill := s.dt })
  let s := s.activate s.grp.epoch s.costMax s.dt
  let s := s.setGrp (fun g => { g with tick := s.dt + s.dcfg 20 2 * 1000000 })
  let r := s.ownRecord s.mon.doors s.mon.tRef
  let s := s.setMon (fun m => { m with cars := kput .reset m.cars 0 r, own := some r })
  ((s.reevaluate s.dt).settleEvent s.dt).sendWaiting

/-- An offered set becomes active once no evaluation is queued or running. -/
def Dev.soloActivate (s : Dev) : Dev :=
  if !s.hasGrp && !s.mon.offered.isEmpty && s.mon.jobs.isEmpty then s.soloEpoch else s

/-- LOCAL_COMMIT. -/
def localCommit (s : Dev) : Dev :=
  if s.hasGrp || s.grp.epoch == 0 then s
  else
    let f := s.watermark
    let s := s.setGrp (fun g => { g with frontier := f })
    s.commitWhere (fun e => decide (e.tEv < f)) f
def execLocalCommit (s : State) : Host.Outcome State Fault Refusal := s.upd (whenOn 5 localCommit)

/-- MON_EVALUATION_COMPLETE: once the cycles of R219 have passed at 2 ns. -/
def monEvaluationComplete (s : Dev) : Dev :=
  match s.mon.jobs with
  | j :: _ => if s.mon.jobStart + 2 * s.evalCycles j ≤ s.dt then s.finishEval.soloActivate.carStatus else s
  | [] => s
def execMonEvaluationComplete (s : State) : Host.Outcome State Fault Refusal := s.upd (whenOn 5 monEvaluationComplete)

/-! ## Calls and cancels -/

/-- A call names landings, a type and passengers it may: words 3 and 4 of MON_CALL (R223). -/
def Dev.callWordsFit (s : Dev) (w3 w4 : Word) : Bool :=
  let lo := bitsOf w3 15 0
  let ld := bitsOf w3 31 16
  let n := s.landings
  let ty := bitsOf w4 2 0
  let up := bitOf w4 3
  bitsOf w4 11 8 != 0 && bitsOf w4 5 4 != 3 &&
  (match ty with
   | 1 => decide (lo < n) && !(lo == 0 && !up) && !(lo + 1 == n && up)
   | 2 | 4 | 5 => decide (lo < n ∧ ld < n ∧ lo ≠ ld)
   | 3 => decide (ld < n)
   | _ => false)

/-- MON_CALL is well formed. -/
def Dev.callFit (s : Dev) (d : Desc) : Bool := d.w 2 == 0 && s.callWordsFit (d.w 3) (d.w 4)

/-- The next trip identity of the node. -/
def Dev.nextCallId (s : Dev) : Nat := s.grp.node * 2 ^ 40 + (s.mon.seq + 1) % 2 ^ 40

/-- Form the call event of words 3 to 5 under the next identity. -/
def Dev.formCall (s : Dev) (w3 w4 w5 : Word) (tEv : Nat) : Dev :=
  let ld := if bitsOf w4 2 0 = 1 then 0xFFFF else bitsOf w3 31 16
  (s.setMon (fun m => { m with seq := (m.seq + 1) % 2 ^ 40 })).formEvent (.call ⟨s.nextCallId, bitsOf w3 15 0, ld, w4, w5⟩) tEv

/-- MON_CALL: its event time is its dispatch (01 R16). -/
def monCall (d : Desc) (s : Dev) : Dev :=
  if !s.callFit d then s.fail d .badDescriptor
  else
    let c : MonCall := { desc := d, id := s.nextCallId, track := bitOf (d.w 4) 24, sentAt := none, late := false, trip := none,
                         cause := 0, abort := none }
    (s.setMon (fun m => { m with calls := m.calls ++ [c] })).formCall (d.w 3) (d.w 4) (d.w 5) (s.dispatchedAt d)

/-- A CAN frame for the fixture duty, of a LOCAL queue pair: where the fixture's protocol, which the spec does not
give, makes it a call, the duty forms the call event at the frame's reception (01 R16, log entry 42). -/
def Dev.fixtureFrame (s : Dev) (q id flags : Nat) (data : List Byte) (tEv : Nat) : Dev :=
  match if (s.qp q).isLocal && s.powered 5 then Config.fixtureCall id flags data else none with
  | some (w3, w4, w5) => if s.callWordsFit w3 w4 then s.formCall w3 w4 w5 tEv else s
  | none => s
def execMonCall (d : Desc) (s : State) : Host.Outcome State Fault Refusal := s.cmd d (whenOn 5 (monCall d))

/-- MON_CANCEL. -/
def monCancel (d : Desc) (s : Dev) : Dev :=
  if d.w 2 ≠ 0 then s.fail d .badDescriptor
  else
    let id := d.w64 3 % 2 ^ 48
    let at_ := s.dispatchedAt d
    (s.setMon (fun m => { m with cancels := m.cancels ++ [(d, id, at_)] })).formEvent (.cancel id) at_
def execMonCancel (d : Desc) (s : State) : Host.Outcome State Fault Refusal := s.cmd d (whenOn 5 (monCancel d))

/-- Take an event that has not been sent out of the waiting ones. -/
def Dev.unsend (s : Dev) (b : EventBody → Bool) : Option Dev :=
  if s.grp.unsent.any (fun e => b e.1) then
    some (s.setGrp (fun g => { g with unsent := g.unsent.filter (fun e => !b e.1) }))
  else none

/-- A host abort of a Monarch or group command (R224): none, too late; otherwise whether it is decided now or
by a later event. -/
def Dev.monAbort (s : Dev) (d a : Desc) : Option (Dev × Bool) :=
  match s.mon.calls.find? (fun c => c.desc.same d) with
  | some c =>
    let drop (s : Dev) : Dev := s.setMon (fun m => { m with calls := m.calls.filter (fun x => x.id != c.id) })
    match s.unsend (fun b => match b with | .call x => x.id == c.id | _ => false) with
    | some s => some ((drop s).complete d .aborted (s.dispatchedAt a) [], true)
    | none =>
      if c.track && c.abort.isNone then
        let s := s.setMon (fun m => { m with calls := m.calls.map (fun (x : MonCall) => if x.id == c.id then { x with abort := some a } else x) })
        some (s.formEvent (.cancel c.id) (s.dispatchedAt a), false)
      else none
  | none =>
    match s.mon.cancels.find? (fun c => c.1.same d) with
    | some c =>
      (s.unsend (fun b => match b with | .cancel x => x == c.2.1 | _ => false)).map (fun s =>
        ((s.setMon (fun m => { m with cancels := m.cancels.erase c })).complete d .aborted (s.dispatchedAt a) [], true))
    | none =>
      if s.mon.offered.any (·.same d) then
        some ((s.setMon (fun m => { m with offered := m.offered.filter (fun x => !x.same d) })).complete d .aborted (s.dispatchedAt a) [], true)
      else if (s.grp.joinDesc.map (·.same d)).getD false then
        some ((s.setGrp (fun g => { g with joinDesc := none, en := g.member, joining := false })).complete d .aborted (s.dispatchedAt a) [], true)
      else if (s.grp.leaveDesc.map (·.same d)).getD false then
        some ((s.setGrp (fun g => { g with leaveDesc := none, leaving := none })).complete d .aborted (s.dispatchedAt a) [], true)
      else none

/-! ## The own car and reads -/

/-- MON_CAR_MODE. -/
def monCarMode (d : Desc) (s : Dev) : Dev :=
  if d.w 2 ≠ 0 ∨ bitsOf (d.w 3) 1 0 = 3 then s.fail d .badDescriptor
  else ((s.setMon (fun m => { m with mode := bitsOf (d.w 3) 1 0 })).carStatus).complete d .done s.dt []
def execMonCarMode (d : Desc) (s : State) : Host.Outcome State Fault Refusal := s.cmd d (whenOn 5 (monCarMode d))

/-- MON_CAR_DOORS. -/
def monCarDoors (d : Desc) (s : Dev) : Dev :=
  let m := bitsOf (d.w 3) 1 0
  if d.w 2 ≠ 0 ∨ (tbit m 0 && s.deckHasAxis 0) ∨ (tbit m 1 && s.deckHasAxis 1) then s.fail d .badDescriptor
  else if (s.mon.own.map (·.phase)).getD 0 ≠ 1 then s.fail d .refusedInterlock
  else ((s.setMon (fun x => { x with doors := x.doors ||| m })).carStatus).complete d .done s.dt []
def execMonCarDoors (d : Desc) (s : State) : Host.Outcome State Fault Refusal := s.cmd d (whenOn 5 (monCarDoors d))

/-- MON_TRIP_READ. -/
def monTripRead (d : Desc) (s : Dev) : Dev :=
  let a := d.w64 5
  if d.w 2 ≠ 0 ∨ !s.addrOk d a 64 then s.fail d .badDescriptor
  else
    match s.trip (d.w64 3 % 2 ^ 48) with
    | some t => (s.hostWrite d a t.bytes).complete d .done s.dt [wordN t.state.code.toNat]
    | none => s.complete d .done s.dt [wordN (Config.tripStateCode 0).toNat]
def execMonTripRead (d : Desc) (s : State) : Host.Outcome State Fault Refusal := s.cmd d (whenOn 5 (monTripRead d))

/-- One halt of MON_CAR_READ: landing, deck mask, w, arrival. -/
def haltBytes (h : Halt) (arr : Nat) : List Byte :=
  let on (e : Nat) : Bool := h.stops.any (·.deck == e)
  leBytes 1 (wrapU 8 h.lam) ++ leBytes 1 (b2n (on 0) + 2 * b2n (on 1)) ++ leBytes 2 (wrapU 16 h.w) ++ leBytes 4 arr

/-- MON_CAR_READ. An arrival that cannot be made is a free value (log entry 27). -/
def monCarRead (d : Desc) (s : Dev) : Dev :=
  let c := (d.w 2).toNat
  let a := d.w64 3
  if 16 ≤ c ∨ !s.addrOk d a 544 then s.fail d .badDescriptor
  else
    let r := s.car c
    let hs := (stopList r (r.dir == 1) (s.carTrips c)).take 64
    let f := s.free
    let v := (s.simulate c s.dt r hs).getD []
    let arr (h : Halt) : Nat := ((v.find? (fun x => decide (x.halt = h))).map (fun x => satU 32 x.arr)).getD (f % 2 ^ 32)
    let b := r.bytes ++ hs.flatMap (fun h => haltBytes h (arr h))
    (s.drawn.hostWrite d a b).complete d .done s.dt [wordN hs.length]
def execMonCarRead (d : Desc) (s : State) : Host.Outcome State Fault Refusal := s.cmd d (whenOn 5 (monCarRead d))

/-! ## Configuration (R221) -/

/-- MON_FTT_LOAD. -/
def monFttLoad (d : Desc) (img : HostBytes) (s : Dev) : Dev :=
  let a := d.w64 4
  let b := (s.fetch d a img).take 131088
  if d.w 2 ≠ 0 ∨ !s.addrOk d a 131088 then s.fail d .badDescriptor
  else if !s.mon.offered.isEmpty then s.fail d .reconfigBusy
  else if b.length < 131088 ∨ !fttFit b then s.fail d .badDescriptor
  else
    (s.stage s.mon.stagedCfg (kput [] s.mon.stagedFtt (bitsOf (d.w 3) 1 0) b)).complete d .done s.dt [wordN (leAt b 12 4)]
def execMonFttLoad (d : Desc) (img : HostBytes) (s : State) : Host.Outcome State Fault Refusal :=
  s.updIn d img (whenOn 5 (monFttLoad d img))

/-- MON_CONFIG_LOAD. -/
def monConfigLoad (d : Desc) (img : HostBytes) (s : Dev) : Dev :=
  let a := d.w64 3
  let b := (s.fetch d a img).take 1156
  if d.w 2 ≠ 0 ∨ !s.addrOk d a 1156 then s.fail d .badDescriptor
  else if !s.mon.offered.isEmpty then s.fail d .reconfigBusy
  else if b.length < 1156 ∨ !configFit b then s.fail d .badDescriptor
  else (s.stage b s.mon.stagedFtt).complete d .done s.dt [wordN (leAt b 1152 4)]
def execMonConfigLoad (d : Desc) (img : HostBytes) (s : State) : Host.Outcome State Fault Refusal :=
  s.updIn d img (whenOn 5 (monConfigLoad d img))

/-- MON_CONFIG_COMMIT: offers the staged digest; a set that is not whole cannot be offered (log entry 27). -/
def monConfigCommit (d : Desc) (s : Dev) : Dev :=
  if d.w 2 ≠ 0 ∨ s.mon.sdigest = 0 then s.fail d .badDescriptor
  else (s.setMon (fun m => { m with offered := m.offered ++ [d] })).soloActivate
def execMonConfigCommit (d : Desc) (s : State) : Host.Outcome State Fault Refusal :=
  s.cmd d (whenOn 5 (monConfigCommit d))

/-! ## Group commands (R250) -/

/-- A GRP_CONFIG asks for more members or contexts than the part has (02 R29). -/
def Dev.overLimit (s : Dev) (d : Desc) : Bool := decide (s.maxCars < bitsOf (d.w 3) 12 8 ∨ s.tripCtx < bitsOf (d.w 3) 25 16)

/-- GRP_CONFIG. -/
def grpConfig (d : Desc) (s : Dev) : Dev :=
  let members := bitsOf (d.w 3) 12 8
  let cap := bitsOf (d.w 3) 25 16
  if !s.hasGrp || s.overLimit d then s.fail d .notInVariant
  else if s.grp.en then s.fail d .reconfigBusy
  else if d.w 2 ≠ 0 ∨ members = 0 ∨ 16 ≤ bitsOf (d.w 3) 7 0 then s.fail d .badDescriptor
  else
    let s := s.setGrp (fun g => { g with node := bitsOf (d.w 3) 3 0, members := members, capacity := cap,
                                         groupId := bitsOf (d.w 4) 15 0 })
    (s.setFld Reg.grpSkew 9 0 (clampN 50 900 (bitsOf (d.w 4) 25 16))).complete d .done s.dt []
def execGrpConfig (d : Desc) (s : State) : Host.Outcome State Fault Refusal := s.cmd d (whenOn 5 (grpConfig d))

/-- GRP_JOIN. -/
def grpJoin (d : Desc) (s : Dev) : Dev :=
  if !s.hasGrp then s.fail d .notInVariant
  else if d.w 2 ≠ 0 then s.fail d .badDescriptor
  else if s.grp.en then s.fail d .reconfigBusy
  else s.setGrp (fun g => { g with en := true, joining := true, leaving := none, joinDesc := some d, quietAt := s.dt })
def execGrpJoin (d : Desc) (s : State) : Host.Outcome State Fault Refusal := s.cmd d (whenOn 5 (grpJoin d))

/-- GRP_LEAVE. -/
def grpLeave (d : Desc) (s : Dev) : Dev :=
  if !s.hasGrp then s.fail d .notInVariant
  else if d.w 2 ≠ 0 then s.fail d .badDescriptor
  else if (s.carTrips s.grp.node).any Trip.aboard then s.fail d .refusedInterlock
  else if s.grp.leaving.isSome then s.fail d .reconfigBusy
  else if s.grp.member then s.setGrp (fun g => { g with leaving := some 0, leaveDesc := some d })
  else
    let w := s.grp.joinDesc
    let s := (s.setGrp (fun g => { g with joinDesc := none, leaveDesc := some d })).completeOpt w .aborted s.dt []
    s.finishLeave
def execGrpLeave (d : Desc) (s : State) : Host.Outcome State Fault Refusal := s.cmd d (whenOn 5 (grpLeave d))

/-- The versions in force; 0 outside an epoch (09 R214, R247). -/
def Dev.costInForce (s : Dev) : Nat := if s.grp.member then s.grp.costver else 0
def Dev.protoInForce (s : Dev) : Nat := if s.grp.member then s.grp.proto else 0

/-- GRP_STAT as read (Table 10-8). -/
def Dev.grpStatWord (s : Dev) : Word :=
  let g := s.grp
  wordN (g.coord * 2 ^ 24 + s.costInForce * 2 ^ 16 + s.protoInForce * 2 ^ 8 + 32 * b2n (s.bit Reg.grpStat 5) + 16 * b2n g.install.isSome
    + 8 * b2n (s.bit Reg.grpStat 3) + 4 * b2n g.change.isSome + 2 * b2n g.joining + b2n g.member)

/-- GRP_STATUS. -/
def grpStatus (d : Desc) (s : Dev) : Dev :=
  if !s.hasGrp then s.fail d .notInVariant
  else if d.w 2 ≠ 0 then s.fail d .badDescriptor
  else s.complete d .done s.dt [wordN s.grp.epoch, wordN s.grp.view, s.grpStatWord, lo64 s.grp.frontier]
def execGrpStatus (d : Desc) (s : State) : Host.Outcome State Fault Refusal := s.cmd d (whenOn 5 (grpStatus d))

/-- GRP_SNAPSHOT_READ. -/
def grpSnapshotRead (d : Desc) (s : Dev) : Dev :=
  let b := s.snapBytes
  let a := d.w64 3
  if !s.hasGrp then s.fail d .notInVariant
  else if d.w 2 ≠ 0 ∨ !s.addrOk d a b.length then s.fail d .badDescriptor
  else (s.hostWrite d a b).complete d .done s.dt [wordN b.length, snapCrc b]
def execGrpSnapshotRead (d : Desc) (s : State) : Host.Outcome State Fault Refusal := s.cmd d (whenOn 5 (grpSnapshotRead d))

end Sys2Proof.Machine
end

