-- ==== Sys2Proof/Machine/Swallow.lean ====
section
/-! DEFINITION. Swallowtail: ports, the two copies of a group frame, group time and host frames (11
R252-R264, R270-R272). -/
namespace Sys2Proof.Machine

/-! ## Ports (R253) -/

def Dev.port (s : Dev) (b : Bool) : StlPort := if b then s.stl.portB else s.stl.portA
def Dev.setPort (s : Dev) (b : Bool) (p : StlPort) : Dev :=
  s.setStl (fun t => if b then { t with portB := p } else { t with portA := p })
/-- Port enable PAEN or PBEN, with EN. -/
def Dev.portOn (s : Dev) (b : Bool) : Bool := s.bit Reg.stlCfg 0 && s.bit Reg.stlCfg (if b then 5 else 4)
/-- The port carries frames. -/
def Dev.portUse (s : Dev) (b : Bool) : Bool := s.portOn b && !(s.port b).failed

def Dev.stlSender (s : Dev) (n : Nat) : StlSender := kget .reset s.stl.senders n
def Dev.setSender (s : Dev) (n : Nat) (x : StlSender) : Dev :=
  s.setStl (fun t => { t with senders := kput .reset t.senders n x })

/-- A port fails for every sender and for transmission; Chrysalis counts it for every node (R272, log entry 33). -/
def Dev.failPort (s : Dev) (b : Bool) : Dev :=
  if (s.port b).failed then s
  else
    let f := s.free
    let s := ((s.drawn.setPort b { s.port b with failed := true })).event 10 6 0x0102 0 s.dt [0xFF, b2n b, 2, f % 2 ^ 32]
    (List.range 16).foldl (fun s n => s.chrInc 8 (2 * n + b2n b)) s

/-- In-band status changes (R253). -/
def Dev.portStatus (s : Dev) (b up full : Bool) (speed : Nat) : Dev :=
  let p := s.port b
  let link := up && full
  let mbps : Nat := match speed with | 1 => 100 | 2 => 1000 | _ => 0
  let s := s.setPort b { p with link := link, speed := if up then speed % 4 else 0,
                                upSince := if link && !p.link then s.dt else p.upSince }
  let s := if link ≠ p.link ∨ speed ≠ p.speed then s.event 10 4 0x0101 0 s.dt [b2n b + 2 * b2n link, mbps] else s
  if link then s else s.failPort b

/-- PORT_RECOVERY: the path states restart as failed. -/
def portRecovery (b : Bool) (s : Dev) : Dev :=
  let p := s.port b
  if p.link && p.failed && s.portOn b && decide (p.upSince + 10000000 ≤ s.dt) then
    let s := s.setPort b { p with failed := false }
    (List.range 16).foldl (fun s n =>
      let x := s.stlSender n
      s.setSender n (if b then { x with pathB := ⟨[], true⟩ } else { x with pathA := ⟨[], true⟩ })) s
  else s
def execPortRecovery (portB : Bool) (s : State) : Host.Outcome State Fault Refusal := s.upd (whenOn 8 (portRecovery portB))

/-! ## Paths (R260) -/

def StlSender.path (x : StlSender) (b : Bool) : StlPath := if b then x.pathB else x.pathA
def StlSender.setPath (x : StlSender) (b : Bool) (p : StlPath) : StlSender :=
  if b then { x with pathB := p } else { x with pathA := p }

/-- The sequence stands recorded so on the path. -/
def StlPath.has (p : StlPath) (sseq : Nat) (valid : Bool) : Bool := p.marks.contains (sseq % 2 ^ 32, valid)

/-- The last of three consecutive sequences, `sseq` among them, that all stand recorded so. -/
def StlPath.run (p : StlPath) (sseq : Nat) (valid : Bool) : Option Nat :=
  ([0, 1, 2].map (fun k => (sseq + k) % 2 ^ 32)).find? (fun q =>
    p.has q valid && p.has (q + 2 ^ 32 - 1) valid && p.has (q + 2 ^ 32 - 2) valid)

/-- Record a sequence that has no record yet: the last 64 stand. -/
def StlPath.mark (p : StlPath) (sseq : Nat) (valid : Bool) : StlPath :=
  if p.has sseq true || p.has sseq false then p
  else { p with marks := (p.marks ++ [(sseq % 2 ^ 32, valid)]).drop (p.marks.length - 63) }

/-- Record a sequence of sender n valid or missing on a path: three consecutive ones fail or restore it. -/
def Dev.markPath (s : Dev) (n : Nat) (b valid : Bool) (sseq : Nat) : Dev :=
  let x := s.stlSender n
  let p := (x.path b).mark sseq valid
  match if p.failed == valid then p.run sseq valid else none with
  | none => s.setSender n (x.setPath b p)
  | some q =>
    let s := s.setSender n (x.setPath b ⟨[], !valid⟩)
    (if valid then s.event 10 2 0x0103 0 s.dt [n, b2n b, q] else s.event 10 6 0x0102 0 s.dt [n, b2n b, 1, q]).chrInc 8 (2 * n + b2n b)

/-- The path is failed for the sender, or its port for every sender. -/
def Dev.pathFailed (s : Dev) (n : Nat) (b : Bool) : Bool := ((s.stlSender n).path b).failed || !s.portUse b

/-! ## The two copies (R257-R259) -/

/-- The LEN a record's MSG byte fixes (Table 11-2). -/
def msgLen (m : Nat) : Nat :=
  match m with | 1 => 64 | 2 => 64 | 3 => 96 | 4 => 128 | 5 => 1032 | 6 => 16 | _ => 0

/-- Sequences never delivered that a delivery steps over are missing on both paths, unless a copy is in hand. -/
def Dev.skipTo (s : Dev) (n sseq : Nat) : Dev :=
  let x := s.stlSender n
  let gap := (sseq + 2 ^ 32 - x.top) % 2 ^ 32 - 1
  (List.range (min gap 4095)).foldl (fun s i =>
    let q := (x.top + 1 + i) % 2 ^ 32
    if x.windows.any (·.sseq == q) then s else (s.markPath n false false q).markPath n true false q) s

/-- Deliver a record of sender n. -/
def Dev.deliver (s : Dev) (n sseq len pcrc closes : Nat) (record : List Byte) : Dev :=
  let x := s.stlSender n
  let ahead := seqAfter sseq x.top
  let s := if ahead then s.skipTo n sseq else s
  let x := s.stlSender n
  let h := x.history ++ [⟨sseq, len, pcrc, closes⟩]
  let x := { x with top := if ahead then sseq else x.top, history := h.drop (h.length - 256) }
  (s.setSender n x).setGrp (fun g => { g with inbox := g.inbox ++ [record] })

/-- STL_MISMATCH and its count. -/
def Dev.stlMismatch (s : Dev) (n sseq flags : Nat) : Dev :=
  ((s.setStl (fun t => { t with mismatch := satInc 16 t.mismatch })).setBit Reg.stlStat 5 true).event 10 6 0x0104 0 s.dt
    [n, sseq, flags]

def Dev.dropWindow (s : Dev) (n sseq : Nat) : Dev :=
  let x := s.stlSender n
  s.setSender n { x with windows := x.windows.filter (fun w => w.sseq != sseq) }

def Dev.skewNow (s : Dev) : Nat := s.fld Reg.stlSkewwin 4 0 * 1000

/-- The second copy of a sequence whose window stands, on the other port. -/
def Dev.secondCopy (s : Dev) (n : Nat) (w : StlWindow) (b : Bool) (len pcrc : Nat) (record : List Byte) : Dev :=
  let same := w.len == len && w.pcrc == pcrc && w.record == record
  let s := s.dropWindow n w.sseq
  if w.delivered then
    let s := if same then s.setStl (fun t => { t with late := satInc 16 t.late }) else s.stlMismatch n w.sseq 4
    (s.markPath n w.portB true w.sseq).markPath n b true w.sseq
  else
    let (l, p, r) := if w.portB then (len, pcrc, record) else (w.len, w.pcrc, w.record)
    let s := s.deliver n w.sseq l p w.closes r
    let s := (s.markPath n false true w.sseq).markPath n true true w.sseq
    if same then s else s.stlMismatch n w.sseq 4

/-- A valid copy of a sequence that is delivered already (R259). -/
def Dev.copyAgain (s : Dev) (n : Nat) (d : StlDone) (b : Bool) (len pcrc : Nat) : Dev :=
  if d.len = len ∧ d.pcrc = pcrc then
    let s := s.setStl (fun t => { t with late := satInc 16 t.late })
    let x := s.stlSender n
    let quiet := match x.lateAt with
      | some t => decide (s.dt < t + 100000000)
      | none => false
    if d.closed < s.dt && !quiet then
      (s.setSender n { x with lateAt := some s.dt }).event 10 4 0x0105 0 s.dt [n, b2n b, d.sseq, ((s.dt - d.closed) / 1000 : Nat)]
    else s
  else s.stlMismatch n d.sseq 4

/-- A valid copy. -/
def Dev.validCopy (s : Dev) (n : Nat) (b : Bool) (sseq len pcrc : Nat) (record : List Byte) : Dev :=
  let x := s.stlSender n
  let x := if x.known then x else { x with known := true, top := (sseq + 2 ^ 32 - 1) % 2 ^ 32, windows := [], invalid := [], history := [] }
  let x := { x with lastValid := s.dt }
  let s := s.setSender n x
  match x.history.find? (·.sseq == sseq), x.windows.find? (·.sseq == sseq) with
  | some d, some w => if w.portB = b then s.copyAgain n d b len pcrc else s.secondCopy n w b len pcrc record
  | none, some w => if w.portB = b then s else s.secondCopy n w b len pcrc record
  | some d, none => s.copyAgain n d b len pcrc
  | none, none =>
    let bad := x.invalid.any (fun i => i.sseq == sseq && i.portB != b && decide (s.dt ≤ i.at_ + s.skewNow))
    if bad then
      let s := s.setSender n { x with invalid := x.invalid.filter (fun i => i.sseq != sseq) }
      let s := s.deliver n sseq len pcrc (s.dt + s.skewNow) record
      ((s.markPath n b true sseq).markPath n (!b) false sseq).stlMismatch n sseq (if b then 1 else 2)
    else
      let early := s.pathFailed n (!b)
      let s := if early then s.deliver n sseq len pcrc (s.dt + s.skewNow) record else s
      let x := s.stlSender n
      s.setSender n { x with windows := x.windows ++ [⟨sseq, b, len, pcrc, record, s.dt + s.skewNow, early⟩] }

/-- An invalid copy whose NODE and SSEQ read as an undelivered sequence's. -/
def Dev.invalidCopy (s : Dev) (n : Nat) (b : Bool) (sseq : Nat) : Dev :=
  let x := s.stlSender n
  if !x.known || x.history.any (·.sseq == sseq) then s
  else
    match x.windows.find? (·.sseq == sseq) with
    | some w =>
      if w.portB = b then s
      else
        let s := (s.dropWindow n sseq).deliver n sseq w.len w.pcrc w.closes w.record
        ((s.markPath n w.portB true sseq).markPath n b false sseq).stlMismatch n sseq (if b then 2 else 1)
    | none =>
      s.setSender n { x with invalid := x.invalid.filter (fun i => decide (s.dt ≤ i.at_ + s.skewNow)) ++ [⟨sseq, b, s.dt⟩] }

/-- The SSEQ is acceptable for its sender (R257). -/
def StlSender.accepts (x : StlSender) (sseq : Nat) : Bool :=
  let d := (sseq + 2 ^ 32 - x.top) % 2 ^ 32
  !x.known || decide (d ≤ 4096) || decide (2 ^ 32 - 255 ≤ d)

/-- A window of sender n closes: a lone copy is delivered, and the other path is marked missing. -/
def Dev.closeWindow (s : Dev) (n : Nat) (w : StlWindow) : Dev :=
  let s := s.dropWindow n w.sseq
  let s := if w.delivered then s else s.deliver n w.sseq w.len w.pcrc w.closes w.record
  (s.markPath n w.portB true w.sseq).markPath n (!w.portB) false w.sseq

/-- The windows of sender n whose closing edge has passed; a copy on the edge is still inside. -/
def Dev.pastWindows (s : Dev) (n : Nat) : List StlWindow := (s.stlSender n).windows.filter (fun w => decide (w.closes < s.dt))

def Dev.closePast (s : Dev) (n : Nat) : Dev := (s.pastWindows n).foldl (fun s w => s.closeWindow n w) s

/-- GROUP_FRAME_COPY_RECEIVED: windows whose edge has passed close first. -/
def groupFrameCopyReceived (b fcsOk : Bool) (bytes : List Byte) (s : Dev) : Dev :=
  let ver := leAt bytes 0 1
  let n := leAt bytes 1 1
  let sseq := leAt bytes 4 4
  let len := leAt bytes 8 2
  let pcrc := leAt bytes 12 4
  let record := (bytes.drop 16).take len
  if !s.hasGrp || !s.portUse b || leAt bytes 2 2 != s.grp.groupId || decide (16 ≤ n) then s else
  let s := s.closePast n
  if !fcsOk then (if (s.stlSender n).accepts sseq then s.invalidCopy n b sseq else s)
  else if ver ≠ 1 ∨ len ≠ msgLen (leAt record 0 1) ∨ len = 0 ∨ pcrc ≠ (crc32 (bytes.take 12 ++ record)).toNat then
    let s := (s.setStl (fun t => { t with pcrcErr := satInc 16 t.pcrcErr })).setBit Reg.stlStat 3 true
    if (s.stlSender n).accepts sseq then s.invalidCopy n b sseq else s
  else if !(s.stlSender n).accepts sseq then
    (s.setStl (fun t => { t with seqErr := satInc 16 t.seqErr })).setBit Reg.stlStat 4 true
  else s.validCopy n b sseq len pcrc record
def execGroupFrameCopyReceived (portB fcsOk : Bool) (bytes : List Byte) (s : State) : Host.Outcome State Fault Refusal :=
  s.upd (whenOn 8 (groupFrameCopyReceived portB fcsOk bytes))

/-- SKEW_WINDOW_CLOSE: after its closing edge. -/
def skewWindowClose (n : Nat) (s : Dev) : Dev :=
  match s.pastWindows n with
  | w :: _ => s.closeWindow n w
  | [] => s
def execSkewWindowClose (n : Fin 16) (s : State) : Host.Outcome State Fault Refusal := s.upd (whenOn 8 (skewWindowClose n))

/-- SENDER_FORGET. -/
def senderForget (n : Nat) (s : Dev) : Dev :=
  let x := s.stlSender n
  if x.known && decide (x.lastValid + 3000000 ≤ s.dt) then
    s.setSender n { x with known := false, windows := [], invalid := [], history := [] }
  else s
def execSenderForget (n : Fin 16) (s : State) : Host.Outcome State Fault Refusal := s.upd (whenOn 8 (senderForget n))

/-! ## Group time (R262, R263) -/

/-- A member whose SYNC clears has left its view; it joins once SYNC is set again. -/
def Dev.syncMembership (s : Dev) (sync : Bool) : Dev :=
  if !s.hasGrp || !s.grp.en then s
  else if !sync && s.grp.member then
    s.setGrp (fun g => { g with member := false, view := 0, change := none, triggers := [], flushes := [], later := [], install := none,
                                installed := false })
  else if sync && !s.grp.member && !s.grp.joining && s.grp.leaving.isNone then
    s.setGrp (fun g => { g with joining := true, quietAt := s.dt })
  else s

/-! ### The end station of IEEE 802.1AS (log entry 33) -/

/-- STL_MAC, octet 0 first. -/
def Dev.mac (s : Dev) : List Byte := be2 (s.fld Reg.stlMachi 15 0) ++ beBytes 4 (s.reg Reg.stlMaclo).toNat

/-- The clock identity: STL_MAC as an EUI-64. -/
def Dev.clockId (s : Dev) : Nat :=
  let m := beNat s.mac
  m / 2 ^ 24 * 2 ^ 40 + 0xFFFE * 2 ^ 24 + m % 2 ^ 24

def Dev.ptp (s : Dev) (b : Bool) : PtpPort := if b then s.stl.ptpB else s.stl.ptpA
def Dev.modPtp (s : Dev) (b : Bool) (f : PtpPort → PtpPort) : Dev :=
  s.setStl (fun t => if b then { t with ptpB := f t.ptpB } else { t with ptpA := f t.ptpA })

/-- The latencies of a port's PHY. -/
def Dev.rxLat (s : Dev) (b : Bool) : Nat := s.fld (if b then Reg.stlLatb else Reg.stlLata) 15 0
def Dev.txLat (s : Dev) (b : Bool) : Nat := s.fld (if b then Reg.stlLatb else Reg.stlLata) 31 16
/-- The time a message that leaves now passes the medium, in steps of 8 ns and corrected. -/
def Dev.egress (s : Dev) (b : Bool) : Nat := s.dt / 8 * 8 + s.txLat b

/-- Send a gPTP message on a port in use. -/
def Dev.ptpSend (s : Dev) (b : Bool) (m : PtpBody) (seq : Nat) : Dev :=
  if s.portUse b then s.emit (.ptpSend (b2n b) m (seq % 2 ^ 16) (s.egress b)) else s

/-- The own vector, with the attributes IEEE 802.1AS gives an end station by default. -/
def Dev.ownVector (s : Dev) : PtpVector := ⟨s.fld Reg.stlPtp 7 0, 248, 0xFE, 0x436A, 248, s.clockId, 0, s.clockId, 0⟩

/-- The vector a port offers: announced by a clock that can be grandmaster, the peer delay measured. -/
def Dev.heardVector (s : Dev) (b : Bool) : Option PtpVector :=
  match (s.ptp b).announced with
  | some (v, _) => if s.portUse b && v.priority1 != 255 && (s.ptp b).delay.isSome then some { v with steps := v.steps + 1 } else none
  | none => none

def vectorKey (v : PtpVector) (port : Nat) : List Nat :=
  [v.priority1, v.clockClass, v.accuracy, v.variance, v.priority2, v.gm, v.steps, v.source, v.port, port]

/-- Of two vectors with their ports, the better: the first on a tie. -/
def betterVector (a b : Option (Option Bool × PtpVector)) : Option (Option Bool × PtpVector) :=
  let port (p : Option Bool) : Nat := match p with | none => 0 | some false => 1 | some true => 2
  match a, b with
  | some x, some y => if vectorKey y.2 (port y.1) < vectorKey x.2 (port x.1) then b else a
  | none, _ => b
  | _, none => a

/-- The best master clock: none, the own one, or a port's, A before B. -/
def Dev.bestMaster (s : Dev) : Option (Option Bool × PtpVector) :=
  let own := if s.fld Reg.stlPtp 7 0 < 255 then some (none, s.ownVector) else none
  betterVector (betterVector own ((s.heardVector false).map (fun v => (some false, v)))) ((s.heardVector true).map (fun v => (some true, v)))

/-- An offset from the grandmaster is known: DT is stepped where R263 lets it, and SYNC follows. -/
def Dev.takeOffset (s : Dev) (offset : Int) : Dev :=
  let s := s.setStl (fun t => { t with offset := wrapS 32 offset })
  let lim : Int := s.fld Reg.stlPtp 23 16 * 1000
  let far := decide (lim < offset.natAbs)
  let steps := far && !s.grp.member && !s.grp.joining && s.stl.stepLeft
  let s := if steps then
      let t := ((s.dt : Int) - offset).toNat % 2 ^ 64
      ((s.setStl (fun x => { x with stepped := true, stepLeft := false })).event 10 4 0x0107 0 t [s.dt, t] |>
        fun (x : Dev) => { x with dt := t })
    else s
  let sync := !far || steps
  if sync = s.stl.sync then s
  else
    let s := s.setStl (fun t => { t with sync := sync })
    (s.event 10 (if sync then 4 else 8) 0x0106 0 s.dt [b2n sync, wrapS 32 offset, s.stl.gmId % 2 ^ 32]).syncMembership sync

/-- The grandmaster is selected; as grandmaster the offset is 0. With none to select the last one's values stand. -/
def Dev.ptpSelect (s : Dev) : Dev :=
  match s.bestMaster with
  | none => s.setStl (fun t => { t with gm := false, slave := none })
  | some (p, v) =>
    let n := match p with | some true => 1 | _ => 0
    let changed := decide (v.gm ≠ s.stl.gmId ∨ v.steps ≠ s.stl.gmSteps ∨ n ≠ s.stl.gmPort)
    let s := s.setStl (fun t => { t with gmId := v.gm, gmPort := n, gmSteps := v.steps, gm := p.isNone, slave := p })
    let s := if changed then s.event 10 2 0x0108 0 s.dt [v.gm, n, v.steps] else s
    if p.isNone then s.takeOffset 0 else s

/-- A Sync with its Follow_Up gives an offset; the rate correction a servo makes of it is open, within ±500 ppm. -/
def Dev.synchronise (s : Dev) (offset : Int) : Dev :=
  let r := clampI (-500) 500 (wrapS 64 s.free)
  (s.drawn.setStl (fun t => { t with rate := r })).takeOffset offset

/-- PTP_MESSAGE_RECEIVED: domain 0 on a port in use; synchronisation in two steps only. -/
def ptpMessageReceived (b : Bool) (domain seq : Nat) (twoStep : Bool) (body : PtpBody) (sfd : Nat) (s : Dev) : Dev :=
  if !s.portUse b || domain != 0 then s
  else
    let t := sfd / 8 * 8 - s.rxLat b
    match body with
    | .announce v =>
      if v.source = s.clockId ∨ 255 ≤ v.steps then s
      else (s.modPtp b (fun p => { p with announced := some (v, s.time) })).ptpSelect
    | .sync src =>
      if twoStep && s.stl.slave == some b && ((s.ptp b).announced.map (·.1.source)) == some src then
        s.modPtp b (fun p => { p with sync := some (src, seq, t) })
      else s
    | .followUp src origin corr =>
      match (s.ptp b).sync, (s.ptp b).delay with
      | some (x, q, r), some delay =>
        if x = src ∧ q = seq ∧ s.stl.slave = some b then
          (s.modPtp b (fun p => { p with sync := none })).synchronise ((r : Int) - (origin + corr + delay))
        else s
      | _, _ => s
    | .pdelayReq _ =>
      (s.ptpSend b (.pdelayResp s.clockId t) seq).ptpSend b (.pdelayRespFollowUp s.clockId (s.egress b)) seq
    | .pdelayResp _ receipt =>
      if (s.ptp b).reqAt.isSome && (s.ptp b).reqSeq == seq && twoStep then s.modPtp b (fun p => { p with resp := some (receipt, t) }) else s
    | .pdelayRespFollowUp _ origin =>
      match (s.ptp b).reqAt, (s.ptp b).resp with
      | some t1, some (t2, t4) =>
        if (s.ptp b).reqSeq = seq then
          let d := (((t4 : Int) - t1) - ((origin : Int) - t2)) / 2
          (s.modPtp b (fun p => { p with reqAt := none, resp := none, delay := some d })).ptpSelect
        else s
      | _, _ => s
def execPtpMessageReceived (portB : Bool) (domain seq : Nat) (twoStep : Bool) (body : PtpBody) (sfd : Nat) (s : State) :
    Host.Outcome State Fault Refusal := s.upd (whenOn 8 (ptpMessageReceived portB domain seq twoStep body sfd))

/-- A port's second: an announce message older than three seconds is dropped, and a delay request goes out. -/
def Dev.ptpPortTick (s : Dev) (b : Bool) : Dev :=
  if s.portUse b then
    let q := ((s.ptp b).reqSeq + 1) % 2 ^ 16
    let old := match (s.ptp b).announced with | some (_, t) => decide (t + 3000000000 ≤ s.time) | none => false
    let s := s.modPtp b (fun p => { p with reqSeq := q, reqAt := some (s.egress b), resp := none, announced := if old then none else p.announced })
    s.ptpSend b (.pdelayReq s.clockId) q
  else s.modPtp b (fun _ => .reset)

/-- Once a second of the root clock: the requests of both ports, the selection, and as grandmaster the announce messages. -/
def Dev.ptpTick (s : Dev) : Dev :=
  if !s.powered 8 || !s.bit Reg.stlCfg 0 || decide (s.time < s.stl.ptpAt) then s
  else
    let s := (((s.setStl (fun t => { t with ptpAt := s.time + 1000000000 })).ptpPortTick false).ptpPortTick true).ptpSelect
    if s.stl.gm then
      let q := s.stl.ptpSeq
      let s := s.setStl (fun t => { t with ptpSeq := (q + 1) % 2 ^ 16 })
      (s.ptpSend false (.announce { s.ownVector with port := 1 }) q).ptpSend true (.announce { s.ownVector with port := 2 }) q
    else s

/-- The sync interval, 2^-SYNCEXP s, has passed since the last Sync (R262). -/
def Dev.syncDue (s : Dev) : Bool := match s.stl.syncAt with
  | some t => decide (t + 1000000000 / 2 ^ s.fld Reg.stlPtp 11 8 ≤ s.dt)
  | none => true

/-- A Sync and its Follow_Up on a port. -/
def Dev.sendSync (s : Dev) (b : Bool) (q : Nat) : Dev :=
  (s.ptpSend b (.sync s.clockId) q).ptpSend b (.followUp s.clockId (s.egress b) 0) q

/-- PTP_SYNC_SEND. -/
def ptpSyncSend (s : Dev) : Dev :=
  if !s.stl.gm || !s.syncDue then s
  else
    let q := s.stl.ptpSeq
    ((s.setStl (fun t => { t with syncAt := some s.dt, ptpSeq := (q + 1) % 2 ^ 16 })).sendSync false q).sendSync true q
def execPtpSyncSend (s : State) : Host.Outcome State Fault Refusal := s.upd (whenOn 8 ptpSyncSend)

/-! ## Host frames (R264) -/

/-- The EtherType of a frame, behind an IEEE 802.1Q tag if it has one. -/
def etherType (b : List Byte) : Nat :=
  let t := beNat ((b.drop 12).take 2)
  if t = 0x8100 then beNat ((b.drop 16).take 2) else t

def reservedType (b : List Byte) : Bool := etherType b == 0x88B5 || etherType b == 0x88F7

/-- The frame is the host's. -/
def Dev.hostTakes (s : Dev) (b : List Byte) : Bool :=
  let dest := b.take 6
  !reservedType b && (dest == s.mac || dest == List.replicate 6 0xFF || s.bit Reg.stlCfg 11
    || (s.bit Reg.stlCfg 10 && tbit (leAt b 0 1) 0))

/-- A waiting STL_RX takes the oldest received frame, port A's first on a tie. -/
def Dev.feedRx (s : Dev) : Dev :=
  match s.stl.rxWait with
  | [] => s
  | d :: rest =>
    let pick : Option (Bool × HostFrame) := match s.stl.fifoA, s.stl.fifoB with
      | a :: _, b :: _ => if b.at_ < a.at_ then some (true, b) else some (false, a)
      | a :: _, [] => some (false, a)
      | [], b :: _ => some (true, b)
      | [], [] => none
    match pick with
    | none => s
    | some (b, f) =>
      let s := s.setStl (fun t => if b then { t with fifoB := t.fifoB.drop 1, rxWait := rest } else { t with fifoA := t.fifoA.drop 1, rxWait := rest })
      (s.hostWrite d (d.w64 3) f.bytes).complete d .done f.at_ [wordN f.bytes.length, wordN (b2n b), lo64 f.at_, hi64 f.at_]

/-- HOST_FRAME_RECEIVED. -/
def hostFrameReceived (b : Bool) (bytes : List Byte) (sfd : Nat) (s : Dev) : Dev :=
  if !s.portUse b || !s.hostTakes bytes then s
  else if 32 ≤ (if b then s.stl.fifoB else s.stl.fifoA).length then
    let s := s.setStl (fun t => if b then { t with dropsB := t.dropsB + 1 } else { t with dropsA := t.dropsA + 1 })
    if s.bit Reg.stlStat 2 then s
    else (s.setBit Reg.stlStat 2 true).event 10 4 0x0109 0 s.dt [b2n b, if b then s.stl.dropsB else s.stl.dropsA]
  else
    let f : HostFrame := ⟨bytes, sfd⟩
    (s.setStl (fun t => if b then { t with fifoB := t.fifoB ++ [f] } else { t with fifoA := t.fifoA ++ [f] })).feedRx
def execHostFrameReceived (portB : Bool) (bytes : List Byte) (sfd : Nat) (s : State) : Host.Outcome State Fault Refusal :=
  s.upd (whenOn 8 (hostFrameReceived portB bytes sfd))

/-- STL_TX. -/
def stlTx (d : Desc) (frame : HostBytes) (s : Dev) : Dev :=
  let len := bitsOf (d.w 5) 10 0
  let ports := bitsOf (d.w 5) 17 16
  let b := (s.fetch d (d.w64 3) frame).take len
  if d.object ≠ 0 ∨ len < 60 ∨ 1518 < len ∨ ports = 0 ∨ reservedType b ∨ !s.addrOk d (d.w64 3) len then s.fail d .badDescriptor
  else s.setStl (fun t => { t with tx := t.tx ++ [⟨d, b, ports⟩] })
def execStlTx (d : Desc) (frame : HostBytes) (s : State) : Host.Outcome State Fault Refusal := s.updIn d frame (whenOn 8 (stlTx d frame))

/-- The rate of a port's link, Mb/s; 0 while it is down. -/
def Dev.portRate (s : Dev) (b : Bool) : Nat :=
  if (s.port b).link then (match (s.port b).speed with | 1 => 100 | 2 => 1000 | _ => 0) else 0

/-- A port's bandwidth test has failed and not passed since (14 R321). -/
def Dev.portShort (s : Dev) (b : Bool) : Bool := tbit s.tlg.bwLost (b2n b)

/-- A frame touches a port whose bandwidth test has failed. -/
def Dev.paced (s : Dev) (x : StlTx) : Bool := [false, true].any (fun b => tbit x.ports (b2n b) && s.portShort b)

/-- A port may start a frame: one whose test has failed, only as the admitted rate allows (14 R321). -/
def Dev.portFree (s : Dev) (x : StlTx) (b : Bool) : Bool :=
  !(tbit x.ports (b2n b) && s.portShort b) || (decide (20 < s.portRate b) && decide ((s.port b).paidTo ≤ s.dt))

/-- The frame of two that goes first: one that no failed test holds, then by duty ID (14 R321). -/
def Dev.frameBefore (s : Dev) (x y : StlTx) : StlTx :=
  if s.paced x && (!s.paced y || decide (Config.frameDuty y.bytes < Config.frameDuty x.bytes)) then y else x

/-- The host frame that starts next: the oldest, and on ports whose bandwidth test has failed that of least duty ID
among those the admitted rate allows. -/
def Dev.nextFrame (s : Dev) : Option StlTx :=
  if s.tlg.bwLost = 0 then s.stl.tx.head?
  else
    match s.stl.tx.filter (fun x => s.portFree x false && s.portFree x true) with
    | [] => none
    | x :: t => some (t.foldl s.frameBefore x)

/-- A frame uses a port's admitted rate: its bytes with preamble, FCS and gap (14 R321). -/
def Dev.payPort (x : StlTx) (s : Dev) (b : Bool) : Dev :=
  if tbit x.ports (b2n b) && s.portShort b then
    s.setPort b { s.port b with paidTo := s.dt + (8000 * (x.bytes.length + 24) + s.portRate b - 21) / (s.portRate b - 20) }
  else s

/-- HOST_FRAME_START. -/
def hostFrameStart (s : Dev) : Dev :=
  match s.nextFrame with
  | some x =>
    let p := x.ports &&& s.stlPorts
    if p = 0 then s
    else
      let s := [false, true].foldl (Dev.payPort x) (s.setStl (fun t => { t with tx := t.tx.erase x }))
      (s.emit (.hostFrame p x.bytes)).complete x.desc .done s.dt [lo64 s.dt, hi64 s.dt]
  | none => s
def execHostFrameStart (s : State) : Host.Outcome State Fault Refusal := s.upd (whenOn 8 hostFrameStart)

/-- STL_RX. -/
def stlRx (d : Desc) (s : Dev) : Dev :=
  if d.object ≠ 0 ∨ !s.addrOk d (d.w64 3) 1536 then s.fail d .badDescriptor
  else (s.setStl (fun t => { t with rxWait := t.rxWait ++ [d] })).feedRx
def execStlRx (d : Desc) (s : State) : Host.Outcome State Fault Refusal := s.cmd d (whenOn 8 (stlRx d))

/-! ## Status and configuration (R270) -/

/-- STL_STAT as read. -/
def Dev.stlStatWord (s : Dev) : Word :=
  let t := s.stl
  wordN ((s.reg Reg.stlStat).toNat + 2 ^ 14 * b2n t.stepped + 2 ^ 13 * b2n t.gm + 2 ^ 12 * b2n t.sync + 2 ^ 8 * (t.portB.speed % 4)
    + 2 ^ 6 * (t.portA.speed % 4) + 2 * b2n t.portB.link + b2n t.portA.link)

/-- STL_PATHFAIL as read: a port that is failed fails for every sender (R253, R260, R270). -/
def Dev.pathFailWord (s : Dev) : Word :=
  let m (b : Bool) : Nat := nodeMask ((List.range 16).filter (fun n => ((s.stlSender n).path b).failed || (s.port b).failed))
  wordN (65536 * m true + m false)

/-- STL_STATUS. -/
def stlStatus (d : Desc) (s : Dev) : Dev :=
  if d.object ≠ 0 then s.fail d .badDescriptor
  else s.complete d .done s.dt [s.stlStatWord, s.pathFailWord, wordI s.stl.offset, lo64 s.stl.gmId]
def execStlStatus (d : Desc) (s : State) : Host.Outcome State Fault Refusal := s.cmd d (whenOn 8 (stlStatus d))

/-- A port enable is cleared, or set: the port is failed until its link has held (R253). -/
def Dev.portEnable (s : Dev) (b was is : Bool) : Dev :=
  if was && !is then s.failPort b
  else if !was && is then s.setPort b { s.port b with failed := true, upSince := s.dt }
  else s

/-- STL_CFG_WRITE. -/
def stlCfgWrite (v : Word) (s : Dev) : Dev :=
  let old := s.reg Reg.stlCfg
  let en := bitOf old 0
  let w := writeBits old v 0xF31 0
  let held := en && !bitOf v 0 && s.grp.en
  let w1 := if held then setBitsOf w 0 0 1 else w
  let w2 := if en then keepBits old w1 0x300 else w1
  let s := if w2 ≠ w then s.setBit Reg.stlStat 15 true else s
  let s := (s.setReg Reg.stlCfg w2).portEnable false (bitOf old 4) (bitOf w2 4)
  let s := s.portEnable true (bitOf old 5) (bitOf w2 5)
  if en && !bitOf w2 0 then
    let q := s.stl.tx
    q.foldl (fun s x => s.fail x.desc .flushed) (s.setStl (fun t => { t with tx := [] }))
  else s
def execStlCfgWrite (v : Word) (s : State) : Host.Outcome State Fault Refusal := s.upd (whenBar (stlCfgWrite v))

/-- A host abort of STL_TX or STL_RX. -/
def Dev.stlAbort (s : Dev) (d : Desc) : Option Dev :=
  if s.stl.tx.any (·.desc.same d) then
    some ((s.setStl (fun t => { t with tx := t.tx.filter (fun x => !x.desc.same d) })).fail d .aborted)
  else if s.stl.rxWait.any (·.same d) then
    some ((s.setStl (fun t => { t with rxWait := t.rxWait.filter (fun x => !x.same d) })).fail d .aborted)
  else none

end Sys2Proof.Machine
end

