-- ==== Sys2Proof/Machine/Buses.lean ====
section
/-! DEFINITION. The CAN FD controllers and the SPI sensor ports (11 R265-R272). -/
namespace Sys2Proof

def CanFrame.ide (f : CanFrame) : Bool := Machine.tbit f.flags 0
def CanFrame.fdf (f : CanFrame) : Bool := Machine.tbit f.flags 1
def CanFrame.brs (f : CanFrame) : Bool := Machine.tbit f.flags 2

/-- The frame record of Table 11-5. -/
def CanFrame.bytes (f : CanFrame) (filter ctrl time : Nat) : List Byte :=
  Machine.leBytes 4 f.id ++ Machine.leBytes 1 f.flags ++ Machine.leBytes 1 f.data.length ++ Machine.leBytes 1 filter ++ Machine.leBytes 1 ctrl ++ Machine.leBytes 8 time
    ++ (f.data ++ Machine.zeros (64 - f.data.length)).take 64

def CanFrame.ofBytes (b : List Byte) : CanFrame :=
  ⟨Machine.leAt b 0 4 % 2 ^ 29, Machine.leAt b 4 1 % 32, (b.drop 16).take (Machine.leAt b 5 1)⟩

end Sys2Proof

namespace Sys2Proof.Machine

/-! ## CAN -/

def Dev.can (s : Dev) (n : Nat) : Can := kget .reset s.canCtl n
def Dev.modCan (s : Dev) (n : Nat) (f : Can → Can) : Dev := { s with canCtl := kmod .reset s.canCtl n f }
def Dev.canOn (s : Dev) (n : Nat) : Bool := decide (n < s.cans) && s.bit (Reg.canCfg n) 0

/-- LEN is a valid length of a frame of its kind. -/
def canLenOk (fdf : Bool) (n : Nat) : Bool := decide (n ≤ 8) || (fdf && [12, 16, 20, 24, 32, 48, 64].contains n)

/-- Filter k of controller n accepts a frame (R266). -/
def Dev.canMatch (s : Dev) (n k : Nat) (f : CanFrame) : Bool :=
  let fid := s.reg (Reg.canFid n k)
  let msk := s.reg (Reg.canFmsk n k)
  let m := bitsOf msk 28 0 &&& (if f.ide then 2 ^ 29 - 1 else 2 ^ 11 - 1)
  bitOf fid 30 && (bitsOf fid 28 0 &&& m) == (f.id &&& m) && (!bitOf msk 29 || bitOf fid 29 == f.ide)

/-- The state of the error counters (ISO 11898-1), short of bus-off. -/
def canErrState (tec rec_ : Nat) : Nat := if 127 < tec ∨ 127 < rec_ then 1 else 0

/-- The state changes. -/
def Dev.canState (s : Dev) (n st : Nat) : Dev :=
  let c := s.can n
  if c.state = st then s
  else (s.modCan n (fun c => { c with state := st })).event 10 (if st = 2 then 8 else 4) 0x0201 n s.dt [st, min 255 c.tec, c.rec_]

/-- Waiting CAN_RX commands take the frames for their queue pairs. -/
def feedCan : Nat → Nat → Dev → Dev
  | 0, _, s => s
  | k + 1, n, s =>
    let c := s.can n
    match c.rxWait.find? (fun d => c.rx.any (fun r => r.qp == d.qp)) with
    | some d =>
      match c.rx.find? (fun r => r.qp == d.qp) with
      | some r =>
        let s := s.modCan n (fun c => { c with rx := c.rx.erase r, rxWait := c.rxWait.erase d })
        let s := (s.hostWrite d (d.w64 3) (r.frame.bytes r.filter n r.at_)).complete d .done r.at_ [wordN r.filter, lo64 r.at_, hi64 r.at_]
        feedCan k n s
      | none => s
    | none => s

def Dev.canFeed (s : Dev) (n : Nat) : Dev := feedCan ((s.can n).rxWait.length) n s

/-- CAN_FRAME_RECEIVED. -/
def canFrameReceived (n : Nat) (f : CanFrame) (t rec_ : Nat) (s : Dev) : Dev :=
  if !s.canOn n || decide (2 ≤ (s.can n).state) || (f.fdf && !s.bit (Reg.canCfg n) 1) then s
  else
    let s := s.modCan n (fun c => { c with rec_ := min 255 rec_ })
    let s := s.canState n (canErrState (s.can n).tec rec_)
    match (List.range 32).find? (fun k => s.canMatch n k f) with
    | none => s
    | some k =>
      if 64 ≤ (s.can n).rx.length then
        let s := s.modCan n (fun c => { c with dropped := satInc 16 c.dropped })
        if s.bit (Reg.canStat n) 20 then s
        else (s.setBit (Reg.canStat n) 20 true).event 10 4 0x0202 n s.dt [(s.can n).dropped]
      else
        let q := if bitOf (s.reg (Reg.canFid n k)) 31 then s.fld (Reg.canCfg n) 30 24 else s.fld (Reg.canCfg n) 22 16
        let s := s.modCan n (fun c => { c with rx := c.rx ++ [⟨f, k, q, t / 10 * 10⟩] })
        (s.fixtureFrame q f.id f.flags f.data (t / 10 * 10)).canFeed n
def execCanFrameReceived (n : Fin 4) (f : CanFrame) (t rec : Nat) (s : State) : Host.Outcome State Fault Refusal :=
  s.upd (whenOn 8 (canFrameReceived n f t rec))

/-- The identifier as ISO 11898-1 arbitrates it: the base identifier first, a standard frame before an extended one. -/
def CanTx.rank (x : CanTx) : Nat :=
  if x.frame.ide then 2 * x.frame.id + 1 else x.frame.id % 2 ^ 11 * 2 ^ 19

/-- The frame that wins arbitration among the 16 transmit buffers: lowest identifier, then dispatch order. -/
def Can.winner (c : Can) : Option CanTx :=
  (c.tx.take 16).foldl (fun (a : Option CanTx) x => match a with
    | some y => if x.rank < y.rank then some x else a
    | none => some x) none

/-- With no attempt in progress, the winner's attempt begins (log entry 33). -/
def Dev.canStart (s : Dev) (n : Nat) : Dev :=
  let c := s.can n
  if !s.canOn n || s.bit (Reg.canCfg n) 4 || decide (2 ≤ c.state) || c.tx.any (·.attempt.isSome) then s
  else match c.winner with
    | some x =>
      (s.modCan n (fun c => { c with tx := c.tx.map (fun (y : CanTx) => if y.order == x.order then { y with attempt := some s.dt } else y) })).emit
        (.canSend n x.frame)
    | none => s

/-- Every pending CAN_TX completes with a status; an abort that waits is too late. -/
def Dev.canEndAll (s : Dev) (n : Nat) (st : Status) : Dev :=
  let q := (s.can n).tx
  q.foldl (fun s x => (s.fail x.desc st).completeOpt x.abort .abortTooLate (s.acceptedAt x.abort) (abortRes st))
    (s.modCan n (fun c => { c with tx := [] }))

/-- EN is cleared: what waits is flushed, and an attempt in progress runs to its end (R270). -/
def Dev.canClose (s : Dev) (n : Nat) : Dev :=
  let q := (s.can n).tx.filter (·.attempt.isNone)
  q.foldl (fun s x => s.fail x.desc .flushed) (s.modCan n (fun c => { c with tx := c.tx.filter (·.attempt.isSome) }))

/-- Bus-off is entered (R268). -/
def Dev.canBusOff (s : Dev) (n : Nat) : Dev :=
  let s := (((s.canState n 2).setBit (Reg.canStat n) 19 true).chrInc 8 (50 + n)).canEndAll n .hwFault
  if s.bit (Reg.canCfg n) 3 then s.canState n 3 else s

/-- CAN_TX_ATTEMPT_END: on success the frame record's TIME is written; with EN cleared since, the controller ends
here (R267, R270). -/
def canTxAttemptEnd (n : Nat) (ok : Bool) (tec rec_ : Nat) (s : Dev) : Dev :=
  match (s.can n).tx.find? (·.attempt.isSome) with
  | none => s
  | some x =>
    let drop (s : Dev) : Dev := s.modCan n (fun c => { c with tx := c.tx.filter (fun y => y.order != x.order) })
    let s := s.modCan n (fun c => { c with tec := min 255 tec, rec_ := min 255 rec_ })
    let s :=
      if ok then
        (((drop s).hostWrite x.desc (x.desc.w64 3 + 8) (leBytes 8 s.dt)).complete x.desc .done (x.attempt.getD s.dt)
          [lo64 s.dt, hi64 s.dt]).completeOpt x.abort .abortTooLate (s.acceptedAt x.abort) (abortRes .done)
      else if x.abort.isSome then
        let a := s.acceptedAt x.abort
        ((drop s).complete x.desc .aborted s.dt []).completeOpt x.abort .abortApplied a (abortRes .aborted)
      else if !s.canOn n then (drop s).fail x.desc .flushed
      else if s.bit (Reg.canCfg n) 5 then (drop s).fail x.desc .timeout
      else s.modCan n (fun c => { c with tx := c.tx.map (fun (y : CanTx) => { y with attempt := none }) })
    if 255 < tec then s.canBusOff n
    else (s.canState n (canErrState tec rec_)).canStart n
def execCanTxAttemptEnd (n : Fin 4) (ok : Bool) (tec rec : Nat) (s : State) : Host.Outcome State Fault Refusal :=
  s.upd (whenOn 8 (canTxAttemptEnd n ok tec rec))

/-- CAN_BUSOFF_RECOVERY. -/
def canBusoffRecovery (n : Nat) (s : Dev) : Dev :=
  if (s.can n).state = 3 then ((s.modCan n (fun c => { c with tec := 0, rec_ := 0 })).canState n 0).canStart n else s
def execCanBusoffRecovery (n : Fin 4) (s : State) : Host.Outcome State Fault Refusal := s.upd (whenOn 8 (canBusoffRecovery n))

/-- The object of a CAN command: the controller, or why it is refused. -/
def Dev.canCheck (s : Dev) (d : Desc) : Option Status :=
  let n := bitsOf d.object 7 0
  if n < 4 ∧ s.cans ≤ n then some .notInVariant
  else if 4 ≤ d.object.toNat then some .badDescriptor
  else none

/-- CAN_TX. -/
def canTx (d : Desc) (img : HostBytes) (s : Dev) : Dev :=
  let n := bitsOf d.object 7 0
  let b := s.fetch d (d.w64 3) img
  let f := CanFrame.ofBytes b
  match s.canCheck d with
  | some st => s.fail d st
  | none =>
    if !s.addrOk d (d.w64 3) 80 ∨ !canLenOk f.fdf (leAt b 5 1) ∨ (f.fdf && !s.bit (Reg.canCfg n) 1) ∨ (f.brs && !s.bit (Reg.canCfg n) 2) then
      s.fail d .badDescriptor
    else if s.bit (Reg.canCfg n) 4 then s.fail d .refusedInterlock
    else (s.modCan n (fun c => { c with order := c.order + 1, tx := c.tx ++ [⟨d, f, c.order, none, none⟩] })).canStart n
def execCanTx (d : Desc) (img : HostBytes) (s : State) : Host.Outcome State Fault Refusal := s.updIn d img (whenOn 8 (canTx d img))

/-- CAN_RX. -/
def canRx (d : Desc) (s : Dev) : Dev :=
  match s.canCheck d with
  | some st => s.fail d st
  | none =>
    if !s.addrOk d (d.w64 3) 80 then s.fail d .badDescriptor
    else
      let n := bitsOf d.object 7 0
      (s.modCan n (fun c => { c with rxWait := c.rxWait ++ [d] })).canFeed n
def execCanRx (d : Desc) (s : State) : Host.Outcome State Fault Refusal := s.cmd d (whenOn 8 (canRx d))

/-- CAN_RECOVER. -/
def canRecover (d : Desc) (s : Dev) : Dev :=
  match s.canCheck d with
  | some st => s.fail d st
  | none =>
    let n := bitsOf d.object 7 0
    let c := s.can n
    (if c.state = 2 then s.canState n 3 else s).complete d .done s.dt [wordN (min 255 c.tec), wordN c.rec_]
def execCanRecover (d : Desc) (s : State) : Host.Outcome State Fault Refusal := s.cmd d (whenOn 8 (canRecover d))

/-- CAN_CFG_WRITE. -/
def canCfgWrite (n : Nat) (v : Word) (s : Dev) : Dev :=
  if s.cans ≤ n then s
  else
    let old := s.reg (Reg.canCfg n)
    let w := writeBits old v 0x7F7FFF3F 0
    let w1 := if bitOf old 0 then keepBits old w 0xFF06 else w
    let s := if w1 ≠ w then s.setBit (Reg.canStat n) 21 true else s
    let s := s.setReg (Reg.canCfg n) w1
    if bitOf old 0 && !bitOf w1 0 then s.canClose n
    else if (s.can n).state = 2 ∧ bitOf w1 3 then s.canState n 3
    else s.canStart n
def execCanCfgWrite (n : Fin 4) (v : Word) (s : State) : Host.Outcome State Fault Refusal := s.upd (whenBar (canCfgWrite n v))

/-- A host abort of CAN_TX or CAN_RX (R267): none, too late; the flag says whether it is decided now. -/
def Dev.canAbort (s : Dev) (d a : Desc) : Option (Dev × Bool) :=
  match (List.range 4).find? (fun n => (s.can n).tx.any (·.desc.same d) || (s.can n).rxWait.any (·.same d)) with
  | none => none
  | some n =>
    match (s.can n).tx.find? (·.desc.same d) with
    | some x =>
      if x.attempt.isSome then
        if x.abort.isSome then none
        else some (s.modCan n (fun c => { c with tx := c.tx.map (fun (y : CanTx) => if y.order == x.order then { y with abort := some a } else y) }), false)
      else some ((s.modCan n (fun c => { c with tx := c.tx.filter (fun y => y.order != x.order) })).complete d .aborted (s.dispatchedAt a) [], true)
    | none => some ((s.modCan n (fun c => { c with rxWait := c.rxWait.filter (fun x => !x.same d) })).complete d .aborted (s.dispatchedAt a) [], true)

/-- CAN_STAT as read. -/
def Dev.canStatWord (s : Dev) (n : Nat) : Word :=
  let c := s.can n
  wordN ((s.reg (Reg.canStat n)).toNat + 65536 * (c.state % 4) + 256 * (c.rec_ % 256) + c.tec % 256)

/-! ## SPI (R269) -/

def Dev.spi (s : Dev) (m : Nat) : Spi := kget .reset s.spiPort m
def Dev.modSpi (s : Dev) (m : Nat) (f : Spi → Spi) : Dev := { s with spiPort := kmod .reset s.spiPort m f }

/-- The time of a period's transactions from its phase zero, ns. -/
def spiTime (div : Nat) (l : List SpiTxn) : Nat :=
  100 + (l.map (fun t => t.bytes.length * 8 * div * 10)).foldl (· + ·) 0 + 200 * (l.length - 1)

/-- A program finishes 5 µs before the next period. -/
def spiFits (cfg : Word) (l : List SpiTxn) : Bool :=
  decide (spiTime (bitsOf cfg 15 8) (l.take (bitsOf cfg 27 24)) + 5000 ≤ bitsOf cfg 21 16 * 50000)

/-- The program a port runs from its next period on. -/
def Spi.next (x : Spi) : List SpiTxn :=
  match x.staged with
  | some (p, _) => p
  | none => x.program

/-- SPI_CFG_WRITE. -/
def spiCfgWrite (m : Nat) (v : Word) (s : Dev) : Dev :=
  let old := s.reg (Reg.spiCfg m)
  let w := writeBits old v 0xF3FFF07 0
  let w1 := if bitOf old 0 then keepBits old w 0xFF06 else w
  let s := if w1 ≠ w then s.setBit (Reg.spiStat m) 1 true else s
  if !bitOf old 0 && bitOf w1 0 then
    if spiFits w1 (s.spi m).next then
      (s.setReg (Reg.spiCfg m) w1).modSpi m (fun x => { x with run := true, stopAsked := false })
    else (s.setReg (Reg.spiCfg m) (setBitsOf w1 0 0 0)).setBit (Reg.spiStat m) 2 true
  else if bitOf old 0 && !bitOf w1 0 then
    (s.setReg (Reg.spiCfg m) w1).modSpi m (fun x =>
      if x.period.isSome then { x with stopAsked := true } else { x with run := false })
  else s.setReg (Reg.spiCfg m) w1
def execSpiCfgWrite (m : Fin 2) (v : Word) (s : State) : Host.Outcome State Fault Refusal := s.upd (whenBar (spiCfgWrite m v))

/-- A period begins now: at phase zero of a frame whose number is a multiple of PER (log entry 33). -/
def Dev.spiDue (s : Dev) (m : Nat) : Bool :=
  s.powered 6 && s.dt == s.lpe.phaseAt && s.lpe.frame % max 1 (s.fld (Reg.spiCfg m) 21 16) == 0

/-- SPI_PERIOD. -/
def spiPeriod (m : Nat) (s : Dev) : Dev :=
  let x := s.spi m
  if !x.run || x.period.isSome || x.stopAsked || !s.spiDue m then s
  else
    let s := s.modSpi m (fun x => { x with program := x.next, staged := none, period := some s.dt })
    let s := s.emit (.spiRun m (s.fld (Reg.spiCfg m) 2 1)
      ((x.next.take (s.fld (Reg.spiCfg m) 27 24)).map (fun t => (t.cs, t.bytes))))
    match x.staged with
    | some (_, d) => s.complete d .done s.dt []
    | none => s
def execSpiPeriod (m : Fin 2) (s : State) : Host.Outcome State Fault Refusal := s.upd (whenOn 8 (spiPeriod m))

/-- SPI_TRANSACTIONS_COMPLETE. -/
def spiTransactionsComplete (m : Nat) (bytes : List Byte) (s : Dev) : Dev :=
  match (s.spi m).period with
  | some t =>
    let l := (s.spi m).program.take (s.fld (Reg.spiCfg m) 27 24)
    let n := l.foldl (fun a x => a + x.bytes.length) 0
    if s.dt < t + spiTime (s.fld (Reg.spiCfg m) 15 8) l then s
    else
      s.modSpi m (fun x => { x with result := bytes.take n, sampleAt := t + 100, period := none,
                                    run := x.run && !x.stopAsked, stopAsked := false })
  | none => s
def execSpiTransactionsComplete (m : Fin 2) (bytes : List Byte) (s : State) : Host.Outcome State Fault Refusal :=
  s.upd (whenOn 8 (spiTransactionsComplete m bytes))

/-- The transactions of an SPI_PROG image; none where one is malformed. -/
def spiParse (n : Nat) (b : List Byte) : Option (List SpiTxn) :=
  let l := (List.range n).map (fun i =>
    let e := b.drop (36 * i)
    (leAt e 0 1, leAt e 1 1, (e.drop 4).take 32))
  if l.all (fun x => decide (x.1 ≤ 1 ∧ 1 ≤ x.2.1 ∧ x.2.1 ≤ 32)) then
    some (l.map (fun x => ⟨x.1, (x.2.2 ++ zeros 32).take x.2.1⟩))
  else none

/-- SPI_PROG. -/
def spiProg (d : Desc) (img : HostBytes) (s : Dev) : Dev :=
  let m := d.object.toNat
  if 2 ≤ m then s.fail d .badDescriptor
  else
    let cfg := s.reg (Reg.spiCfg m)
    let n := bitsOf cfg 27 24
    match spiParse n (s.fetch d (d.w64 3) img) with
    | none => s.fail d .badDescriptor
    | some p =>
      if !s.addrOk d (d.w64 3) (36 * n) then s.fail d .badDescriptor
      else if !spiFits cfg p then (s.setBit (Reg.spiStat m) 2 true).fail d .badDescriptor
      else if (s.spi m).staged.isSome then s.fail d .reconfigBusy
      else s.modSpi m (fun x => { x with staged := some (p, d) })
def execSpiProg (d : Desc) (img : HostBytes) (s : State) : Host.Outcome State Fault Refusal := s.updIn d img (whenOn 8 (spiProg d img))

/-- SPI_READ. -/
def spiRead (d : Desc) (s : Dev) : Dev :=
  let m := d.object.toNat
  let x := s.spi m
  if 2 ≤ m ∨ !s.addrOk d (d.w64 3) x.result.length then s.fail d .badDescriptor
  else (s.hostWrite d (d.w64 3) x.result).complete d .done s.dt [lo64 x.sampleAt, hi64 x.sampleAt, wordN x.result.length]
def execSpiRead (d : Desc) (s : State) : Host.Outcome State Fault Refusal := s.cmd d (whenOn 8 (spiRead d))

/-- A host abort of SPI_PROG. -/
def Dev.spiAbort (s : Dev) (d : Desc) : Option Dev :=
  match (List.range 2).find? (fun m => match (s.spi m).staged with | some (_, e) => e.same d | none => false) with
  | some m => some ((s.modSpi m (fun x => { x with staged := none })).fail d .aborted)
  | none => none

end Sys2Proof.Machine
end

