-- ==== Sys2Proof/Machine/Hawk.lean ====
section
/-! DEFINITION. Hawkmoth, the interlock supervisor: its logic half and its Cocoon half (08). Masks hold
the causes of Table 8-1 by bit; positions are Q1 counts, speeds counts/s. -/
namespace Sys2Proof.Machine

def Dev.setHwk (s : Dev) (f : HwkLogic → HwkLogic) : Dev := { s with hwk := f s.hwk }
def Dev.setHwkF (s : Dev) (f : HwkField → HwkField) : Dev := { s with hwkF := f s.hwkF }

/-- The mask of the bits whose condition holds. -/
def maskOf (l : List (Nat × Bool)) : Nat := l.foldl (fun m (i, c) => if c then m ||| 2 ^ i else m) 0
/-- `a` without the bits of `b`. -/
def maskOff (a b : Nat) : Nat := (List.range 16).foldl (fun m i => if tbit a i && !tbit b i then m + 2 ^ i else m) 0

/-- Causes latched always: 5, 8, 13, 14; causes latched by LATCHMASK: 6, 7, 9, 10, 12 (Table 8-1). -/
def latchAlways : Nat := 0x6120
def latchByMask : Nat := 0x16C0
/-- Causes that withdraw the door permits: 0, 1, 2, 8, 11, 13, 14 (R190). -/
def doorBlock : Nat := 0x6907

/-! ## Rule set fields (Tables 8-5, 8-6) -/

def Dev.zoneSpd (s : Dev) : Nat := s.fld Reg.hwkZonespd 23 0
def Dev.ucmDist (s : Dev) : Nat := s.fld Reg.hwkWin 31 16
def Dev.spdWin (s : Dev) : Nat := clampN 1 10 (s.fld Reg.hwkWin 3 0)
def Dev.npts (s : Dev) : Nat := s.fld Reg.hwkCurvecfg 5 0
def Dev.curvePos (s : Dev) (k : Nat) : Int := s.sfld (Reg.hwkCpos k) 31 0
def Dev.curveUp (s : Dev) (k : Nat) : Int := s.fld (Reg.hwkClim k) 15 0
def Dev.curveDn (s : Dev) (k : Nat) : Int := s.fld (Reg.hwkClim k) 31 16

/-- The words of the rule set that its CRC covers, as the registers read back (R194). -/
def Dev.hwkImage (s : Dev) : List Word :=
  (List.range 18).map (fun i => s.reg (0x6008 + 4 * i)) ++ (List.range 64).map (fun i => s.reg (0x6100 + 4 * i))

def rulesCrc (image : List Word) : Word := crc32 (image.flatMap (fun w => leBytes 4 w.toNat))

/-! ## Events (R198, R199) -/

/-- Raise an event; while its ring has no room it is stored, up to 64 records. -/
def Dev.hwkEvent (s : Dev) (sev code time : Nat) (payload : List Int) : Dev :=
  if s.hwk.records.isEmpty && s.eqReady 7 then s.event 7 sev code 0 time payload
  else if s.hwk.records.length < 64 then
    s.setHwk (fun g => { g with records := g.records ++ [⟨sev, code, time, payload⟩] })
  else s.setHwk (fun g => { g with dropped := satInc 8 g.dropped })

/-- Deliver stored records in order while their ring has room. -/
def deliverRecords : Nat → Dev → Dev
  | 0, s => s
  | n + 1, s =>
    match s.hwk.records with
    | r :: t =>
      if s.eqReady 7 then
        deliverRecords n ((s.setHwk (fun g => { g with records := t })).event 7 r.severity r.code 0 r.time r.payload)
      else s
    | [] => s

/-- HWK_RECORD_DELIVERY. -/
def hwkRecordDelivery (s : Dev) : Dev := deliverRecords 64 s

def execHwkRecordDelivery (s : State) : Host.Outcome State Fault Refusal := s.upd hwkRecordDelivery

/-! ## The permits of both halves -/

/-- The permits both halves give, as the logic half knows them, and the events of their change: `field`
says that the Cocoon half decided, at instant `t`. -/
def Dev.hwkCombine (s : Dev) (field : Bool) (t : Nat) : Dev :=
  let g := s.hwk
  let new : Permits := ⟨g.permits.motion && g.other.permits.motion, g.permits.door0 && g.other.permits.door0,
                        g.permits.door1 && g.other.permits.door1⟩
  let old := g.both
  let s := s.setHwk (fun g => { g with both := new })
  let s :=
    if old.motion && !new.motion then
      let (a, l) := if field then (g.other.active, g.other.latched) else (g.active, g.latched)
      let s := s.hwkEvent (if l = 0 then 6 else 8) 3 t [a + 65536 * l, g.h, g.s, b2n field]
      (List.range 16).foldl (fun s i => if tbit (a ||| l) i then s.chrInc 6 i else s) s
    else s
  if old.door0 != new.door0 || old.door1 != new.door1 then
    s.hwkEvent 1 5 t [b2n new.door0 + 2 * b2n new.door1, g.h, g.s]
  else s

/-! ## Position and speed (R183) -/

/-- The sense of a quadrature step of (QA1, QB1): up through 00, 10, 11, 01. -/
def hwkQuadStep (a b a' b' : Bool) : Int :=
  if a != a' ∧ b != b' then 0
  else if a = a' ∧ b = b' then 0
  else if a != a' then (if a' != b then 1 else -1)
  else (if a = b' then 1 else -1)

/-- The accepted levels of (QA1, QB1) become `a` and `b`. -/
def Dev.hwkLevels (s : Dev) (a b : Bool) : Dev :=
  let g := s.hwk
  let n := hwkQuadStep g.qa g.qb a b
  let s := if g.qa != a && g.qb != b then s.setBit Reg.hwkStat 12 true else s
  s.setHwk (fun g => { g with qa := a, qb := b, h := wrapS 32 (g.h + n), net := g.net + n })

/-- One sample of QA1 and QB1 at a cycle of the RC oscillator: a level is accepted at the fourth consecutive
sample that shows it (R183). -/
def Dev.hwkSample (s : Dev) (a b : Bool) : Dev :=
  let fa := filterStep 4 s.hwk.qa s.hwk.runA a
  let fb := filterStep 4 s.hwk.qb s.hwk.runB b
  (s.setHwk (fun g => { g with runA := fa.2, runB := fb.2 })).hwkLevels fa.1 fb.1

/-- HWK_Q1_COUNT: a sample; the fourth in a row of a new level is accepted into h. -/
def hwkQ1Count (a b : Bool) (s : Dev) : Dev := if s.hwk.osc then s.hwkSample a b else s

def execHwkQ1Count (a b : Bool) (s : State) : Host.Outcome State Fault Refusal := s.upd (hwkQ1Count a b)

/-- The index of the last curve point at or below `h`, among the first `n + 1`. -/
def Dev.curveBelow (s : Dev) (h : Int) : Nat → Option Nat
  | 0 => if s.curvePos 0 ≤ h then some 0 else none
  | n + 1 => if s.curvePos (n + 1) ≤ h then some (n + 1) else s.curveBelow h n

/-- L_up(h) and L_dn(h) of R186. -/
def Dev.limitsAt (s : Dev) (h : Int) : Int × Int :=
  match s.curveBelow h (s.npts - 1) with
  | none => (s.curveUp 0 * 8, s.curveDn 0 * 8)
  | some a =>
    if s.npts ≤ a + 1 then (s.curveUp a * 8, s.curveDn a * 8)
    else
      let f (ya yb : Int) : Int :=
        ya * 8 + idiv ((yb - ya) * 8 * (h - s.curvePos a)) (s.curvePos (a + 1) - s.curvePos a)
      (f (s.curveUp a) (s.curveUp (a + 1)), f (s.curveDn a) (s.curveDn (a + 1)))

/-- The limits in force: UNREF_SPD everywhere until a reference is taken (R184). -/
def Dev.speedLimits (s : Dev) : Int × Int :=
  if s.hwk.referenced then s.limitsAt s.hwk.h
  else ((s.fld Reg.hwkUnrefspd 23 0 : Nat), (s.fld Reg.hwkUnrefspd 23 0 : Nat))

/-- The curve checks of a speed update (R186). -/
def Dev.speedCausesNow (s : Dev) : Nat :=
  let g := s.hwk
  let (up, dn) := s.speedLimits
  maskOf [(6, decide (0 < g.s ∧ up < g.s)), (7, decide (g.s < 0 ∧ dn < -g.s))]

/-- INSP_LIMIT and RECALL_SPEED at an evaluation, with h and S as they stand (R178, R187). -/
def Dev.modeCauses (s : Dev) : Nat :=
  let g := s.hwk
  maskOf [
    (9, g.insp && (decide ((s.fld Reg.hwkInspspd 23 0 : Int) < g.s.natAbs) ||
      (g.referenced && (decide (0 < g.s ∧ s.sfld Reg.hwkInsphi 31 0 < g.h) ||
        decide (g.s < 0 ∧ g.h < s.sfld Reg.hwkInsplo 31 0))))),
    (10, g.recallOn && !g.insp && decide (s.fld Reg.hwkRecspd 23 0 < g.s.natAbs))]

/-- HWK_SPEED_UPDATE: S from the counts of the last SPDWIN ms, then the speed checks (R183, R186). -/
def hwkSpeedUpdate (s : Dev) : Dev :=
  let g := s.hwk
  if !g.osc then s
  else
    let nets := (g.net :: g.nets).take 100
    let n := (nets.take (10 * s.spdWin)).foldl (· + ·) 0
    let v := wrapS 32 (idiv (n * 1000) s.spdWin)
    let s := s.setHwk (fun g => { g with net := 0, nets := nets, s := v, zeroRow := if v = 0 then g.zeroRow + 1 else 0 })
    s.setHwk (fun g => { g with speedCauses := if g.armed then s.speedCausesNow else 0 })

def execHwkSpeedUpdate (s : State) : Host.Outcome State Fault Refusal := s.upd hwkSpeedUpdate

/-- HWK_SPEED_CAUSE_RELEASE: S has read 0 for 500 ms, 5,000 speed updates (R179). -/
def hwkSpeedCauseRelease (s : Dev) : Dev :=
  if 5000 ≤ s.hwk.zeroRow ∧ s.hwk.osc then
    s.setHwk (fun g => { g with held := g.held &&& g.cond, active := maskOff g.active (maskOff g.held g.cond) })
  else s

def execHwkSpeedCauseRelease (s : State) : Host.Outcome State Fault Refusal := s.upd hwkSpeedCauseRelease

/-- HWK_PARK_START: the permit has been withdrawn for 5 s, 500,000 evaluations (R189 trigger 4). -/
def hwkParkStart (s : Dev) : Dev :=
  if 500000 ≤ s.hwk.parkRow ∧ s.hwk.armed ∧ s.hwk.park.isNone ∧ s.hwk.osc then
    s.setHwk (fun g => { g with park := some g.h })
  else s

def execHwkParkStart (s : State) : Host.Outcome State Fault Refusal := s.upd hwkParkStart

/-- HWK_CLOCK_CHECK (R180). -/
def hwkClockCheck (n : Nat) (s : Dev) : Dev :=
  if !s.hwk.osc then s
  else if s.fld Reg.hwkWin 11 8 * 1000 < ((n : Int) - 100000).natAbs then
    ((s.setHwk (fun g => { g with clkBad := true, clkPasses := 0 })).chrInc 6 21).hwkEvent 8 9 s.dt [n, 100000]
  else
    s.setHwk (fun g => { g with clkPasses := g.clkPasses + 1, clkBad := g.clkBad && decide (g.clkPasses + 1 < 10) })

def execHwkClockCheck (n : Nat) (s : State) : Host.Outcome State Fault Refusal := s.upd (hwkClockCheck n)

/-! ## The evaluation of the logic half -/

def HwkLogic.anchor (g : HwkLogic) (d : Nat) : Option Int := if d = 0 then g.anchor0 else g.anchor1
def Dev.setAnchor (s : Dev) (d : Nat) (a : Option Int) : Dev :=
  s.setHwk (fun g => if d = 0 then { g with anchor0 := a } else { g with anchor1 := a })

/-- Deck of a lock's binding. -/
def Dev.lockDeck (s : Dev) (i : Nat) : Nat := b2n (tbit (s.hwkByte i) 6)

/-- The anchors of R188: a lock's valid readings set it; invalid ones change nothing (log entry 21). -/
def Dev.lockStep (s : Dev) (i : Nat) : Dev :=
  match s.hwkIn i with
  | some (level, true) =>
    let d := s.lockDeck i
    let was := kget false s.hwk.lockOpen i
    let s := s.setHwk (fun g => { g with lockOpen := kput false g.lockOpen i (!level) })
    if !level && !was && (s.hwk.anchor d).isNone && decide (s.hwk.s.natAbs ≤ s.zoneSpd) then
      s.setAnchor d (some s.hwk.h)
    else s
  | _ => s

/-- Some bound lock of deck `d` does not read closed. -/
def Dev.deckOpen (s : Dev) (d : Nat) : Bool :=
  (List.range 8).any (fun i => tbit (s.hwkByte i) 7 && s.lockDeck i == d && !s.hwkOn i)

def Dev.anchorClear (s : Dev) (d : Nat) : Dev := if s.deckOpen d then s else s.setAnchor d none

/-- The open-door window of deck `d` (R188). -/
def Dev.windowHolds (s : Dev) (d : Nat) : Bool :=
  s.hwkOn (8 + d) && decide (s.hwk.s.natAbs ≤ s.zoneSpd) &&
    (match s.hwk.anchor d with | some a => decide ((s.hwk.h - a).natAbs ≤ s.ucmDist) | none => true)

/-- The UCM triggers this evaluation finds (R189). -/
def Dev.ucmTriggers (s : Dev) : List (Nat × Int) :=
  let g := s.hwk
  ([0, 1].flatMap (fun d => match g.anchor d with
    | some a =>
      (if s.ucmDist < (g.h - a).natAbs then [(1, a)] else []) ++ (if s.zoneSpd < g.s.natAbs then [(3, a)] else [])
    | none => []))
  ++ (match g.park with
    | some p => if s.ucmDist < (g.h - p).natAbs then [(4, p)] else []
    | none => [])

/-- A final limit reads tripped; it is not evaluated from an invalid input (R181). -/
def Dev.limitTripped (s : Dev) (i : Nat) : Bool := s.hwkIn i == some (false, true)

/-- INSP or RECALL keeps its last valid reading (R181). -/
def Dev.modeInput (s : Dev) (i : Nat) (old : Bool) : Bool :=
  match s.hwkIn i with
  | some (level, true) => level
  | some (_, false) => old
  | none => false

/-- The causes of Table 8-1 at an evaluation of the armed logic half. -/
def Dev.logicCauses (s : Dev) : Nat :=
  let g := s.hwk
  maskOf [(1, g.clkBad),
    (4, [0, 1].any (fun d => s.deckOpen d && !s.windowHolds d)),
    (5, s.limitTripped 12 || s.limitTripped 13),
    (8, !s.ucmTriggers.isEmpty), (11, s.fieldLow)]
  ||| s.modeCauses ||| g.speedCauses ||| g.pulse

/-- Take causes `c`: latch, hold, permits (R178, R179, R190); nothing is granted before the latches that the Cocoon half
keeps have been adopted (R192). -/
def Dev.logicTake (s : Dev) (c : Nat) : Dev :=
  let lm := s.fld Reg.hwkLatch 15 0
  let s := s.setHwk (fun g => { g with
    cond := c, pulse := 0, triggers := [],
    latched := g.latched ||| (c &&& (latchAlways ||| (latchByMask &&& lm))),
    held := g.held ||| maskOff (c &&& latchByMask) lm })
  let g := s.hwk
  let active := c ||| g.held
  let blk := active ||| g.latched
  let door (d : Nat) : Bool :=
    g.adopted && s.hwkOn (8 + d) && (blk &&& doorBlock == 0) && decide (g.s.natAbs ≤ s.zoneSpd)
  let motion := g.adopted && blk == 0
  s.setHwk (fun g => { g with
    active := active, permits := ⟨motion, door 0, door 1⟩,
    parkRow := if motion then 0 else g.parkRow + 1, park := if motion then none else g.park,
    recent := if g.recent.head?.map (·.2) = some (g.h, g.s) then g.recent else (s.dt, g.h, g.s) :: g.recent })

/-- The lowest-numbered trigger. -/
def firstTrigger : List (Nat × Int) → Option (Nat × Int)
  | [] => none
  | t :: l => match firstTrigger l with
    | some u => if u.1 < t.1 then some u else some t
    | none => some t

/-- HWK_UCM, once, when UCM becomes latched (R189). -/
def Dev.ucmEvent (s : Dev) (ts : List (Nat × Int)) : Dev :=
  if tbit s.hwk.latched 8 then s
  else
    match firstTrigger ts with
    | some (t, a) => (s.chrInc 6 (15 + t)).hwkEvent 8 6 s.dt [t, a, s.hwk.h, s.hwk.s]
    | none => s

/-- HWK_EVALUATION. Before lock NOT_ARMED is the only cause evaluated (R195). -/
def hwkEvaluation (s : Dev) : Dev :=
  if !s.hwk.osc then s
  else if !s.hwk.armed then (s.logicTake 1).hwkCombine false s.dt
  else
    let s := (List.range 8).foldl (fun s i => s.lockStep i) s
    let s := (s.anchorClear 0).anchorClear 1
    let s := s.setHwk (fun g => { g with insp := s.modeInput 14 g.insp, recallOn := s.modeInput 15 g.recallOn })
    let s := s.ucmEvent (s.hwk.triggers ++ s.ucmTriggers)
    (s.logicTake s.logicCauses).hwkCombine false s.dt

def execHwkEvaluation (s : State) : Host.Outcome State Fault Refusal := s.upd hwkEvaluation

/-! ## Edges received over the link (R184, R185, R189, R192) -/

/-- A reference switch goes active. -/
def Dev.hwkReference (s : Dev) (hi : Bool) : Dev :=
  let g := s.hwk
  let v := s.sfld (if hi then Reg.hwkRefhi else Reg.hwkReflo) 31 0
  let s :=
    if g.referenced ∧ (s.fld Reg.hwkReftol 15 0 : Int) < (g.h - v).natAbs then
      ((s.setHwk (fun g => { g with pulse := g.pulse ||| 0x1000 })).chrInc 6 20).hwkEvent 6 8 s.dt
        [b2n hi, g.h, g.h - v]
    else s
  (s.setHwk (fun g => { g with h := v, referenced := true })).hwkEvent 2 7 s.dt [b2n hi, g.h, v]

/-- An edge of DZ`d`: the vane check and the zone-left trigger. -/
def Dev.hwkZoneEdge (s : Dev) (d : Nat) (level : Bool) : Dev :=
  let h := s.hwk.h
  let s :=
    if d = 0 then
      let m := s.fld Reg.hwkEnc 7 0
      let bad := decide (m ≠ 0) && (match s.hwk.lastDz0 with | some x => decide ((h - x).natAbs < m) | none => false)
      s.setHwk (fun g => { g with lastDz0 := some h, pulse := if bad then g.pulse ||| 0x4000 else g.pulse })
    else s
  match s.hwk.anchor d with
  | some a =>
    if level then s
    else s.setHwk (fun g => { g with triggers := g.triggers ++ [(2, a)], pulse := g.pulse ||| 0x100 })
  | none => s

/-- A rising edge of RESET at instant `te` (R192). -/
def Dev.hwkResetKey (s : Dev) (te : Nat) : Dev :=
  let g := s.hwk
  let lat := g.latched ||| g.other.latched
  let clr := if 10000 ≤ g.zeroRow ∧ !s.fieldLow then maskOff lat (g.cond ||| g.other.active) else 0
  let s := s.setHwk (fun g => { g with latched := maskOff g.latched clr,
                                       other := { g.other with latched := maskOff g.other.latched clr } })
  let s := s.sendDown (.unlatch clr)
  s.hwkEvent 4 10 te [clr, maskOff lat clr]

/-- An accepted edge of channel `n` reaches the logic half; it is taken only from valid inputs of an armed
rule set. -/
def Dev.hwkEdge (s : Dev) (n : Nat) (level : Bool) (te : Nat) : Dev :=
  if !s.hwk.armed || !s.hwk.osc || s.fieldLow || decide (s.fios ≤ n) || decide ((s.fioCfg n).dir ≠ .input) then s
  else
    let bound (i : Nat) : Bool := tbit (s.hwkByte i) 7 && s.hwkByte i % 64 == n
    let s := if bound 10 && !level && decide (s.hwk.s < 0) then s.hwkReference false else s
    let s := if bound 11 && !level && decide (0 < s.hwk.s) then s.hwkReference true else s
    let s := if bound 8 then s.hwkZoneEdge 0 level else s
    let s := if bound 9 then s.hwkZoneEdge 1 level else s
    if bound 16 && level then s.hwkResetKey te else s

/-! ## The Cocoon half -/

/-- The byte of the Cocoon half's copy of the rule set that binds input `i`. -/
def Dev.fieldByte (s : Dev) (i : Nat) : Nat := bitsOf (s.hwkF.rules.getD (i / 4) 0) (i % 4 * 8 + 7) (i % 4 * 8)

def Dev.fio (s : Dev) (n : Nat) : FioChan := kget .reset s.coc.field.chans n

/-- Level and validity of a bound input at the Cocoon half (R181). -/
def Dev.fieldIn (s : Dev) (i : Nat) : Option (Bool × Bool) :=
  let b := s.fieldByte i
  if !tbit b 7 then none
  else if s.coc.field.min.below then some (false, false)
  else if s.fios ≤ b % 64 ∨ (s.fio (b % 64)).cfg.dir ≠ .input then some (fixedLevel i, true)
  else some ((s.fio (b % 64)).level, (s.fio (b % 64)).valid)

def Dev.fieldOn (s : Dev) (i : Nat) : Bool := s.fieldIn i == some (true, true)
def Dev.tap (s : Dev) (i : Nat) : Tap := kget .reset s.coc.field.taps i

/-- The causes of Table 8-1 at an evaluation of the armed Cocoon half. -/
def Dev.fieldCauses (s : Dev) : Nat :=
  let f := s.hwkF
  maskOf [(2, f.link),
    (3, (List.range 8).any (fun i => tbit (s.fieldByte 17) i && !(s.tap i).energised)),
    (4, (List.range 8).any (fun i => tbit (s.fieldByte i) 7 && !s.fieldOn i &&
      !s.fieldOn (8 + b2n (tbit (s.fieldByte i) 6)))),
    (5, s.fieldIn 12 == some (false, true) || s.fieldIn 13 == some (false, true)),
    (11, s.coc.field.min.below),
    (13, decide (2 ≤ f.motionEn.wrong ∨ 2 ≤ f.doorEn.wrong))]

/-- Both halves grant, as the Cocoon half knows it (R11, R190). -/
def HwkField.grants (f : HwkField) : Bool × Bool :=
  (f.permits.motion && f.logic.permits.motion,
   (f.permits.door0 && f.logic.permits.door0) || (f.permits.door1 && f.logic.permits.door1))

/-- Hold an enable output low that is no longer granted (R191). -/
def EnableOut.drop (e : EnableOut) (grant : Bool) : EnableOut :=
  if grant then e else { e with gated := false, level := false }

def Dev.dropEnables (s : Dev) : Dev :=
  let (m, d) := s.hwkF.grants
  let f := s.hwkF
  let s := if f.motionEn.gated && !m then s.emit (.pin .motionEn false) else s
  let s := if f.doorEn.gated && !d then s.emit (.pin .doorEn false) else s
  s.setHwkF (fun f => { f with motionEn := f.motionEn.drop m, doorEn := f.doorEn.drop d })

/-- LINK stands at the Cocoon half: it grants nothing from now on, and its outputs are held low (R191). -/
def Dev.linkWithdraws (s : Dev) : Dev :=
  let s := if s.hwkF.link && s.hwkF.armed then
      s.setHwkF (fun h => { h with permits := .none, active := h.active ||| 4, evalAt := s.time })
    else s
  s.dropEnables

/-- A reset of the logic die: NOT_ARMED is active at the Cocoon half too, and both enables are static (R177). -/
def Dev.fieldUnarm (s : Dev) : Dev :=
  (s.setHwkF (fun h => { h with armed := false, active := 1, permits := .none, logic := .reset, evalAt := s.time, toggleAt := none })).dropEnables

/-- HWK_COCOON_EVALUATION. -/
def hwkCocoonEvaluation (s : Dev) : Dev :=
  if !s.hwkF.osc || !s.coc.field.running then s
  else
    let c := if s.hwkF.armed then s.fieldCauses else 1
    let old := s.hwkF
    let latched := old.latched ||| (c &&& 0x2020)
    let blk := c ||| latched
    let door (d : Nat) : Bool := s.hwkF.armed && s.fieldOn (8 + d) && (blk &&& doorBlock == 0)
    let p : Permits := ⟨blk == 0, door 0, door 1⟩
    let changed := decide (c ≠ old.active ∨ latched ≠ old.latched ∨ p ≠ old.permits)
    let s := s.setHwkF (fun f => { f with active := c, latched := latched, permits := p,
                                          evalAt := if changed then s.time else f.evalAt })
    s.dropEnables

def execHwkCocoonEvaluation (s : State) : Host.Outcome State Fault Refusal := s.upd hwkCocoonEvaluation

/-- The level of an enable output after a timebase edge. -/
def EnableOut.edge (e : EnableOut) (timebase grant : Bool) : EnableOut :=
  let g := if timebase then grant else e.gated
  { e with gated := g, level := g && timebase }

/-- ENABLE_TIMEBASE_EDGE: a grant is gated on at the start of a period (R191). -/
def enableTimebaseEdge (s : Dev) : Dev :=
  if !s.hwkF.osc || !s.coc.field.running then s
  else
    let f := s.hwkF
    let tb := !f.timebase
    let (m, d) := f.grants
    let me := f.motionEn.edge tb m
    let de := f.doorEn.edge tb d
    let s := s.setHwkF (fun f => { f with
      timebase := tb, motionEn := me, doorEn := de,
      toggleAt := if me.gated && !f.motionEn.gated then some s.time else f.toggleAt })
    let s := if me.level != f.motionEn.level then s.emit (.pin .motionEn me.level) else s
    if de.level != f.doorEn.level then s.emit (.pin .doorEn de.level) else s

def execEnableTimebaseEdge (s : State) : Host.Outcome State Fault Refusal := s.upd enableTimebaseEdge

def EnableOut.read (e : EnableOut) (v : Bool) : EnableOut := { e with wrong := if v == e.level then 0 else e.wrong + 1 }

/-- ENABLE_READBACK. -/
def enableReadback (m d : Bool) (s : Dev) : Dev :=
  if !s.hwkF.osc || !s.coc.field.running then s
  else s.setHwkF (fun f => { f with motionEn := f.motionEn.read m, doorEn := f.doorEn.read d })

def execEnableReadback (m d : Bool) (s : State) : Host.Outcome State Fault Refusal := s.upd (enableReadback m d)

/-- HAWKMOTH_OSCILLATOR_STOP: without its clock the Cocoon half's outputs stay where they are; without the
logic half's, its frames carry no valid permit (R191, Table 8-3). -/
def hawkmothOscillatorStop (cocoonHalf : Bool) (s : Dev) : Dev :=
  if cocoonHalf then
    s.setHwkF (fun f => { f with osc := false, motionEn := { f.motionEn with gated := false },
                                 doorEn := { f.doorEn with gated := false } })
  else s.setHwk (fun g => { g with osc := false })

def execHawkmothOscillatorStop (cocoonHalf : Bool) (s : State) : Host.Outcome State Fault Refusal :=
  s.upd (hawkmothOscillatorStop cocoonHalf)

/-! ## Status registers (Table 8-7) -/

/-- HWK_STAT: ARMED shows that both halves are, as the last frame told; CLOCK_OK reads 0 until ten checks have
passed since reset (log entry 19); INPUTS_VALID needs a report of the field supply. -/
def Dev.hwkStatWord (s : Dev) : Word :=
  let g := s.hwk
  wordN (b2n g.locked + 2 * b2n (g.armed && g.fieldArmed) + 4 * b2n g.lockErr + 8 * b2n g.referenced + 16 * b2n (!g.clkBad)
    + 32 * b2n (g.seen && !tbit g.other.active 2 && s.coc.link.up) + 64 * b2n g.both.motion
    + 128 * b2n g.both.door0 + 256 * b2n g.both.door1 + 512 * b2n g.insp + 1024 * b2n (g.recallOn && !g.insp)
    + 2048 * b2n (!s.fieldLow && s.coc.link.up) + 4096 * b2n (s.bit Reg.hwkStat 12) + 65536 * g.dropped)

def Dev.hwkCauseWord (s : Dev) : Word :=
  wordN ((s.hwk.active ||| s.hwk.other.active) + 65536 * (s.hwk.latched ||| s.hwk.other.latched))

/-! ## Locking the rule set (R194, R197) -/

/-- A first write of a rule-set register takes effect; later ones, and any after the lock, do not. -/
def Dev.hwkRuleWrite (s : Dev) (off : Nat) (v : Word) : Dev :=
  match regDef? off with
  | some r =>
    if s.hwk.locked ∨ kget false s.hwk.written off then s
    else
      let w := (v &&& wordN r.wl) ||| (if off = Reg.hwkLatch then wordN latchAlways else 0)
      (s.setReg off w).setHwk (fun g => { g with written := kput false g.written off true })
  | none => s

/-- Why the rule set cannot be locked (Table 8-8). -/
def Dev.lockReason (s : Dev) (crc : Word) : Nat :=
  if crc ≠ s.reg Reg.hwkCrc then 1
  else if s.npts < 2 ∨ 32 < s.npts then 2
  else if !(List.range (s.npts - 1)).all (fun k => decide (s.curvePos k < s.curvePos (k + 1))) then 3
  else if s.fld Reg.hwkWin 3 0 < 1 ∨ 10 < s.fld Reg.hwkWin 3 0 ∨ s.fld Reg.hwkWin 11 8 < 1 ∨
      10 < s.fld Reg.hwkWin 11 8 then 4
  else if s.sfld Reg.hwkRefhi 31 0 ≤ s.sfld Reg.hwkReflo 31 0 ∨ s.sfld Reg.hwkInsphi 31 0 ≤ s.sfld Reg.hwkInsplo 31 0 then 5
  else 0

/-- The outcome of a lock; its command commits at the edge of the register write (R197). -/
def Dev.lockDone (s : Dev) (reason : Nat) : Dev :=
  let g := s.hwk
  let s := s.setHwk (fun g => { g with confirming := false, lockDesc := none, reason := reason,
                                       lockErr := reason != 0, armed := reason == 0 })
  let s :=
    if reason = 0 then s.hwkEvent 2 1 s.dt [g.crc.toNat, s.npts]
    else s.hwkEvent 8 2 s.dt [reason, g.crc.toNat, (s.reg Reg.hwkCrc).toNat]
  s.completeOpt g.lockDesc .done g.lockAt [g.crc, s.hwkStatWord]

/-- Send the rule set, and the Cocoon half's latches known here, to the Cocoon half: 41 pairs of words and the end. -/
def Dev.sendRules (s : Dev) : Dev := (List.range 42).foldl (fun s i => s.feedKey (67 + i)) s

/-- A write of LOCK = 1, by a register write or by a rules load. -/
def Dev.lockRules (s : Dev) (d : Option Desc) : Dev :=
  let crc := rulesCrc s.hwkImage
  let s := (s.setFld Reg.hwkCtrl 0 0 1).setHwk (fun g => { g with locked := true, crc := crc, lockDesc := d, lockAt := s.dt })
  let r := s.lockReason crc
  if r = 0 then (s.setHwk (fun g => { g with confirming := true })).sendRules else s.lockDone r

/-- HWK_LOCK: a write of HWK_CTRL; only LOCK = 1 takes effect, once. -/
def hwkLock (v : Word) (s : Dev) : Dev :=
  if bitOf v 0 && !s.hwk.locked then s.lockRules none else s

def execHwkLock (v : Word) (s : State) : Host.Outcome State Fault Refusal := s.upd (whenBar (hwkLock v))

/-- Two words of the rule set reach the Cocoon half; one that is armed keeps its set. -/
def Dev.fieldRules (s : Dev) (i : Nat) (a b : Word) : Dev :=
  if s.hwkF.armed then s
  else
    let words := (List.range 82).map (fun j => if j = 2 * i then a else if j = 2 * i + 1 then b else s.hwkF.rules.getD j 0)
    s.setHwkF (fun f => { f with rules := words })

/-- The Cocoon half has the rule set, compares its CRC and answers (R194); the latches it has lost come
back with it (16 R367). -/
def Dev.fieldRuleEnd (s : Dev) (crc : Word) (latches : Nat) : Dev :=
  let agree := rulesCrc s.hwkF.rules == crc
  let s := s.setHwkF (fun f => { f with armed := agree, latched := f.latched ||| latches })
  s.sendUp (.rulesAck agree)

/-- The Cocoon half's answer reaches the logic half. -/
def Dev.rulesAnswer (s : Dev) (agree : Bool) : Dev :=
  let s := s.setHwk (fun g => { g with fieldArmed := agree })
  if s.hwk.confirming then s.lockDone (if agree then 0 else 6)
  else if agree ∨ !s.hwk.locked then s
  else
    (s.setHwk (fun g => { g with lockErr := true, reason := 6 })).hwkEvent 8 2 s.dt
      [6, s.hwk.crc.toNat, (s.reg Reg.hwkCrc).toNat]

/-! ## Commands -/

def imgWord (img : List Byte) (off : Nat) : Word := BitVec.ofNat 32 (leAt img off 4)

/-- The rule-set registers of an image in order, HWK_CTRL aside. -/
def ruleOffsets : List Nat := (List.range 19).map (fun i => 4 + 4 * i) ++ (List.range 64).map (fun i => 0x100 + 4 * i)

/-- HWK_RULES_LOAD. -/
def hwkRulesLoad (d : Desc) (img : HostBytes) (s : Dev) : Dev :=
  if d.object ≠ 0 ∨ !s.addrOk d (d.w64 3) 512 then s.fail d .badDescriptor
  else if s.hwk.locked then s.fail d .refusedInterlock
  else
    let b := s.fetch d (d.w64 3) img
    let s := ruleOffsets.foldl (fun s o => s.hwkRuleWrite (0x6000 + o) (imgWord b o)) s
    if bitOf (imgWord b 0) 0 then s.lockRules (some d)
    else s.complete d .done s.dt [0, s.hwkStatWord]

def execHwkRulesLoad (d : Desc) (img : HostBytes) (s : State) : Host.Outcome State Fault Refusal :=
  s.updIn d img (hwkRulesLoad d img)

/-- HWK_STATUS. -/
def hwkStatus (d : Desc) (s : Dev) : Dev :=
  if d.object ≠ 0 then s.fail d .badDescriptor
  else s.complete d .done s.dt [s.hwkStatWord, s.hwkCauseWord, wordI s.hwk.h, wordI s.hwk.s]

def execHwkStatus (d : Desc) (s : State) : Host.Outcome State Fault Refusal := s.cmd d (hwkStatus d)

/-- HWK_RULES_READ: the registers of 0x6000-0x61FF as they read back, the status registers' bytes 0. -/
def hwkRulesRead (d : Desc) (s : Dev) : Dev :=
  if d.object ≠ 0 ∨ !s.addrOk d (d.w64 3) 512 then s.fail d .badDescriptor
  else
    let img := (List.range 128).flatMap (fun i =>
      leBytes 4 (if 0x20 ≤ i ∧ i < 0x40 then 0 else (s.reg (0x6000 + 4 * i)).toNat))
    (s.hostWrite d (d.w64 3) img).complete d .done s.dt [rulesCrc s.hwkImage, wordN s.hwk.reason]

def execHwkRulesRead (d : Desc) (s : State) : Host.Outcome State Fault Refusal := s.cmd d (hwkRulesRead d)

end Sys2Proof.Machine
end

