-- ==== Sys2Proof/Machine/Cells.lean ====
section
/-! DEFINITION. The half-bridges on the Cocoon die: gate drivers, current cells and their faults
(16 R369-R373, 07 R166, 06 R145). Instants are the model's own time, ns. -/
namespace Sys2Proof.Machine

def Dev.setField (s : Dev) (f : CocField → CocField) : Dev :=
  { s with coc := { s.coc with field := f s.coc.field } }
def Dev.cell (s : Dev) (b : Nat) : Cell := kget .reset s.coc.field.cells b
def Dev.modCell (s : Dev) (b : Nat) (f : Cell → Cell) : Dev :=
  s.setField (fun c => { c with cells := kmod .reset c.cells b f })

/-- The bridges that share the axis of bridge `b`; a general bridge stands alone. -/
def Dev.partners (s : Dev) (b : Nat) : List Nat :=
  if s.bridgeGeneral b then [b] else [b / 3 * 3, b / 3 * 3 + 1, b / 3 * 3 + 2]

/-- The settings of a bridge as Cocoon holds them (01 R8). -/
def Dev.cellCfg (s : Dev) (b : Nat) : Word := kget (regReset (Reg.cocBrcfg b)) s.coc.field.brcfg b
def Dev.cellOc (s : Dev) (b : Nat) : Word := kget (regReset (Reg.cocBroc b)) s.coc.field.broc b

/-- Codes per mA times 3,000,000,000 (R370). -/
def Dev.codeK (s : Dev) (b : Nat) : Int :=
  let gain : Nat := match bitsOf (s.cellCfg b) 9 8 with | 1 => 20 | 2 => 40 | _ => 10
  gain * bitsOf (s.cellCfg b) 31 16 * 1024

/-- The window codes of a set-point and band (R370). -/
def Dev.upperCode (s : Dev) (b : Nat) (set_ : Int) (band : Nat) : Int :=
  clampI 0 1023 (512 - idiv (-((set_ + (band / 2 : Nat)) * s.codeK b)) 3000000000)
def Dev.lowerCode (s : Dev) (b : Nat) (set_ : Int) (band : Nat) : Int :=
  clampI 0 1023 (512 + idiv ((set_ - (band / 2 : Nat)) * s.codeK b) 3000000000)

/-- The current lies above, or below, the level of a code. -/
def Dev.aboveCode (s : Dev) (b : Nat) (ma code : Int) : Bool := decide ((code - 512) * 3000000000 < ma * s.codeK b)
def Dev.belowCode (s : Dev) (b : Nat) (ma code : Int) : Bool := decide (ma * s.codeK b < (code - 512) * 3000000000)

/-- The low side has been on for 100 ns, so the phase is measured on its own shunt (R371). -/
def Dev.ownShunt (s : Dev) (b : Nat) : Bool :=
  (s.cell b).side == .low && decide ((s.cell b).since + 100 ≤ s.time)

/-- The phase current is measured now (R371). -/
def Dev.measured (s : Dev) (b : Nat) : Bool :=
  if s.bridgeGeneral b then (s.cell b).side != .none
  else s.ownShunt b ||
    ((s.cell b).side == .high && ((s.partners b).filter (· != b)).all s.ownShunt)

/-- The phase current that the cell's comparators see, from its own amplifier's reading: through its low side, or the
inverted sum of the partners' (R371). -/
def Dev.phaseNow (s : Dev) (b : Nat) (ma : Int) : Int :=
  if s.bridgeGeneral b || s.ownShunt b then ma
  else -(((s.partners b).filter (· != b)).foldl (fun a i => a + (s.cell i).amp) 0)

/-- The side a condition forces, whatever the cell decides (R362, R366, R373, R376, R377). -/
def Dev.forcedSide (s : Dev) (b : Nat) : Option Side :=
  let f := s.coc.field
  let c := s.cell b
  if !f.running || !f.calOk then some .none
  else if (s.partners b).any (fun i => (s.cell i).oc) then some .none
  else if f.vgLow.below || f.vbLow.below then some .none
  else if f.vbHigh.below then some .low
  else if c.vsup && (s.bridgeGeneral b || c.held) then some (if c.vhigh then .low else .none)
  else if c.set_.mode = 0 then some .none
  else if c.set_.mode = 3 || c.held || f.min.below || f.sag then
    some (if c.set_.brake && !s.bridgeGeneral b then .low else .none)
  else none

/-- Take the gates to a forced side at once; a change-over waits its dead time. -/
def Cell.force (c : Cell) (side : Side) (t : Nat) : Cell :=
  if c.side = side then { c with next := .none, want := side, blind := none }
  else { c with side := .none, next := side, want := side, since := if c.side = .none then c.since else t, blind := none }

def Dev.settle (s : Dev) (b : Nat) : Dev :=
  match s.forcedSide b with
  | some x => s.modCell b (fun c => c.force x s.time)
  | none => s

def Dev.settleAll (s : Dev) : Dev := (List.range 16).foldl (fun s b => s.settle b) s

/-- The faults of a disabled axis or bridge clear once their condition has gone (Table 16-1). -/
def Dev.clearFaults (s : Dev) (b : Nat) : Dev :=
  let f := s.coc.field
  if (s.cell b).set_.enabled then s
  else
    let stays := f.vbLow.below || f.vbHigh.below || f.vgLow.below
    s.modCell b (fun c => { c with oc := false, vsup := c.vsup && stays, vhigh := c.vhigh && stays })

/-- An axis bridge that drives is stopped until a frame gives it another mode (Table 16-1, R366). -/
def Dev.holdCells (s : Dev) : Dev :=
  (List.range 16).foldl (fun s b => if s.bridgeGeneral b then s else
    s.modCell b (fun c => { c with held := c.held || c.set_.mode == 1 || c.set_.mode == 2 })) s

/-- The present count of Cocoon's tick, 20 ns. -/
def Dev.tick (s : Dev) : Nat := s.time / 20

/-- Two decisions beyond OCTRIP turn off the gates of the axis (R373). -/
def Dev.overcurrent (s : Dev) (b : Nat) (ma : Int) : Dev :=
  let above := s.measured b && decide (bitsOf (s.cellOc b) 15 0 < ma.natAbs)
  let row := if above then (s.cell b).ocRow + 1 else 0
  let s := s.modCell b (fun c => { c with ocRow := row })
  if 2 ≤ row ∧ !(s.cell b).oc then
    ((s.modCell b (fun c => { c with oc := true, ocRow := 0 })).sendUp (.bridge b 1 ma s.tick)).settleAll
  else s

/-- The side a current cell in mode 1 decides on (07 R166); one that has decided nothing yet starts on its
low side (log entry 22). -/
def Dev.cellWant (s : Dev) (b : Nat) (ma : Int) : Side :=
  let c := s.cell b
  if !s.measured b then (if c.want = .none then .low else c.want)
  else if s.aboveCode b ma (s.upperCode b c.set_.set_ c.set_.band) then .low
  else if s.belowCode b ma (s.lowerCode b c.set_.set_ c.set_.band) then .high
  else c.want

/-- The side of a bridge in voltage mode: high for DUTY / 1,024 of the frame unless the current has passed
ILIM in it (06 R145). -/
def Dev.dutyWant (s : Dev) (b : Nat) (ma : Int) : Side × Option Nat :=
  let c := s.cell b
  let start := s.lpe.phaseAt
  let high := decide ((s.dt - start) * 1024 < c.set_.set_.toNat * 50000)
  let cut := if s.measured b && high && s.aboveCode b ma (s.upperCode b c.set_.band 0) then some start else c.cut
  (if high && cut != some start then .high else .low, cut)

/-- Move the gates toward the side wanted: a side stays on for 200 ns, and a change-over waits DEADT
(R369). -/
def Cell.drive (c : Cell) (want : Side) (deadt t : Nat) : Cell :=
  let c := { c with want := want }
  if c.side = .none then
    let next := if c.boot && want = .high then Side.none else want
    if c.since + deadt ≤ t then { c with side := next, next := .none, since := t } else { c with next := next }
  else if c.side = want then c
  else if c.since + 200 ≤ t then { c with side := .none, next := want, since := t }
  else c

/-- The converter samples each microsecond of the slot; a sample is kept while the phase is measured (R372). -/
def Dev.keepSample (s : Dev) (b : Nat) (ma : Int) : Dev :=
  if s.measured b then s.modCell b (fun c => { c with convSum := c.convSum + ma, convN := c.convN + 1 }) else s

/-- CURRENT_CELL_DECISION; the sample at a slot's start is taken there. -/
def currentCellDecision (b : Nat) (own : Int) (s : Dev) : Dev :=
  if !s.hasBridge b || !s.coc.field.running then s
  else
    let s := s.modCell b (fun c => { c with amp := own })
    let ma := s.phaseNow b own
    let t := s.dt - s.lpe.phaseAt
    let s := if t % 1000 = 0 ∧ t % 10000 ≠ 0 then s.keepSample b ma else s
    let s := s.overcurrent b ma
    let deadt := 20 * clampN 1 20 (bitsOf (s.cellCfg b) 4 0)
    let s := match s.forcedSide b with
      | some x => s.modCell b (fun c => (c.force x s.time).drive x deadt s.time)
      | none =>
        if (s.cell b).set_.mode = 2 then
          let (w, cut) := s.dutyWant b ma
          s.modCell b (fun c => ({ c with cut := cut }).drive w deadt s.time)
        else s.modCell b (fun c => c.drive (s.cellWant b ma) deadt s.time)
    let blind := (s.cell b).side == .high && !s.measured b
    s.modCell b (fun c => { c with blind := if blind then some (c.blind.getD s.time) else none })

def execCurrentCellDecision (b : Fin 16) (ma : Int) (s : State) : Host.Outcome State Fault Refusal :=
  s.upd (currentCellDecision b ma)

/-- BLIND_PHASE_TIMEOUT: 2 µs blind switch the phase to its low side (R371). -/
def blindPhaseTimeout (b : Nat) (s : Dev) : Dev :=
  match (s.cell b).blind with
  | some t =>
    if t + 2000 ≤ s.time then
      s.modCell b (fun c => { c with side := .none, next := .low, want := .low, since := s.time, blind := none })
    else s
  | none => s

def execBlindPhaseTimeout (b : Fin 16) (s : State) : Host.Outcome State Fault Refusal := s.upd (blindPhaseTimeout b)

/-! ## Bridge supplies -/

/-- One measurement against a threshold: 5 consecutive ones declare (R365). -/
def Watch.step (w : Watch) (lo hi : Bool) : Watch :=
  if w.below then
    if hi then (if 5 ≤ w.highRow + 1 then ⟨false, 0, 0⟩ else ⟨true, 0, w.highRow + 1⟩) else ⟨true, 0, 0⟩
  else
    if lo then (if 5 ≤ w.lowRow + 1 then ⟨true, 0, 0⟩ else ⟨false, w.lowRow + 1, 0⟩) else ⟨false, 0, 0⟩

/-- A bridge supply fault is declared: every bridge reports it. -/
def Dev.supplyFault (s : Dev) (cause value : Nat) (high : Bool) : Dev :=
  let s := (List.range 16).foldl (fun s b =>
    if s.hasBridge b then s.modCell b (fun c => { c with vsup := true, vhigh := high }) else s) s.holdCells
  s.sendUp (.bridge 0xFF cause value s.tick)

/-- The bootstrap of bridge `b`: 10 µs of high-side demand held off below 8.0 V (Table 16-1). -/
def Dev.bootStep (s : Dev) (b v : Nat) : Dev :=
  let c := s.cell b
  let row := if v < 800 ∧ c.want = .high then c.bootRow + 1 else 0
  if c.boot then
    if 880 ≤ v ∧ !c.set_.enabled then s.modCell b (fun c => { c with boot := false, bootRow := 0 }) else s
  else if 5 ≤ row then
    (s.modCell b (fun c => { c with
      boot := true, bootRow := 0, side := if c.side = .high then .none else c.side, next := .none,
      since := if c.side = .high then s.time else c.since })).sendUp (.bridge b 2 v s.tick)
  else s.modCell b (fun c => { c with bootRow := row })

/-- BRIDGE_SUPPLY_MEASUREMENT. -/
def bridgeSupplyMeasurement (vb vg : Nat) (boot : List Nat) (s : Dev) : Dev :=
  if !s.coc.field.running then s
  else
    let f := s.coc.field
    let s := s.setField (fun f => { f with
      vbridge := vb, vgate := vg,
      vbLow := f.vbLow.step (vb < 1600) (1800 ≤ vb ∧ vb ≤ 5600),
      vbHigh := f.vbHigh.step (5800 < vb) (1800 ≤ vb ∧ vb ≤ 5600),
      vgLow := f.vgLow.step (vg < 1050) (1080 ≤ vg) })
    let g := s.coc.field
    let s := if (g.vbLow.below && !f.vbLow.below) || (g.vbHigh.below && !f.vbHigh.below) then s.supplyFault 3 vb g.vbHigh.below else s
    let s := if g.vgLow.below && !f.vgLow.below then s.supplyFault 4 vg false else s
    let s := (List.range 16).foldl (fun s b =>
      (if s.hasBridge b then s.bootStep b (boot.getD b 0) else s).clearFaults b) s
    s.settleAll

def execBridgeSupplyMeasurement (vbridge vgate : Nat) (boot : List Nat) (s : State) :
    Host.Outcome State Fault Refusal := s.upd (bridgeSupplyMeasurement vbridge vgate boot)

/-- Bridge status byte, as COC_BRSTATn [7:0]. -/
def Dev.brStat (s : Dev) (b : Nat) : Nat :=
  let c := s.cell b
  b2n (c.set_.mode != 0 && c.side != .none) + 2 * b2n c.oc + 4 * b2n c.boot + 8 * b2n c.vsup

end Sys2Proof.Machine
end

