-- ==== Sys2Proof/Machine/LinkFrame.lean ====
section
/-! DEFINITION. The frames of the isolation link as their 478 bytes (16 R374, R375, Tables 16-2, 16-3). What a frame of
the model says beyond the tables goes into reserved bytes, at places left open (log entry 23). -/
namespace Sys2Proof.Machine

/-- The first `n` bytes of a list, filled up with zeros. -/
def padTo (n : Nat) (l : List Byte) : List Byte := (l ++ List.replicate n 0).take n

/-- Two's complement bytes, little-endian. -/
def leInt (n : Nat) (x : Int) : List Byte := leBytes n (wrapU (8 * n) x)

/-- A mask of 48 channels, bit n = FIOn. -/
def chanMask (p : Nat → Bool) : List Byte := leBytes 6 ((List.range 48).foldl (fun a n => a + b2n (p n) * 2 ^ n) 0)

/-- A record: TYPE, channel or bridge, RSEQ, TC, DATA (R375). -/
def recordBytes (type chan rseq tc : Nat) (data : List Byte) : List Byte :=
  leBytes 1 type ++ leBytes 1 chan ++ leBytes 2 rseq ++ leBytes 4 tc ++ padTo 8 data

def ChCfg.bytes (c : ChCfg) : List Byte :=
  leBytes 1 (match c.dir with | .off => 0 | .output => 2 | _ => 1) ++ leBytes 1 (b2n c.safe + 2 * b2n c.edgeEv)
    ++ leBytes 2 c.per ++ leBytes 2 c.deb

/-- A downstream record; the layout of DATA is the model's (log entry 23). -/
def DownRec.bytes (r : Nat) : DownRec → List Byte
  | .void => recordBytes 0x83 0xFF r 0 []
  | .config n c => recordBytes 0x81 n r 0 c.bytes
  | .clear m => recordBytes 0x82 0 r 0 (leBytes 6 m)
  | .release a b => recordBytes 0x83 0 r 0 (leBytes 1 (b2n a + 2 * b2n b))
  | .rules i a b => recordBytes 0x85 (3 + i) r 0 (leBytes 4 a.toNat ++ leBytes 4 b.toNat)
  | .ruleEnd c l => recordBytes 0x85 44 r 0 (leBytes 4 c.toNat ++ leBytes 2 l)
  | .bridgeCfg b c o => recordBytes 0x84 b r 0 (leBytes 4 c.toNat ++ leBytes 4 o.toNat)
  | .setting i v => recordBytes 0x85 i r 0 (leBytes 4 v.toNat)
  | .unlatch m => recordBytes 0x83 1 r 0 (leBytes 2 m)

def AckRes.code : AckRes → Nat
  | .done => 0 | .refused => 1 | .void => 2

/-- An upstream record. -/
def UpRec.bytes (r : Nat) : UpRec → List Byte
  | .edge n l te acc => recordBytes 1 n r te (leBytes 1 (b2n l) ++ leBytes 4 acc)
  | .fault n k c v t => recordBytes 2 n r t (leBytes 1 k ++ leBytes 1 c ++ leInt 4 v)
  | .tap i e ac t => recordBytes 3 i r t (leBytes 1 (b2n e + 2 * b2n ac))
  | .bridge b c v t => recordBytes 4 b r t (leBytes 1 c ++ leInt 4 v)
  | .supply st v t => recordBytes 6 0xFF r t (leBytes 1 st ++ leBytes 2 v)
  | .watchdog q w t => recordBytes 6 0xFE r t (leBytes 2 q ++ leBytes 4 w)
  | .calib i o t => recordBytes 6 0xFD r t (leBytes 1 i ++ leBytes 1 o)
  | .rulesAck a => recordBytes 5 0xFF r 0 (leBytes 1 (b2n a))
  | .ack q x d t => recordBytes 5 x.code r t (leBytes 2 q ++ leBytes 6 d)
  | .outAck q x h t => recordBytes 5 (4 + x.code) r t (leBytes 2 q ++ leBytes 6 h)

/-- Sixteen places for records. -/
def recordArea (l : List (List Byte)) : List Byte := padTo 256 l.flatten

def BridgeSet.bytes (x : BridgeSet) : List Byte :=
  leInt 2 x.set_ ++ leBytes 2 x.band ++ leBytes 1 (x.mode + 4 * b2n x.strong + 8 * b2n x.brake)

def Permits.mask (p : Permits) : Nat := b2n p.motion + 2 * b2n p.door0 + 4 * b2n p.door1
def HwkReport.causes (r : HwkReport) : List Byte := leBytes 2 r.active ++ leBytes 2 r.latched

/-- What a frame says in reserved bytes, as numbers. -/
def DownFrame.extra (f : DownFrame) : List Nat :=
  [b2n f.linkUp, b2n f.hwkValid, b2n f.adopted] ++ f.bridges.map (fun x => b2n x.enabled)
    ++ f.outs.flatMap (fun o => [o.no, o.mask, o.after, b2n o.void])
def UpFrame.extra (f : UpFrame) : List Nat :=
  [b2n f.linkUp, f.drops, b2n f.hwkArmed, f.hwkAt, f.hwk.permits.mask, f.latches] ++ f.toggle.toList
    ++ f.chans.map (fun c => b2n c.ilim + 2 * b2n c.cmd + 4 * b2n c.rbfail + 8 * b2n c.overload + 16 * b2n c.backfeed
      + 32 * b2n c.turning) ++ [b2n f.vgLow, b2n f.vbOut]

/-- Reserved bytes from `i` on. -/
def reservedBytes (extra : List Nat) (i n : Nat) : List Byte := (List.range n).map (fun k => Config.linkByte extra (i + k))

/-- Bytes 0-475 of a downstream frame (Table 16-2). -/
def DownFrame.body (f : DownFrame) : List Byte :=
  leBytes 2 f.fseq ++ leBytes 1 (f.slot + 128 * b2n f.train) ++ reservedBytes f.extra 3 1 ++ leBytes 8 f.dt0
    ++ leBytes 1 (if f.hwkValid then f.hwk.permits.mask else 0) ++ reservedBytes f.extra 13 1 ++ f.hwk.causes
    ++ leBytes 6 f.out ++ padTo 80 (f.bridges.flatMap (·.bytes)) ++ leBytes 1 f.records.length
    ++ reservedBytes f.extra 105 7 ++ recordArea (f.records.map (fun x => x.2.bytes x.1)) ++ List.replicate 108 0

/-- Bytes 0-475 of an upstream frame (Table 16-3). -/
def UpFrame.body (f : UpFrame) : List Byte :=
  let chan (p : ChState → Bool) : List Byte := chanMask (fun n => p (f.chans.getD n .reset))
  leBytes 2 f.fseq
    ++ leBytes 1 (b2n f.train + 2 * b2n f.min + 4 * b2n f.low + 8 * b2n f.wdTrip + 16 * b2n f.sag + 32 * b2n f.calOk)
    ++ leBytes 1 f.taps ++ leBytes 4 f.tc0 ++ chan (·.level) ++ chan (·.valid) ++ chan (·.faulty) ++ f.hwk.causes
    ++ padTo 32 (f.iph.flatMap (leInt 2)) ++ padTo 16 (f.brst.flatMap (leBytes 1))
    ++ leBytes 2 f.vfield ++ leBytes 2 f.vbridge ++ leBytes 2 f.vgate ++ leInt 1 f.temp ++ leBytes 1 f.records.length
    ++ reservedBytes f.extra 86 26 ++ recordArea (f.records.map (fun x => x.2.bytes x.1)) ++ List.replicate 108 0

/-- A frame with its CRC, that of 05 R107 over bytes 0-475 (R374). -/
def DownFrame.bytes (f : DownFrame) : List Byte := withCrc f.body
def UpFrame.bytes (f : UpFrame) : List Byte := withCrc f.body

end Sys2Proof.Machine
end

