-- ==== Sys2Proof/Machine/Cocoon.lean ====
section
/-! DEFINITION. The Cocoon field die: field channels, supplies, taps, the isolation link and the COC
commands (16). -/
namespace Sys2Proof.Machine

def Dev.modFio (s : Dev) (n : Nat) (f : FioChan → FioChan) : Dev :=
  s.setField (fun c => { c with chans := kmod .reset c.chans n f })
def FioChan.faulty (c : FioChan) : Bool := c.backfeed || c.overload || c.rbfail

/-! ## Inputs (R353-R356) -/

/-- A sample against the thresholds: 9.5 V, 7.0 V; between them it repeats the previous one (R353). -/
def readSample (mv10 : Nat) (prev : Bool) : Bool := if 950 ≤ mv10 then true else if mv10 ≤ 700 then false else prev

/-- Samples that accept a change: ceil(DEB / P) (R354). -/
def ChCfg.needed (c : ChCfg) : Nat := (c.deb + 50 * c.per - 1) / (50 * c.per)

/-- Report an accepted edge. -/
def Dev.edgeUp (s : Dev) (n : Nat) (level : Bool) (te : Nat) : Dev := s.sendUp (.edge n level (te / 20) s.tick)

/-- A debounced sample: the Nth new one accepts the change (R354, R355). -/
def Dev.debounce (s : Dev) (n : Nat) (smp : Bool) (watch : Option Nat) : Dev :=
  let c := s.fio n
  if smp = c.level then s.modFio n (fun c => { c with sample := smp, row := 0 })
  else
    let stamp := if c.row = 0 then watch.getD s.time else c.stamp
    if c.cfg.needed ≤ c.row + 1 then
      (s.modFio n (fun c => { c with sample := smp, level := smp, row := 0 })).edgeUp n smp stamp
    else s.modFio n (fun c => { c with sample := smp, row := c.row + 1, stamp := stamp })

/-- An input's sample instant (R356). -/
def Dev.inputSample (s : Dev) (n : Nat) (smp : Bool) (watch : Option Nat) : Dev :=
  let c := s.fio n
  let f := s.coc.field
  if !f.calDone || f.min.below then s.modFio n (fun c => { c with sample := smp })
  else if !c.valid && f.link.up then
    let before := if c.everValid then c.level else false
    let s := s.modFio n (fun c => { c with sample := smp, level := smp, valid := true, everValid := true, row := 0 })
    if smp != before then s.edgeUp n smp s.time else s
  else if c.everValid then s.debounce n smp watch
  else s.modFio n (fun c => { c with sample := smp })

/-! ## Outputs (R357-R361) -/

/-- Change an output's command; one that is off does not limit (R359). -/
def FioChan.command (c : FioChan) (on : Bool) (t : Nat) : FioChan :=
  if c.cmd = on then c else { c with cmd := on, cmdAt := t, mismatch := 0, ilim := c.ilim && on }

/-- Latch an output fault: the channel turns off (R361). Kind 1 BACKFEED, 2 OVERLOAD, 3 RBFAIL. -/
def Dev.latchFault (s : Dev) (n kind cause : Nat) (value : Int) : Dev :=
  (s.modFio n (fun c => { c.command false s.time with
    mismatch := 0, backfeed := c.backfeed || kind == 1, overload := c.overload || kind == 2,
    rbfail := c.rbfail || kind == 3 })).sendUp (.fault n kind cause value s.tick)

/-- An output's readback at a sample instant. -/
def Dev.outputSample (s : Dev) (n mv10 : Nat) (smp ilim : Bool) : Dev :=
  let c := s.fio n
  let wrong := decide (c.cmdAt + 100000 ≤ s.time) && (if c.cmd then !smp && !ilim else smp)
  let s := s.modFio n (fun c => { c with
    sample := smp, level := smp, ilim := ilim && c.cmd, mismatch := if wrong then c.mismatch + 1 else 0 })
  if 2 ≤ (s.fio n).mismatch then
    if c.cmd then s.latchFault n 3 0 mv10
    else if c.backfeed then s
    else s.latchFault n 1 0 mv10
  else s

/-- The present instant is the end of a sample window of a channel: 8 µs into an LPE frame whose number is a multiple of
PER. While its link is down Cocoon's own grid runs on (R353, R376). -/
def Dev.sampleDue (s : Dev) (n : Nat) : Bool :=
  let t := s.dt - s.lpe.phaseAt
  !s.coc.field.link.up
    || (t % 50000 == 8000 && decide (s.lpe.phaseAt < s.dt) && (s.lpe.frame + t / 50000) % max 1 (s.fio n).cfg.per == 0)

/-- FIELD_INPUT_SAMPLE. -/
def fieldInputSample (n mv10 : Nat) (watch : Option Nat) (ilim : Bool) (s : Dev) : Dev :=
  if s.fios ≤ n || !s.coc.field.running || !s.sampleDue n then s
  else
    let c := s.fio n
    let smp := readSample mv10 c.sample
    match c.cfg.dir with
    | .input => s.inputSample n smp watch
    | .output => s.outputSample n mv10 smp ilim
    | _ => s

def execFieldInputSample (n : Fin 48) (mv10 : Nat) (watch : Option Nat) (ilim : Bool) (s : State) :
    Host.Outcome State Fault Refusal := s.upd (fieldInputSample n mv10 watch ilim)

/-- OUTPUT_THERMAL_SHUTDOWN. -/
def outputThermalShutdown (n ma : Nat) (s : Dev) : Dev :=
  if s.coc.field.running && (s.fio n).cmd then s.latchFault n 2 1 ma else s

def execOutputThermalShutdown (n : Fin 48) (ma : Nat) (s : State) : Host.Outcome State Fault Refusal :=
  s.upd (outputThermalShutdown n ma)

def Dev.setFioGroup (s : Dev) (g : Nat) (due : Option Nat) : Dev :=
  s.setField (fun f => { f with groups := kput none f.groups g due })

/-- GROUP_OVERCURRENT: a group's current. It is above 3.0 A from the first such reading to one that is not; 10 ms of it
turn off the highest-numbered channel that is on, and so does every millisecond after (R359). -/
def groupOvercurrent (g ma : Nat) (s : Dev) : Dev :=
  if !s.coc.field.running then s
  else if ma ≤ 3000 then s.setFioGroup g none
  else
    match kget none s.coc.field.groups g with
    | none => s.setFioGroup g (some (s.time + 10000000))
    | some t =>
      if s.time < t then s
      else
        let s := s.setFioGroup g (some (t + 1000000))
        match ((List.range 8).filter (fun i => (s.fio (8 * g + i)).cmd)).getLast? with
        | some i => s.latchFault (8 * g + i) 2 2 ma
        | none => s

def execGroupOvercurrent (g : Fin 6) (ma : Nat) (s : State) : Host.Outcome State Fault Refusal :=
  s.upd (groupOvercurrent g ma)

/-- Acknowledge the records that wait for a channel's turning time. -/
def Dev.turned (s : Dev) (n : Nat) : Dev :=
  (s.fio n).turnAcks.foldl (fun s (r, w) => s.sendUp (.ack r .done (b2n w) s.tick))
    (s.modFio n (fun c => { c with turnAcks := [] }))

/-- A channel newly in a direction: its level and validity start afresh; latched faults stay. -/
def FioChan.fresh (c : FioChan) (cfg : ChCfg) (t : Nat) : FioChan :=
  { FioChan.reset with cfg := cfg, cmdAt := t, backfeed := c.backfeed, overload := c.overload, rbfail := c.rbfail }

/-- CHANNEL_TURNING_END. -/
def channelTurningEnd (n : Nat) (s : Dev) : Dev :=
  let c := s.fio n
  if c.cfg.dir = .turning ∧ c.turnEnd ≤ s.time then
    let s := s.turned n
    s.modFio n (fun c => c.fresh { c.cfg with dir := .input } s.time)
  else s

def execChannelTurningEnd (n : Fin 48) (s : State) : Host.Outcome State Fault Refusal := s.upd (channelTurningEnd n)

/-! ## Safe state, watchdog and field supply (R363-R367) -/

/-- Every output takes its safe state (R363). -/
def Dev.outputsSafe (s : Dev) : Dev :=
  let off := bitOf s.coc.field.wd 31
  (List.range 48).foldl (fun s n =>
    let c := s.fio n
    if c.cfg.dir = .output then s.modFio n (fun c => c.command (!off && c.cfg.safe && !c.faulty) s.time) else s) s

/-- Every input becomes invalid; a change that is being debounced is discarded by a sag, and goes on without the link
(R356, R366, R376). -/
def Dev.inputsInvalid (s : Dev) (sag : Bool) : Dev :=
  (List.range 48).foldl (fun s n =>
    if (s.fio n).cfg.dir = .input then
      s.modFio n (fun c => { c with valid := false, row := if sag then 0 else c.row })
    else s) s

/-- COC_WATCHDOG. -/
def cocWatchdog (s : Dev) : Dev :=
  let f := s.coc.field
  let wdt := clampN 50 100000 (bitsOf f.wd 16 0)
  if f.running && f.wdOn && !f.wdTrip && decide (f.wdAt + 1000 * wdt ≤ s.time) then
    ((s.setField (fun f => { f with wdTrip := true })).outputsSafe).sendUp (.watchdog f.link.lastFseq wdt s.tick)
  else s

def execCocWatchdog (s : State) : Host.Outcome State Fault Refusal := s.upd cocWatchdog

/-- VFIELD is declared below FS_MIN (R366). -/
def Dev.sagDeclared (s : Dev) (v : Nat) : Dev :=
  let s := s.setField (fun f => { f with sag := true })
  ((s.outputsSafe.inputsInvalid true).holdCells.settleAll).sendUp (.supply 2 v s.tick)

/-- VFIELD_MEASUREMENT. -/
def vfieldMeasurement (v : Nat) (s : Dev) : Dev :=
  if !s.coc.field.running then s
  else
    let low := 10 * bitsOf s.coc.field.fs 24 16
    let min := 10 * bitsOf s.coc.field.fs 8 0
    let f := s.coc.field
    let s := s.setField (fun f => { f with
      vfield := v, low := f.low.step (v < low) (low + 80 ≤ v), min := f.min.step (v < min) (min + 80 ≤ v) })
    let g := s.coc.field
    let s := if g.low.below && !f.low.below then s.sendUp (.supply 1 v s.tick) else s
    let s := if g.min.below && !f.min.below then s.sagDeclared v else s
    let s := if (f.low.below && !g.low.below) || (f.min.below && !g.min.below) then s.sendUp (.supply 3 v s.tick) else s
    if f.min.below && !g.min.below && bitOf g.fs 31 && g.sag then
      (s.setField (fun f => { f with sag := false })).sendUp (.supply 4 v s.tick)
    else s

def execVfieldMeasurement (mv10 : Nat) (s : State) : Host.Outcome State Fault Refusal := s.upd (vfieldMeasurement mv10)

/-- COCOON_POWER_LOSS: all outputs and gates off, the enables static, Cocoon's state lost (R367). -/
def cocoonPowerLoss (s : Dev) : Dev :=
  let s := if s.hwkF.motionEn.level then s.emit (.pin .motionEn false) else s
  let s := if s.hwkF.doorEn.level then s.emit (.pin .doorEn false) else s
  let s := s.setField (fun _ => { CocField.reset with running := false })
  let s := s.setHwkF (fun f => { HwkField.reset with osc := f.osc })
  { s with coc := { s.coc with up := none } }

def execCocoonPowerLoss (s : State) : Host.Outcome State Fault Refusal := s.upd cocoonPowerLoss

/-- COCOON_START: everything off, SAG latched, training and calibration to do (R367, R377). -/
def cocoonStart (s : Dev) : Dev :=
  if s.coc.field.running then s
  else
    s.setField (fun _ => CocField.reset)

def execCocoonStart (s : State) : Host.Outcome State Fault Refusal := s.upd cocoonStart

/-- COC_CALIB. -/
def cocCalib (item object : Nat) (s : Dev) : Dev :=
  if !s.coc.field.running || s.coc.field.calDone then s
  else
    let s := s.setField (fun f => { f with calDone := true, calOk := item == 0 })
    if item = 0 then s else s.sendUp (.calib item object s.tick)

def execCocCalib (item object : Nat) (s : State) : Host.Outcome State Fault Refusal := s.upd (cocCalib item object)

/-! ## Safety-chain taps (R368) -/

def Dev.tapAc (s : Dev) (i : Nat) : Bool := bitOf s.coc.field.tap i
def Dev.modTap (s : Dev) (i : Nat) (f : Tap → Tap) : Dev := s.setField (fun c => { c with taps := kmod .reset c.taps i f })

/-- A tap reports; a change of state is told to the logic die. -/
def Dev.tapReport (s : Dev) (i : Nat) (e late : Bool) : Dev :=
  let was := (s.tap i).energised
  let s := s.modTap i (fun t => { t with energised := e, lastAt := s.time, late := late, any := false, all := true })
  if e != was then s.sendUp (.tap i e (s.tapAc i) s.tick) else s

/-- TAP_SAMPLE. -/
def tapSample (i : Nat) (ua : Int) (s : Dev) : Dev :=
  if !s.coc.field.running then s
  else
    let thr := bitsOf s.coc.field.tap 23 16
    let e := if thr < ua.natAbs then true else if ua.natAbs + 10 < thr then false else (s.tap i).sample
    let neg := if ua = 0 then (s.tap i).neg else decide (ua < 0)
    let s := if s.tapAc i && neg != (s.tap i).neg then s.tapReport i (s.tap i).any false else s
    s.modTap i (fun t => { t with sample := e, neg := neg, any := t.any || e, all := t.all && e })

def execTapSample (i : Fin 8) (ua : Int) (s : State) : Host.Outcome State Fault Refusal := s.upd (tapSample i ua)

/-- TAP_DC_WINDOW_END. -/
def tapDcWindowEnd (i : Nat) (s : Dev) : Dev :=
  if s.coc.field.running && !s.tapAc i then s.tapReport i (s.tap i).all false else s

def execTapDcWindowEnd (i : Fin 8) (s : State) : Host.Outcome State Fault Refusal := s.upd (tapDcWindowEnd i)

/-- TAP_AC_TIMEOUT: 15 ms without a crossing, and every 10 ms after. -/
def tapAcTimeout (i : Nat) (s : Dev) : Dev :=
  let t := s.tap i
  if s.coc.field.running && s.tapAc i && decide (t.lastAt + (if t.late then 10000000 else 15000000) ≤ s.time) then
    s.tapReport i false true
  else s

def execTapAcTimeout (i : Fin 8) (s : State) : Host.Outcome State Fault Refusal := s.upd (tapAcTimeout i)

/-! ## The isolation link (R374-R376) -/

/-- The records of the last frames go back to the head of the queue. -/
def Records.requeue {α : Type} (q : Records α) : Records α :=
  { q with queue := q.sent.reverse.flatten ++ q.queue, sent := [] }

/-- The records of a frame: those whose first sending was in the last frame, again, then at most 8 first
sendings. While the link does not carry them the head of the queue is sent again in every frame. -/
def Records.frame {α : Type} (q : Records α) (flows : Bool) : List (Nat × α) × Records α :=
  let new := q.queue.take 8
  let q := { q with fresh := new.foldl (fun a x => if rseqFrom a x.1 then (x.1 + 1) % 65536 else a) q.fresh }
  if flows then (q.sent.headD [] ++ new, { q with queue := q.queue.drop 8, sent := (new :: q.sent).take 6 })
  else (new, q)

/-- A side that no longer lets records flow puts back what the frames since may have lost (log entry 23). -/
def LinkSide.requeues {α : Type} (was is : LinkSide) (q : Records α) : Records α :=
  if was.flows && !is.flows then q.requeue else q

/-- A bridge's entry in the downstream frame (Table 16-2). -/
def Dev.bridgeSet (s : Dev) (b : Nat) : BridgeSet :=
  if !s.hasBridge b then .reset
  else if s.bridgeGeneral b then
    if s.bit (Reg.msqBcfg b) 0 then ⟨2, (s.bridge b).duty, s.fld (Reg.msqBcfg b) 31 16, false, false, true⟩ else .reset
  else
    let n := b / 3
    let x := s.axis n
    let en := x.live
    if s.axisIdle n then ⟨3, 0, 0, false, s.bit (Reg.msqDcfg n) 1, en⟩
    else
      ⟨1, if b % 3 = 0 then x.setU else if b % 3 = 1 then x.setV else x.setW,
       if x.strong then s.dfld n (Reg.msqDband n) 31 16 else s.dfld n (Reg.msqDband n) 15 0, x.strong, s.bit (Reg.msqDcfg n) 1, en⟩

/-- A channel's state as the upstream frame tells it. -/
def FioChan.told (c : FioChan) : ChState :=
  { level := c.level && (c.valid || c.cfg.dir == .output), valid := c.valid, ilim := c.ilim, cmd := c.cmd,
    rbfail := c.rbfail, overload := c.overload, backfeed := c.backfeed, turning := c.cfg.dir == .turning }

/-- The slot number (R374). -/
def Dev.slotNo (s : Dev) : Nat := (5 * s.lpe.frame + (s.dt - s.lpe.phaseAt) / 10000) % 65536

/-- The configuration a channel is to have: that of the last command on its way, else the one it has. -/
def Dev.wantedCfg (s : Dev) (n : Nat) : ChCfg :=
  s.coc.waits.foldl (fun c w => match w.record with
    | .config m x => if m = n ∧ !s.coc.aborts.any (·.1.same w.desc) then x else c
    | _ => c) (s.fioCfg n)

/-- The record of a setting or configuration that is to be sent. -/
def Dev.feedRecord (s : Dev) (k : Nat) : DownRec :=
  if k < 48 then .config k (s.wantedCfg k)
  else if k < 64 then .bridgeCfg (k - 48) (s.reg (Reg.cocBrcfg (k - 48))) (s.reg (Reg.cocBroc (k - 48)))
  else if k < 67 then .setting (k - 64) (s.reg (Reg.cocFs + 4 * (k - 64)))
  else if k < 108 then
    .rules (k - 67) (s.hwkImage.getD (2 * (k - 67)) 0) (s.hwkImage.getD (2 * (k - 67) + 1) 0)
  else .ruleEnd s.hwk.crc s.hwk.other.latched

/-- Settings and configurations go into the queue as the next frame has room; once all have, the output commands follow
them (R376). -/
def Dev.fillQueue (s : Dev) : Dev :=
  if s.coc.feed.isEmpty || !s.coc.link.flows then s
  else
    let n := 8 - s.coc.tx.queue.length
    let s := (s.coc.feed.take n).foldl (fun s k => s.setCoc (fun c => { c with tx := c.tx.push (s.feedRecord k) })) s
    s.setCoc (fun c => { c with
      feed := c.feed.drop n,
      outs := if (c.feed.drop n).isEmpty then c.outs.map (fun o => { o with after := c.tx.rseq }) else c.outs })

/-- Output commands that a frame may carry: the records before them have been sent. -/
def Coc.outReady (c : Coc) (o : OutCmd) : Bool :=
  c.link.flows && c.feed.isEmpty && rseqFrom o.after ((c.tx.queue.head?.map (·.1)).getD c.tx.rseq)

/-- Levels under the channels of a mask. -/
def putLevels (out mask levels : Nat) : Nat :=
  (maskBits 48 mask).foldl (fun a n => putBit a n (tbit levels n)) out

/-- Commanded output levels (Table 16-2). -/
def Coc.outLevels (c : Coc) : Nat :=
  c.outs.foldl (fun a o => if o.sent && !o.void then putLevels a o.mask o.levels else a) c.out

def Dev.buildDown (s : Dev) : Dev :=
  let s := s.fillQueue
  let (recs, tx) := if s.coc.training then ([], s.coc.tx) else s.coc.tx.frame s.coc.link.flows
  let s := s.setCoc (fun c => { c with tx := tx })
  let s := s.setCoc (fun c => { c with outs := c.outs.map (fun o => { o with sent := o.sent || c.outReady o }) })
  let g := s.hwk
  let f : DownFrame :=
    { fseq := s.slotNo, slot := (s.dt - s.lpe.phaseAt) / 10000 % 5, dt0 := s.dt, train := s.coc.training,
      linkUp := s.coc.link.up, hwkValid := g.osc, hwk := ⟨g.permits, g.active, g.latched⟩, adopted := g.adopted,
      out := s.coc.outLevels,
      outs := (s.coc.outs.filter s.coc.outReady).map (fun o => ⟨o.no, o.mask, o.after, o.void⟩),
      bridges := (List.range 16).map s.bridgeSet, records := recs }
  (s.setCoc (fun c => { c with down := some f })).emit (.linkFrame false f.bytes)

/-- Cocoon's frame; it sends none before it has learned the slot number (R374, R377). -/
def Dev.buildUp (s : Dev) : Dev :=
  let f := s.coc.field
  if !f.running || !f.trained then s.setCoc (fun c => { c with up := none })
  else
    let (recs, tx) := if s.coc.training then ([], f.tx) else f.tx.frame f.link.flows
    let h := s.hwkF
    let u : UpFrame :=
      { fseq := s.slotNo, train := s.coc.training, linkUp := f.link.up, drops := f.drops, dt0 := s.dt, tc0 := s.tick,
        min := f.min.below,
        low := f.low.below, wdTrip := f.wdTrip, sag := f.sag, calOk := f.calOk, vgLow := f.vgLow.below,
        vbOut := f.vbLow.below || f.vbHigh.below,
        taps := (List.range 8).foldl (fun a i => a + b2n (s.tap i).energised * 2 ^ i) 0,
        chans := (List.range 48).map (fun n => (s.fio n).told),
        hwk := ⟨h.permits, h.active, h.latched⟩, hwkArmed := h.armed, hwkAt := h.evalAt / 20,
        toggle := h.toggleAt.map (· / 20), latches := h.copy,
        iph := (List.range 16).map (fun b => (s.cell b).iph), brst := (List.range 16).map s.brStat,
        vfield := f.vfield, vbridge := f.vbridge, vgate := f.vgate, temp := f.temp, records := recs }
    let s := s.setField (fun f => { f with tx := tx })
    (s.setCoc (fun c => { c with up := some u })).emit (.linkFrame true u.bytes)

/-- The phase current of the last slot: the mean of the samples kept, or the previous value (R372); the mean's rounding
is toward minus infinity (log entry 22). -/
def Cell.endSlot (c : Cell) : Cell :=
  { c with iph := if c.convN = 0 then c.iph else wrapS 16 (idiv c.convSum c.convN), convSum := 0, convN := 0 }

/-- LINK_SLOT_START: both sides send a frame; `own`: each bridge's amplifier at this instant, the slot's first
conversion. -/
def linkSlotStart (own : List Int) (temp : Int) (s : Dev) : Dev :=
  let bs := if s.coc.field.running then (List.range 16).filter s.hasBridge else []
  let s := bs.foldl (fun s b => s.modCell b (fun c => { c.endSlot with amp := own.getD b 0 })) s
  let s := bs.foldl (fun s b => s.keepSample b (s.phaseNow b (s.cell b).amp)) s
  let s := if s.coc.field.running then s.setField (fun f => { f with temp := wrapS 8 temp }) else s
  s.buildDown.buildUp

def execLinkSlotStart (own : List Int) (temp : Int) (s : State) : Host.Outcome State Fault Refusal :=
  s.upd (linkSlotStart own temp)

/-- The side accepts a frame: up at the third in a row; one sent with TRAIN is not counted (R376). -/
def LinkSide.accept (l : LinkSide) (train told : Bool) (fseq t : Nat) : LinkSide :=
  let n := if train then 0 else l.accepted + 1
  { l with up := l.up || decide (3 ≤ n), accepted := n, missed := 0, lastAt := t, lastFseq := fseq, told := told }

/-- A frame is valid with the number of its slot, or with any while the link is down (R374). -/
def LinkSide.takes (l : LinkSide) (fseq slot : Nat) : Bool := !l.up || fseq == slot

/-- The side's slot ends without one. -/
def LinkSide.miss (l : LinkSide) (t : Nat) : LinkSide :=
  let down := l.up && decide (2 ≤ l.missed + 1)
  { l with up := l.up && !down, missed := l.missed + 1, accepted := 0,
           outage := if down then 2 else if l.up then 0 else l.outage + 1, lastAt := if down then t else l.lastAt }

/-! ### Downstream -/

/-- COC_CHn of a configuration; DIR of a channel that is turning reads 1. -/
def ChCfg.word (c : ChCfg) (turning : Bool) : Word :=
  wordN ((match c.dir with | .off => 0 | .output => 2 | _ => 1) + 4 * b2n turning + 8 * b2n c.safe + 16 * b2n c.edgeEv
    + 512 * c.per + 65536 * c.deb)
def Dev.cocChWord (s : Dev) (n : Nat) : Word := (s.fioCfg n).word (s.fioState n).turning

/-- A channel configuration takes effect at Cocoon and is acknowledged, at the end of a turning time where there is one
(R352, R379). -/
def Dev.applyConfig (s : Dev) (n : Nat) (cfg : ChCfg) (r : Nat) : Dev :=
  let c := s.fio n
  let turning := c.cfg.dir == .turning
  let done (s : Dev) : Dev := s.sendUp (.ack r .done (b2n turning) s.tick)
  match cfg.dir with
  | .output =>
    if c.cfg.dir = .output then done (s.modFio n (fun c => { c with cfg := cfg }))
    else done ((s.turned n).modFio n (fun c => c.fresh cfg s.time))
  | .input =>
    if c.cfg.dir = .input then done (s.modFio n (fun c => { c with cfg := cfg, row := 0 }))
    else if turning then
      s.modFio n (fun c => { c with cfg := { cfg with dir := .turning }, turnAcks := c.turnAcks ++ [(r, turning)] })
    else if c.cfg.dir = .output ∧ c.cmd then
      s.modFio n (fun c => { c.fresh { cfg with dir := .turning } s.time with
        turnEnd := s.time + 100000, turnAcks := [(r, turning)] })
    else done (s.modFio n (fun c => c.fresh cfg s.time))
  | _ => done ((s.turned n).modFio n (fun c => c.fresh { cfg with dir := .off } s.time))

def maskWords (m : Nat) : List Word := [lo64 m, hi64 m]

/-- The levels of an output command take effect at Cocoon (R361, R363). -/
def Dev.applyOut (s : Dev) (o : OutMark) (levels : Nat) : Dev :=
  let s := s.setField (fun f => { f with outNext := o.no + 1 })
  if o.void then s.sendUp (.outAck o.no .void 0 s.tick)
  else if s.coc.field.sag || s.coc.field.wdTrip then s.sendUp (.outAck o.no .refused 0 s.tick)
  else
    let (s, held) := (maskBits 48 o.mask).foldl (fun (s, held) n =>
      if (s.fio n).cfg.dir ≠ .output then (s, held)
      else if tbit levels n && (s.fio n).faulty then (s, held + 2 ^ n)
      else (s.modFio n (fun c => c.command (tbit levels n) s.time), held)) (s, 0)
    s.sendUp (.outAck o.no .done held s.tick)

/-- The output commands of a frame that are new and whose turn has come among the records. -/
def Dev.applyOuts (s : Dev) (f : DownFrame) : Dev :=
  f.outs.foldl (fun s o =>
    if s.coc.field.outNext ≤ o.no ∧ rseqFrom o.after s.coc.field.rxNext then s.applyOut o f.out else s) s

/-- Latched faults clear at Cocoon (R361). -/
def Dev.applyClear (s : Dev) (mask r : Nat) : Dev :=
  let l := (maskBits 48 mask).filter (fun n => (s.fio n).faulty)
  let s := l.foldl (fun s n => s.modFio n (fun c => { c.command false s.time with
    mismatch := 0, backfeed := false, overload := false, rbfail := false })) s
  s.sendUp (.ack r .done (l.foldl (fun m n => m + 2 ^ n) 0) s.tick)

/-- COC_STAT [7:1]. -/
def statBits (min low wdTrip sag calOk vgLow vbOut : Bool) : Nat :=
  2 * b2n low + 4 * b2n min + 8 * b2n sag + 16 * b2n wdTrip + 32 * b2n calOk + 64 * b2n vbOut + 128 * b2n vgLow

def CocField.stat (f : CocField) : Nat :=
  statBits f.min.below f.low.below f.wdTrip f.sag f.calOk f.vgLow.below (f.vbLow.below || f.vbHigh.below)

/-- COC_STAT: what Cocoon tells, the link here, and the sticky bits. -/
def Dev.cocStat (s : Dev) (told : Nat) : Word :=
  wordN (b2n s.coc.link.up + told + 256 * s.fld Reg.cocStat 9 8)

/-- SAG and WDTRIP are released at Cocoon, WDTRIP only while the link is up there (R364, R366). -/
def Dev.applyRelease (s : Dev) (sag wdt : Bool) (r : Nat) : Dev :=
  let f := s.coc.field
  if (sag && f.min.below) || (wdt && !f.link.up) then s.sendUp (.ack r .refused 0 s.tick)
  else
    let s := s.setField (fun f => { f with
      sag := f.sag && !sag, wdTrip := f.wdTrip && !wdt, wdAt := if wdt then s.time else f.wdAt })
    let s := if sag && f.sag then (s.sendUp (.supply 4 f.vfield s.tick)).settleAll else s
    s.sendUp (.ack r .done s.coc.field.stat s.tick)

/-- A record takes effect at Cocoon. -/
def Dev.applyDown (s : Dev) (r : Nat) : DownRec → Dev
  | .config n c => s.applyConfig n c r
  | .void => s.sendUp (.ack r .void 0 s.tick)
  | .clear m => s.applyClear m r
  | .release a b => s.applyRelease a b r
  | .rules i a b => s.fieldRules i a b
  | .ruleEnd c l => s.fieldRuleEnd c l
  | .bridgeCfg b c o => s.setField (fun f => { f with
      brcfg := kput (regReset (Reg.cocBrcfg b)) f.brcfg b c, broc := kput (regReset (Reg.cocBroc b)) f.broc b o })
  | .setting i v => s.setField (fun f => if i = 0 then { f with fs := v } else if i = 1 then { f with wd := v } else { f with tap := v })
  | .unlatch m => s.setHwkF (fun f => { f with latched := maskOff f.latched (maskOff m f.active), copy := maskOff f.copy m })

/-- The fields of a valid downstream frame take effect. -/
def Dev.downFields (s : Dev) (f : DownFrame) : Dev :=
  let s := s.setField (fun c =>
    let l := c.link.accept f.train (!f.linkUp) f.fseq s.time
    { c with link := l, tx := c.link.requeues l c.tx, wdOn := true, wdAt := s.time })
  let s := s.setHwkF (fun h =>
    let good := if f.hwkValid then h.goodRow + 1 else 0
    let bad := if f.hwkValid then 0 else h.badRow + 1
    { h with
      logic := if f.hwkValid then f.hwk else ⟨.none, f.hwk.active, f.hwk.latched⟩,
      copy := if f.adopted then f.hwk.latched else h.copy ||| f.hwk.latched,
      goodRow := good, badRow := bad, link := (h.link && decide (good < 3)) || decide (2 ≤ bad) })
  let s := (List.range 16).foldl (fun s b =>
    let x := f.bridges.getD b .reset
    (s.modCell b (fun c => { c with set_ := x, held := c.held && (x.mode == 1 || x.mode == 2) })).clearFaults b) s
  s.settleAll.linkWithdraws

/-- COCOON_DOWNSTREAM_FRAME_ACCEPTED: every valid frame's fields, each record once and in order, each output command
between the records it stands between (R375). -/
def cocoonDownstreamFrameAccepted (s : Dev) : Dev :=
  match s.coc.down with
  | some f =>
    let s := s.setCoc (fun c => { c with down := none })
    let g := s.coc.field
    if !g.running || !g.trained || !g.link.takes f.fseq s.slotNo then s
    else
      f.records.foldl (fun s (r, x) =>
        if s.coc.field.rxNext = r then
          ((s.setField (fun c => { c with rxNext := (r + 1) % 65536 })).applyDown r x).applyOuts f
        else s) ((s.downFields f).applyOuts f)
  | none => s

def execCocoonDownstreamFrameAccepted (s : State) : Host.Outcome State Fault Refusal :=
  s.upd cocoonDownstreamFrameAccepted

/-! ### Upstream -/

/-- An upstream time as DT (R374). -/
def UpFrame.toDt (f : UpFrame) (tc : Nat) : Nat := ((f.dt0 : Int) + 20 * ((tc : Int) - f.tc0)).toNat

/-- An accepted edge reaches the logic die: COC_EDGE, Hawkmoth and, while it is enabled, Car position fusion (04 R63). -/
def Dev.edgeArrives (s : Dev) (n : Nat) (level : Bool) (te acc : Nat) : Dev :=
  let s := if (s.fioCfg n).edgeEv then s.event 11 1 1 n te [b2n level, (acc % 2 ^ 32 : Nat)] else s
  let s := [ZoneInput.dz0, .dz1, .ntsLo, .ntsHi].foldl (fun s i =>
    if s.zoneChannel i = n ∧ s.cpfEnabled = true ∧ s.powered 6 = true then
      { s with cpf := { s.cpf with zoneEdges := s.cpf.zoneEdges ++ [⟨i, i.active level, te, s.dt⟩] } }
    else s) s
  s.hwkEdge n level te

/-- A command to Cocoon ends with status `st` at instant `t`; one whose abort came before that is ABORTED (15 R345). -/
def Dev.cocDecide (s : Dev) (d : Desc) (t : Nat) (void : Bool) (st : Status) (res : List Word) : Dev :=
  match s.coc.aborts.find? (fun x => x.1.same d) with
  | none => s.complete d st t res
  | some (_, a, at_) =>
    let s := s.setCoc (fun c => { c with aborts := c.aborts.filter (fun x => !x.1.same d) })
    if void || decide (at_ < t) then (s.complete d .aborted at_ []).complete a .abortApplied at_ [0, 8]
    else (s.complete d st t res).complete a .abortTooLate at_ [0, wordN st.code]

/-- Cocoon acknowledges a command's record (R375 type 5, R379). -/
def Dev.cocAck (s : Dev) (rseq : Nat) (res : AckRes) (data t : Nat) : Dev :=
  match s.coc.waits.find? (fun w => w.rseq == rseq) with
  | none => s
  | some w =>
    let s := s.setCoc (fun c => { c with waits := c.waits.filter (fun w => w.rseq != rseq) })
    match w.record with
    | .config n c =>
      let prev := (s.fioCfg n).word (data == 1)
      let s := if res = .done then
          (if s.coc.aborts.any (·.1.same w.desc) then s.feedKey n else s).setCoc (fun k => { k with cfgs := kput .reset k.cfgs n c })
        else s
      s.cocDecide w.desc t (res == .void) .done [prev]
    | .clear _ => s.cocDecide w.desc t (res == .void) .done (maskWords data)
    | _ =>
      if res = .refused then s.cocDecide w.desc t false .refusedInterlock []
      else s.cocDecide w.desc t (res == .void) .done [s.cocStat data]

/-- Cocoon acknowledges an output command: HW_FAULT where a channel is held off (R379). -/
def Dev.cocOutAck (s : Dev) (no : Nat) (res : AckRes) (held t : Nat) : Dev :=
  match s.coc.outs.find? (fun o => o.no == no) with
  | none => s
  | some o =>
    let s := s.setCoc (fun c => { c with
      outs := c.outs.filter (fun o => o.no != no), out := if res = .done then putLevels c.out o.mask o.levels else c.out })
    if res = .refused then s.cocDecide o.desc t false .refusedInterlock []
    else s.cocDecide o.desc t (res == .void) (if held = 0 then .done else .hwFault) (maskWords held)

/-- Every axis in service faults (06 R139). -/
def Dev.faultAxes (s : Dev) (cause : Nat) : Dev :=
  ((List.range 5).filter (fun n => s.hasAxis n && (s.axis n).live && (s.axis n).state != .fault)).foldl
    (fun s n => s.faultAxis n cause) s

/-- A record of the upstream frame takes effect (R380). -/
def Dev.applyUp (s : Dev) (f : UpFrame) : UpRec → Dev
  | .edge n l te acc => s.edgeArrives n l (f.toDt te) (f.toDt acc)
  | .fault n k c v t =>
    (s.chrInc 7 (3 * n + (k - 1))).event 11 6 (k + 1) n (f.toDt t) (if k = 2 then [c, v] else [v])
  | .tap i e ac t => s.event 11 4 8 i (f.toDt t) [b2n e + 2 * b2n ac]
  | .bridge b c v t => s.event 11 8 9 b (f.toDt t) [c, v]
  | .supply st v t =>
    let s := if st = 2 then (s.chrInc 7 144).faultAxes 3 else if st = 1 then s.chrInc 7 145 else s
    s.event 11 (match st with | 1 => 4 | 2 => 8 | _ => 2) 5 0xFF (f.toDt t) [st, v]
  | .watchdog q w t => s.event 11 8 6 0xFF (f.toDt t) [q, w]
  | .calib i o t =>
    ((s.setCoc (fun c => { c with calFail := true })).chrInc 1 8).event 11 8 10 0xFF (f.toDt t) [i, o]
  | .rulesAck a => s.rulesAnswer a
  | .ack r res data t => s.cocAck r res data (f.toDt t)
  | .outAck no res held t => s.cocOutAck no res held (f.toDt t)

/-- Every setting and configuration is to be sent again (R376); a bridge at its reset settings needs none. -/
def Dev.resendConfigs (s : Dev) : Dev :=
  let bridges := (List.range 16).filter (fun b => s.hasBridge b
    && (s.reg (Reg.cocBrcfg b) != regReset (Reg.cocBrcfg b) || s.reg (Reg.cocBroc b) != regReset (Reg.cocBroc b)))
  s.setCoc (fun c => { c with feed := [64, 65, 66] ++ bridges.map (48 + ·) ++ c.cfgs.map (·.1) })

/-- Commands that have been sent and that nothing acknowledges any more are sent again under new numbers; one whose abort
waits is ABORTED instead (log entry 23). -/
def Dev.resendWaits (s : Dev) : Dev :=
  let (keep, again) := s.coc.waits.partition (fun w => s.coc.tx.queue.any (fun x => x.1 == w.rseq))
  let (gone, stay) := s.coc.aborts.partition (fun x => !keep.any (fun w => w.desc.same x.1))
  let live (d : Desc) : Bool := !gone.any (fun x => x.1.same d)
  let s := s.setCoc (fun c => { c with waits := keep, aborts := stay, outs := c.outs.filter (fun o => live o.desc) })
  let s := gone.foldl (fun s (d, a, t) => (s.complete d .aborted t []).complete a .abortApplied t [0, 8]) s
  let s := (again.filter (fun w => live w.desc)).foldl (fun s w => s.cocCommand w.desc w.record) s
  s.setCoc (fun c => { c with
    outNo := c.outNo + c.outs.length,
    outs := c.outs.zipIdx.map (fun (o, i) => { o with no := c.outNo + i, after := c.tx.rseq }) })

/-- The link comes up at the logic die: COC_LINK, and every configuration record again (R376), the locked rule set
where the Cocoon half has none (08 R194). -/
def Dev.linkCameUp (s : Dev) (f : UpFrame) : Dev :=
  let s := s.event 11 2 7 0xFF s.dt [1 + 2 * b2n s.coc.trained, s.coc.link.outage]
  let s := s.setCoc (fun c => { c with trained := false, link := { c.link with outage := 0 } })
  let s := s.resendConfigs
  if (s.hwk.armed || s.hwk.confirming) && !f.hwkArmed then s.sendRules else s

/-- The values since instant `t` and the last before it, of a list newest first. -/
def keepSince (t : Nat) : List (Nat × Int × Int) → List (Nat × Int × Int)
  | [] => []
  | r :: l => if r.1 ≤ t then [r] else r :: keepSince t l

/-- Hawkmoth's fields of an upstream frame (08 R178, R198). -/
def Dev.upHawk (s : Dev) (f : UpFrame) : Dev :=
  let s := s.setHwk (fun g => { g with
    seen := true, fieldArmed := f.hwkArmed,
    other := { f.hwk with latched := if f.hwkArmed then f.hwk.latched else g.other.latched ||| f.hwk.latched } })
  let s := s.hwkCombine true (f.toDt f.hwkAt)
  if f.toggle = s.hwk.toggled then s.setHwk (fun g => { g with recent := keepSince f.dt0 g.recent })
  else
  let s := s.setHwk (fun g => { g with toggled := f.toggle })
  match f.toggle with
  | some t =>
    let at_ := f.toDt t
    let r := (s.hwk.recent.find? (fun r => r.1 ≤ at_)).getD (0, s.hwk.h, s.hwk.s)
    (s.setHwk (fun g => { g with recent := keepSince f.dt0 g.recent })).hwkEvent 1 4 at_ [r.2.1, r.2.2]
  | none => s

/-- The fields of a valid upstream frame; the first one returns the latches that the Cocoon half kept (08 R192). -/
def Dev.upFields (s : Dev) (f : UpFrame) : Dev :=
  let was := s.coc.link
  let s := s.setCoc (fun c =>
    let l := was.accept f.train (!f.linkUp) f.fseq s.time
    { c with up := none, mirror := some f, link := l, tx := was.requeues l c.tx, drops := f.drops,
             repeated := if was.up ∧ was.missed = 1 then satInc 16 c.repeated else c.repeated })
  let s := if s.hwk.adopted then s else s.setHwk (fun g => { g with latched := g.latched ||| f.latches, adopted := true })
  let s := if f.calOk then s.bootStage 6 else s
  s.upHawk f

/-- COCOON_UPSTREAM_FRAME_ACCEPTED: fields, then each record once and in order (R375); records that Cocoon has dropped
may have been acknowledges, so their commands are sent again. -/
def cocoonUpstreamFrameAccepted (s : Dev) : Dev :=
  match s.coc.up with
  | some f =>
    let was := s.coc
    if !was.link.takes f.fseq s.slotNo then s.setCoc (fun c => { c with up := none })
    else
      let s := s.upFields f
      let s := f.records.foldl (fun s (r, x) =>
        if s.coc.rxNext = r then (s.setCoc (fun c => { c with rxNext := (r + 1) % 65536 })).applyUp f x else s) s
      let s := if was.drops = f.drops then s else (s.setBit Reg.cocStat 9 true).resendWaits
      if s.coc.link.up && !was.link.up then s.linkCameUp f else s
  | none => s

def execCocoonUpstreamFrameAccepted (s : State) : Host.Outcome State Fault Refusal :=
  s.upd cocoonUpstreamFrameAccepted

/-! ### Outages and training -/

/-- Cocoon declares the link down: LINK, bridges to their safe settings, inputs invalid (R356, R376). -/
def Dev.fieldLinkDown (s : Dev) : Dev :=
  let s := (s.setHwkF (fun h => { h with link := true })).linkWithdraws
  let s := (List.range 16).foldl (fun s b => s.modCell b (fun c =>
    if c.set_.mode = 1 ∨ c.set_.mode = 2 then { c with set_ := { c.set_ with mode := 3 } } else c)) s
  s.settleAll.inputsInvalid false

/-- A slot ends at Cocoon without an accepted frame. -/
def Dev.fieldMiss (s : Dev) : Dev :=
  let was := s.coc.field.link.up
  let s := s.setCoc (fun c => { c with down := none })
  let s := s.setField (fun c => let l := c.link.miss s.time; { c with link := l, tx := c.link.requeues l c.tx })
  let s := s.setHwkF (fun h => { h with badRow := h.badRow + 1, goodRow := 0, link := h.link || decide (2 ≤ h.badRow + 1) })
  let s := s.linkWithdraws
  if was && !s.coc.field.link.up then s.fieldLinkDown else s

/-- A slot ends at the logic die without one; the second declares the link down: the door axes fault, COC_LINK and the
link-loss counter (R376). -/
def Dev.logicMiss (s : Dev) : Dev :=
  let was := s.coc.link
  let l := was.miss s.time
  let s := s.setCoc (fun c => { c with up := none, link := l, tx := was.requeues l c.tx })
  if was.up && !l.up then
    let s := s.setCoc (fun c => { c with trained := false, downs := satInc 16 c.downs })
    ((s.faultAxes 4).chrInc 7 146).event 11 8 7 0xFF s.dt [0, 2]
  else s

/-- LINK_SLOT_MISSED. -/
def linkSlotMissed (cocoon : Bool) (s : Dev) : Dev :=
  if !cocoon then s.logicMiss else if s.coc.field.running then s.fieldMiss else s

def execLinkSlotMissed (cocoon : Bool) (s : State) : Host.Outcome State Fault Refusal := s.upd (linkSlotMissed cocoon)

/-- LINK_TRAINING_START: 1 ms after the link went down without an accepted frame (R376). -/
def linkTrainingStart (s : Dev) : Dev :=
  if !s.coc.link.up && !s.coc.training && decide (s.coc.link.lastAt + 1000000 ≤ s.time) then
    s.setCoc (fun c => { c with training := true })
  else s

def execLinkTrainingStart (s : State) : Host.Outcome State Fault Refusal := s.upd linkTrainingStart

/-- The start of Cocoon at the first training after a reset of the logic die: R377 applies, every field fault
latched there is cleared, and the supply declarations stand (17 R394). -/
def Dev.fieldStart (s : Dev) : Dev :=
  let s := s.setField (fun f => { f with
    chans := [], cells := [], taps := [], groups := [], wdOn := false, wdTrip := false, sag := false, calDone := false,
    calOk := false, tx := .empty, drops := 0, fs := CocField.reset.fs, wd := CocField.reset.wd,
    tap := CocField.reset.tap, brcfg := [], broc := [] })
  let s := s.setHwkF (fun h => { h with armed := false, rules := [], logic := .reset })
  if s.coc.field.min.below then s.sagDeclared s.coc.field.vfield else s

/-- At the first training after a start of either die both begin their numbers anew. What a restart of Cocoon has lost is
sent again, and a command whose abort waited for its answer has not taken effect (log entry 23). -/
def Dev.syncLink (s : Dev) : Dev :=
  let s := s.setField (fun f => { f with trained := true, rxNext := 0, outNext := s.coc.outNo })
  (s.setCoc (fun c => { c with tx := .empty, rxNext := 0, drops := 0, feed := [] })).resendWaits

/-- LINK_TRAINING_COMPLETE. -/
def linkTrainingComplete (s : Dev) : Dev :=
  if s.coc.training && s.coc.field.running then
    let s := if s.coc.fresh && s.coc.field.trained then s.fieldStart else s
    let s := if s.coc.fresh || !s.coc.field.trained then s.syncLink else s
    let s := (s.setCoc (fun c => { c with fresh := false })).bootStage 5
    let s := s.setField (fun c => { c with link := { c.link with accepted := 0 } })
    s.setCoc (fun c => { c with training := false, trained := true, link := { c.link with accepted := 0 } })
  else s

def execLinkTrainingComplete (s : State) : Host.Outcome State Fault Refusal := s.upd linkTrainingComplete

/-! ## Commands (R379) -/

/-- Channel `n` is bound in the locked rule set. -/
def Dev.hwkBound (s : Dev) (n : Nat) : Bool :=
  (List.range 17).any (fun i => tbit (s.hwkByte i) 7 && s.hwkByte i % 64 == n)

/-- COC_CH_CONFIG; a locked rule set keeps the channels it binds (08 R182). -/
def cocChConfig (d : Desc) (s : Dev) : Dev :=
  let n := bitsOf d.object 5 0
  let w := d.w 3
  let deb := bitsOf (d.w 4) 15 0
  let per := bitsOf (d.w 4) 22 16
  let dir : Dir := match bitsOf w 1 0 with | 1 => .input | 2 => .output | _ => .off
  let old := s.fioCfg n
  if n < 48 ∧ s.fios ≤ n then s.fail d .notInVariant
  else if 48 ≤ n ∨ bitsOf d.object 31 6 ≠ 0 ∨ bitsOf w 1 0 = 3 ∨ bitsOf w 31 4 ≠ 0 ∨ bitsOf (d.w 4) 31 23 ≠ 0
      ∨ deb = 0 ∨ per = 0 ∨ 100 < per then s.fail d .badDescriptor
  else if s.hwk.locked && s.hwkBound n && decide (dir ≠ old.dir ∨ deb ≠ old.deb ∨ per ≠ old.per) then
    s.fail d .refusedInterlock
  else s.cocCommand d (.config n ⟨dir, deb, per, bitOf w 2, bitOf w 3⟩)

def execCocChConfig (d : Desc) (s : State) : Host.Outcome State Fault Refusal := s.cmd d (cocChConfig d)

/-- A mask names a channel beyond those of the package. -/
def Dev.fioAbsent (s : Dev) (m : Nat) : Bool := decide (2 ^ s.fios ≤ m)

/-- COC_OUT_SET. -/
def cocOutSet (d : Desc) (s : Dev) : Dev :=
  let m := d.w64 3
  let lv := d.w64 5
  if s.fioAbsent (m % 2 ^ 48) then s.fail d .notInVariant
  else if d.object ≠ 0 ∨ 2 ^ 48 ≤ m ∨ 2 ^ 48 ≤ lv ∨ !(maskBits 48 m).all (fun n => decide ((s.fioCfg n).dir = .output)) then
    s.fail d .badDescriptor
  else if (match s.coc.mirror with | some f => f.sag || f.wdTrip | none => false) then s.fail d .refusedInterlock
  else s.setCoc (fun c => { c with
    outs := c.outs ++ [⟨c.outNo, m, lv, c.tx.rseq, false, false, d⟩], outNo := c.outNo + 1 })

def execCocOutSet (d : Desc) (s : State) : Host.Outcome State Fault Refusal := s.cmd d (cocOutSet d)

/-- COC_CLEAR. -/
def cocClear (d : Desc) (s : Dev) : Dev :=
  let m := d.w64 3
  if s.fioAbsent (m % 2 ^ 48) then s.fail d .notInVariant
  else if d.object ≠ 0 ∨ 2 ^ 48 ≤ m then s.fail d .badDescriptor
  else s.cocCommand d (.clear m)

def execCocClear (d : Desc) (s : State) : Host.Outcome State Fault Refusal := s.cmd d (cocClear d)

/-- COC_RELEASE. -/
def cocRelease (d : Desc) (s : Dev) : Dev :=
  let w := d.w 3
  if d.object ≠ 0 ∨ bitsOf w 31 2 ≠ 0 then s.fail d .badDescriptor
  else if (bitOf w 0 && s.fieldLow) || (bitOf w 1 && !s.coc.link.up) then s.fail d .refusedInterlock
  else s.cocCommand d (.release (bitOf w 0) (bitOf w 1))

def execCocRelease (d : Desc) (s : State) : Host.Outcome State Fault Refusal := s.cmd d (cocRelease d)

/-- The mask of the channels a property holds of in the last frame. -/
def UpFrame.mask (f : UpFrame) (p : ChState → Bool) : Nat :=
  f.chans.zipIdx.foldl (fun m (c, i) => if p c then m + 2 ^ i else m) 0

def UpFrame.vmon (f : UpFrame) : Word := wordN (f.vfield % 65536 + 65536 * f.vbridge)

/-- COC_READ. -/
def cocRead (d : Desc) (s : Dev) : Dev :=
  if d.object ≠ 0 then s.fail d .badDescriptor
  else
    match s.coc.mirror with
    | some f =>
      s.complete d .done f.dt0 (maskWords (f.mask (·.level)) ++ maskWords (f.mask (·.valid))
        ++ maskWords (f.mask (·.faulty)) ++ [f.vmon, wordN f.taps])
    | none => s.complete d .done (s.dispatchedAt d) [0, 0, 0, 0, 0, 0, 0, 0x100]

def execCocRead (d : Desc) (s : State) : Host.Outcome State Fault Refusal := s.cmd d (cocRead d)

/-! ## Registers (R378) -/

def Dev.cocStatWord (s : Dev) : Word :=
  match s.coc.mirror with
  | some f => s.cocStat (statBits f.min f.low f.wdTrip f.sag f.calOk f.vgLow f.vbOut)
  | none => s.cocStat 0

def Dev.cocChstatWord (s : Dev) (n : Nat) : Word :=
  let c := s.fioState n
  wordN (b2n c.backfeed + 2 * b2n c.overload + 4 * b2n c.rbfail + 16 * b2n c.cmd + 32 * b2n c.ilim
    + 64 * b2n (c.valid && s.coc.link.up) + 128 * b2n (c.level && ((s.fioCfg n).dir == .output || s.coc.link.up)))

def Dev.cocVmonWord (s : Dev) : Word := match s.coc.mirror with | some f => f.vmon | none => 0
def Dev.cocVmon2Word (s : Dev) : Word :=
  match s.coc.mirror with | some f => wordN (f.vgate % 65536 + 65536 * wrapU 8 f.temp) | none => 0
def Dev.cocTapWord (s : Dev) : Word := match s.coc.mirror with | some f => wordN f.taps | none => 0
def Dev.cocLinkWord (s : Dev) : Word := wordN (s.coc.downs + 65536 * s.coc.repeated)
def Dev.cocBrstatWord (s : Dev) (b : Nat) : Word :=
  match s.coc.mirror with | some f => wordN (f.brst.getD b 0) | none => 0

end Sys2Proof.Machine
end

