-- ==== Sys2Proof/Machine/Datapath.lean ====
section
/-! DEFINITION. The Voler words and the datapath of an engine: register banks, pointers, products,
accumulators and limited reads (12 R282-R289, 13 R301-R306). -/
namespace Sys2Proof.Machine

/-! ## Decoding a code word (13 R301, Tables 13-2 to 13-4) -/

def fin16 (n : Nat) : Fin 16 := ⟨n % 16, Nat.mod_lt _ (by decide)⟩
def fin8 (n : Nat) : Fin 8 := ⟨n % 8, Nat.mod_lt _ (by decide)⟩
def fin4 (n : Nat) : Fin 4 := ⟨n % 4, Nat.mod_lt _ (by decide)⟩

/-- A value below a bound as a member of it. -/
def toFin (b n : Nat) : Option (Fin b) := if h : n < b then some ⟨n, h⟩ else none

def decodeAm (n : Nat) : Option Am := (toFin 5 (n / 8)).map (fun m => ⟨m, fin8 n⟩)

def decodeClass (n : Nat) : Option PtrClass :=
  match n with | 0 => some .p | 1 => some .n | 2 => some .m | 3 => some .b | _ => none

def decodeCond (n : Nat) : Option SelCond :=
  match n with | 0 => some .z | 1 => some .notZ | 2 => some .n | 3 => some .notN | 4 => some .nOrZ | 5 => some .neither | _ => none

def decodeView (n : Nat) : AccView := match n with | 0 => .limited | 1 => .top | 2 => .mid | _ => .bot

/-- The signed reading of a 5-bit shift count, if it is one ASH admits. -/
def ashCount (k : BitVec 5) : Int := k.toInt

/-- The instruction a code word encodes, if any. -/
def decodeVoler (w : Word) : Option Voler :=
  let f (hi lo : Nat) : Nat := bitsOf w hi lo
  let d := fin16 (f 23 20)
  let s := fin16 (f 19 16)
  let t := fin16 (f 15 12)
  let a := fin4 (f 23 22)
  let zero (hi lo : Nat) (i : Option Voler) : Option Voler := if f hi lo = 0 then i else none
  match f 31 24 with
  | 0x00 => zero 23 0 (some .nop)
  | 0x01 =>
    if f 22 16 = 0 ∨ f 15 0 = 0 then none
    else (toFin 128 (f 22 16)).map (fun l => .loop (bitOf w 23) l (BitVec.ofNat 16 (f 15 0)))
  | 0x02 => zero 23 0 (some .end_)
  | 0x10 => some (.ldi d (BitVec.ofNat 20 (f 19 0)))
  | 0x11 => zero 19 12 (some (.ldih d (BitVec.ofNat 12 (f 11 0))))
  | 0x12 => zero 16 16 ((decodeClass (f 23 21)).map (fun c => .lda c (fin8 (f 20 18)) (bitOf w 17) (BitVec.ofNat 16 (f 15 0))))
  | 0x13 => zero 16 16 (zero 11 0 ((decodeClass (f 23 21)).map (fun c => .mva c (fin8 (f 20 18)) (bitOf w 17) t)))
  | 0x14 => zero 15 0 (some (.mov d s))
  | 0x15 => zero 7 0 ((decodeCond (f 11 8)).map (fun c => .sel d s t c))
  | 0x20 => zero 19 6 ((decodeAm (f 5 0)).map (.ld d))
  | 0x21 => zero 19 6 ((decodeAm (f 5 0)).map (.st d))
  | 0x22 =>
    match decodeAm (f 5 0), decodeAm (f 11 6) with
    | some x, some y => if x.p = y.p ∨ d = s then none else zero 15 12 (some (.ld2 d s x y))
    | _, _ => none
  | 0x23 => zero 20 6 ((decodeAm (f 5 0)).map (.sta a (bitOf w 21)))
  | 0x30 => zero 10 0 (some (.add d s t (bitOf w 11)))
  | 0x31 => zero 10 0 (some (.sub d s t (bitOf w 11)))
  | 0x32 => zero 15 12 (zero 10 0 (some (.neg d s (bitOf w 11))))
  | 0x33 => zero 15 12 (zero 10 0 (some (.abs d s (bitOf w 11))))
  | 0x34 => zero 11 0 (some (.and d s t))
  | 0x35 => zero 11 0 (some (.or d s t))
  | 0x36 => zero 11 0 (some (.xor d s t))
  | 0x37 => zero 15 12 (zero 5 0 ((toFin 24 (f 10 6)).map (.shl d s (bitOf w 11))))
  | 0x38 => zero 15 11 (zero 5 0 ((toFin 24 (f 10 6)).map (.shr d s)))
  | 0x39 => zero 23 20 (zero 11 0 (some (.cmp s t)))
  | 0x3A => zero 11 0 (some (.min d s t))
  | 0x3B => zero 11 0 (some (.max d s t))
  | 0x3C => zero 15 13 (some (.addi d s (bitOf w 12) (BitVec.ofNat 12 (f 11 0))))
  | 0x40 => zero 11 0 (some (.mac a (bitOf w 21) (bitOf w 20) s t))
  | 0x41 => zero 3 0 (some (.mac2 a (bitOf w 21) (bitOf w 20) s t (fin16 (f 11 8)) (fin16 (f 7 4))))
  | 0x42 =>
    if a = fin4 (f 21 20) then none
    else zero 1 0 (some (.dmac a (fin4 (f 21 20)) s t (fin16 (f 11 8)) (fin16 (f 7 4)) (bitOf w 3) (bitOf w 2)))
  | 0x43 => zero 15 6 ((decodeAm (f 5 0)).map (.macm a (bitOf w 21) (bitOf w 20) s))
  | 0x44 =>
    let pc := fin8 (f 19 17)
    let pd := fin8 (f 16 14)
    let dm := fin16 (f 13 10)
    let dk := fin16 (f 9 6)
    if pc = pd ∨ (f 5 4 ≠ 3 ∧ dm = dk) then none
    else zero 2 0 (some (.tapx a (bitOf w 21) (bitOf w 20) pc pd dm dk (fin4 (f 5 4)) (bitOf w 3)))
  | 0x48 => zero 18 0 (some (.adda a (fin4 (f 21 20)) (bitOf w 19)))
  | 0x49 => zero 21 20 (zero 12 0 ((toFin 5 (f 15 13)).map (.accld a s)))
  | 0x4A =>
    let k := BitVec.ofNat 5 (f 12 8)
    if ashCount k < -8 ∨ 8 < ashCount k then none else zero 21 13 (zero 7 0 (some (.ash a k)))
  | 0x4B =>
    if bitOf w 21 ∧ f 20 19 ≠ 0 then none
    else zero 18 16 (zero 11 0 (some (.rda a (bitOf w 21) (decodeView (f 20 19)) t)))
  | 0x50 => zero 19 0 (some (.rdesr d))
  | 0x51 => zero 23 14 (zero 7 7 (zero 3 3 (some (.wresr (BitVec.ofNat 6 (f 13 8)) (BitVec.ofNat 3 (f 6 4)) (BitVec.ofNat 3 (f 2 0))))))
  | _ => none

/-! ## Encoding (13 Tables 13-2 to 13-4) -/

/-- A word from its operation code and the fields given with their lowest bits. -/
def codeWord (op : Nat) (l : List (Nat × Nat)) : Word :=
  BitVec.ofNat 32 (l.foldl (fun a x => a + x.1 * 2 ^ x.2) (op * 2 ^ 24))

def encodeAm (m : Am) : Nat := 8 * (m.mode : Nat) + m.p

def encodeClass (c : PtrClass) : Nat := match c with | .p => 0 | .n => 1 | .m => 2 | .b => 3

def encodeCond (c : SelCond) : Nat :=
  match c with | .z => 0 | .notZ => 1 | .n => 2 | .notN => 3 | .nOrZ => 4 | .neither => 5

def encodeView (v : AccView) : Nat := match v with | .limited => 0 | .top => 1 | .mid => 2 | .bot => 3

end Sys2Proof.Machine

namespace Sys2Proof
open Machine

/-- The instructions that have a word: the field values Table 13-3 admits. -/
def Voler.encodable : Voler → Bool
  | .loop _ len n => (len : Nat) != 0 && n != 0
  | .ld2 d e x y => x.p != y.p && d != e
  | .dmac a b _ _ _ _ _ _ => a != b
  | .tapx _ _ _ pc pd dm dk xm _ => pc != pd && (xm == 3 || dm != dk)
  | .ash _ k => decide (-8 ≤ k.toInt ∧ k.toInt ≤ 8)
  | .rda _ r v _ => !r || v == .limited
  | _ => true

/-- The code word of an instruction. -/
def encodeVoler : Voler → Word
  | .nop => codeWord 0x00 []
  | .loop k len n => codeWord 0x01 [(b2n k, 23), (len, 16), (n.toNat, 0)]
  | .end_ => codeWord 0x02 []
  | .ldi d imm => codeWord 0x10 [(d, 20), (imm.toNat, 0)]
  | .ldih d imm => codeWord 0x11 [(d, 20), (imm.toNat, 0)]
  | .lda c i rel imm => codeWord 0x12 [(encodeClass c, 21), (i, 18), (b2n rel, 17), (imm.toNat, 0)]
  | .mva c i toD d => codeWord 0x13 [(encodeClass c, 21), (i, 18), (b2n toD, 17), (d, 12)]
  | .mov d s => codeWord 0x14 [(d, 20), (s, 16)]
  | .sel d s t c => codeWord 0x15 [(d, 20), (s, 16), (t, 12), (encodeCond c, 8)]
  | .ld d m => codeWord 0x20 [(d, 20), (encodeAm m, 0)]
  | .st d m => codeWord 0x21 [(d, 20), (encodeAm m, 0)]
  | .ld2 d e x y => codeWord 0x22 [(d, 20), (e, 16), (encodeAm y, 6), (encodeAm x, 0)]
  | .sta a r m => codeWord 0x23 [(a, 22), (b2n r, 21), (encodeAm m, 0)]
  | .add d s t sat => codeWord 0x30 [(d, 20), (s, 16), (t, 12), (b2n sat, 11)]
  | .sub d s t sat => codeWord 0x31 [(d, 20), (s, 16), (t, 12), (b2n sat, 11)]
  | .neg d s sat => codeWord 0x32 [(d, 20), (s, 16), (b2n sat, 11)]
  | .abs d s sat => codeWord 0x33 [(d, 20), (s, 16), (b2n sat, 11)]
  | .and d s t => codeWord 0x34 [(d, 20), (s, 16), (t, 12)]
  | .or d s t => codeWord 0x35 [(d, 20), (s, 16), (t, 12)]
  | .xor d s t => codeWord 0x36 [(d, 20), (s, 16), (t, 12)]
  | .shl d s sat k => codeWord 0x37 [(d, 20), (s, 16), (b2n sat, 11), (k, 6)]
  | .shr d s k => codeWord 0x38 [(d, 20), (s, 16), (k, 6)]
  | .cmp s t => codeWord 0x39 [(s, 16), (t, 12)]
  | .min d s t => codeWord 0x3A [(d, 20), (s, 16), (t, 12)]
  | .max d s t => codeWord 0x3B [(d, 20), (s, 16), (t, 12)]
  | .addi d s sat imm => codeWord 0x3C [(d, 20), (s, 16), (b2n sat, 12), (imm.toNat, 0)]
  | .mac a sub clr s t => codeWord 0x40 [(a, 22), (b2n sub, 21), (b2n clr, 20), (s, 16), (t, 12)]
  | .mac2 a sub clr s t u v => codeWord 0x41 [(a, 22), (b2n sub, 21), (b2n clr, 20), (s, 16), (t, 12), (u, 8), (v, 4)]
  | .dmac a b s t u v x y => codeWord 0x42 [(a, 22), (b, 20), (s, 16), (t, 12), (u, 8), (v, 4), (b2n x, 3), (b2n y, 2)]
  | .macm a sub clr s m => codeWord 0x43 [(a, 22), (b2n sub, 21), (b2n clr, 20), (s, 16), (encodeAm m, 0)]
  | .tapx a sub mv pc pd dm dk xm dir =>
    codeWord 0x44 [(a, 22), (b2n sub, 21), (b2n mv, 20), (pc, 17), (pd, 14), (dm, 10), (dk, 6), (xm, 4), (b2n dir, 3)]
  | .adda a b sub => codeWord 0x48 [(a, 22), (b, 20), (b2n sub, 19)]
  | .accld a s pos => codeWord 0x49 [(a, 22), (s, 16), (pos, 13)]
  | .ash a k => codeWord 0x4A [(a, 22), (k.toNat, 8)]
  | .rda a r v d => codeWord 0x4B [(a, 22), (b2n r, 21), (encodeView v, 19), (d, 12)]
  | .rdesr d => codeWord 0x50 [(d, 20)]
  | .wresr clear mask val => codeWord 0x51 [(clear.toNat, 8), (mask.toNat, 4), (val.toNat, 0)]

end Sys2Proof

namespace Sys2Proof

/-- Engine cycles of an instruction (13 Table 13-3). -/
def Voler.cycles : Voler → Nat
  | .loop _ _ _ => 2
  | .end_ => 4
  | .sta _ _ _ => 2
  | _ => 1

end Sys2Proof

namespace Sys2Proof.Machine

/-! ## Registers of a bank -/

def Bank.dReg (x : Bank) (i : Fin 16) : BitVec 24 := kget 0 x.d i
def Bank.dVal (x : Bank) (i : Fin 16) : Int := (x.dReg i).toInt
def Bank.setD (x : Bank) (i : Fin 16) (v : BitVec 24) : Bank := { x with d := kput 0 x.d i v }
def Bank.acc (x : Bank) (i : Fin 4) : BitVec 56 := kget 0 x.a i
def Bank.setAcc (x : Bank) (i : Fin 4) (v : BitVec 56) : Bank := { x with a := kput 0 x.a i v }
def Bank.pReg (x : Bank) (i : Fin 8) : Nat := (kget (0 : BitVec 16) x.p i).toNat
def Bank.nVal (x : Bank) (i : Fin 8) : Int := (kget (0 : BitVec 16) x.n i).toInt
def Bank.mReg (x : Bank) (i : Fin 8) : Nat := (kget (0 : BitVec 16) x.m i).toNat
def Bank.bReg (x : Bank) (i : Fin 8) : Nat := (kget (0 : BitVec 16) x.b i).toNat
def Bank.pendOf (x : Bank) (i : Fin 8) : Option (BitVec 16) := kget none x.pend i

/-- `v` modulo 32,768, as P, B and M registers hold it (R288, R289). -/
def mod15 (v : Int) : BitVec 16 := BitVec.ofNat 16 (v % 32768).toNat

def Bank.flag (x : Bank) (i : Nat) : Bool := bitOf x.esr i
def Bank.setFlag (x : Bank) (i : Nat) (v : Bool) : Bank := { x with esr := setBitsOf x.esr i i (b2n v) }
/-- A sticky flag is set by a condition and kept otherwise. -/
def Bank.stick (x : Bank) (i : Nat) (c : Bool) : Bank := if c then x.setFlag i true else x

/-! ## Pointers (R288, R289) -/

/-- The pending length becomes active. -/
def Bank.pendTaken (x : Bank) (i : Fin 8) : Bank :=
  match x.pendOf i with
  | some l => { x with m := kput 0 x.m i l, pend := kput none x.pend i none }
  | none => x

def Bank.rawP (x : Bank) (i : Fin 8) (v : Int) : Bank := { x with p := kput 0 x.p i (mod15 v) }

/-- A write of Pi: a pending length becomes active at once. -/
def Bank.setP (x : Bank) (i : Fin 8) (v : Int) : Bank := (x.pendTaken i).rawP i v
def Bank.setN (x : Bank) (i : Fin 8) (v : BitVec 16) : Bank := { x with n := kput 0 x.n i v }
def Bank.setB (x : Bank) (i : Fin 8) (v : Int) : Bank := { x with b := kput 0 x.b i (mod15 v) }

/-- A write of Mi: at once in a linear buffer, pending in a circular one. -/
def Bank.setM (x : Bank) (i : Fin 8) (v : Int) : Bank :=
  if x.mReg i = 0 then { x with m := kput 0 x.m i (mod15 v), pend := kput none x.pend i none }
  else { x with pend := kput none x.pend i (some (mod15 v)) }

/-- Post-modify Pi by a step. -/
def Bank.step (x : Bank) (i : Fin 8) (n : Int) : Bank :=
  let q := (x.pReg i : Int) + n
  let l := x.mReg i
  let b := x.bReg i
  if l = 0 then x.rawP i q
  else if (b + l : Int) ≤ q then (x.rawP i (q - l)).pendTaken i
  else if q < b then
    let x := x.pendTaken i
    x.rawP i (q + x.mReg i)
  else x.rawP i q

/-- The address a step from Pi would reach with the active length (R304). -/
def Bank.stepAddr (x : Bank) (i : Fin 8) (n : Int) : Nat :=
  let q := (x.pReg i : Int) + n
  let l := x.mReg i
  let b := x.bReg i
  (mod15 (if l = 0 then q else if (b + l : Int) ≤ q then q - l else if q < b then q + l else q)).toNat

/-- The address of an access, and the bank after its post-modify. -/
def Bank.access (x : Bank) (m : Am) : Nat × Bank :=
  match m.mode with
  | 0 => (x.pReg m.p, x)
  | 1 => (x.pReg m.p, x.step m.p 1)
  | 2 => (x.pReg m.p, x.step m.p (-1))
  | 3 => (x.pReg m.p, x.step m.p (x.nVal m.p))
  | 4 => ((mod15 (x.pReg m.p + x.nVal m.p)).toNat, x)

/-! ## Products and accumulators (R284-R286) -/

/-- The exact product as it enters an accumulator. -/
def Bank.product (x : Bank) (a b : Int) : Int := if x.flag 2 then 2 * (a * b) else a * b

/-- Accumulator i takes an exact sum. -/
def Bank.accSum (x : Bank) (i : Fin 4) (v : Int) : Bank :=
  let above := decide (v < -(2 ^ 55) ∨ 2 ^ 55 - 1 < v)
  let w := if above && x.flag 0 then clampI (-(2 ^ 55)) (2 ^ 55 - 1) v else v
  (x.setAcc i (BitVec.ofInt 56 w)).stick (8 + i) above

/-- Start value and sign of a multiply-accumulate. -/
def Bank.accBase (x : Bank) (i : Fin 4) (clr : Bool) : Int := if clr then 0 else (x.acc i).toInt
def signed (sub : Bool) (v : Int) : Int := if sub then -v else v

/-- v / 2^24 rounded: toward minus infinity, or to nearest with ties to even or upward. -/
def roundRead (r ties : Bool) (v : Int) : Int :=
  let q := idiv v (2 ^ 24)
  let f := v - q * 2 ^ 24
  if !r then q
  else if 2 ^ 23 < f then q + 1
  else if f = 2 ^ 23 then (if ties || q % 2 != 0 then q + 1 else q)
  else q

/-- A limited read of accumulator i (R286): the value, and the bank with L. -/
def Bank.limited (x : Bank) (i : Fin 4) (r : Bool) : BitVec 24 × Bank :=
  let q := roundRead r (x.flag 1) (x.acc i).toInt
  let c := satS 24 q
  (BitVec.ofInt 24 c, x.stick 12 (c != q))

/-- A 24-bit ALU result: wrapped, or clamped with S (R287). -/
def Bank.alu (x : Bank) (d : Fin 16) (sat : Bool) (v : Int) : Bank :=
  if sat then (x.setD d (BitVec.ofInt 24 (satS 24 v))).stick 13 (satS 24 v != v)
  else x.setD d (BitVec.ofInt 24 v)

/-! ## One instruction -/

/-- A kernel's view while it runs: its bank, the local data memory, and its region. -/
structure Ctx where
  x : Bank
  mem : KMap Word
  base : Nat
  words : Nat
deriving DecidableEq, Repr

def Ctx.inside (c : Ctx) (a : Nat) : Bool := decide (c.base ≤ a ∧ a < c.base + c.words)
/-- Bits [23:0] of a data word. -/
def Ctx.load (c : Ctx) (a : Nat) : BitVec 24 := (kget 0 c.mem a).setWidth 24
/-- Store a sample, sign-extended (R274). -/
def Ctx.store (c : Ctx) (a : Nat) (v : BitVec 24) : Ctx := { c with mem := kput 0 c.mem a (v.signExtend 32) }

/-- Read through an address field; none: outside the region. -/
def Ctx.read (c : Ctx) (m : Am) : Option (BitVec 24 × Ctx) :=
  let (a, x) := c.x.access m
  if c.inside a then some (c.load a, { c with x := x }) else none

/-- Write through an address field. -/
def Ctx.write (c : Ctx) (m : Am) (v : BitVec 24) : Option Ctx :=
  let (a, x) := c.x.access m
  if c.inside a then some ({ c with x := x }.store a v) else none

def selHolds (x : Bank) : SelCond → Bool
  | .z => x.flag 16
  | .notZ => !x.flag 16
  | .n => x.flag 17
  | .notN => !x.flag 17
  | .nOrZ => x.flag 17 || x.flag 16
  | .neither => !(x.flag 17 || x.flag 16)

/-- The iteration number of the innermost loop; 0 outside any (R304). -/
def Bank.iteration (x : Bank) : Nat :=
  match x.loops with
  | l :: _ => l.count - l.lc
  | [] => 0

/-- TAPX (R304). -/
def Ctx.tapx (c : Ctx) (a : Fin 4) (sub move : Bool) (pc pd : Fin 8) (dm dk : Fin 16) (xm : Fin 4) (dir : Bool) :
    Option Ctx :=
  let ac := c.x.pReg pc
  let ad := c.x.pReg pd
  let tgt := c.x.stepAddr pd (if dir then -1 else 1)
  if !c.inside ac || !c.inside ad || (move && !c.inside tgt) then none
  else
    let k := c.load ac
    let v := c.load ad
    let m := c.x.dVal dm
    let better := match xm with
      | 0 => decide (m < v.toInt)
      | 1 => decide (v.toInt < m)
      | 2 => decide (m.natAbs < v.toInt.natAbs)
      | 3 => false
    let j := c.x.iteration
    let x := c.x.accSum a ((c.x.acc a).toInt + signed sub (c.x.product k.toInt v.toInt))
    let x := if better then (x.setD dm v).setD dk (BitVec.ofNat 24 j) else x
    let x := (x.step pc 1).step pd (if dir then 1 else -1)
    let c := { c with x := x }
    some (if move then c.store tgt v else c)

/-- Raw view of an accumulator (R286). -/
def accView (v : BitVec 56) : AccView → BitVec 24
  | .limited => 0
  | .top => BitVec.ofNat 24 (v.toNat / 2 ^ 32)
  | .mid => BitVec.ofNat 24 (v.toNat / 2 ^ 8)
  | .bot => BitVec.ofNat 24 (v.toNat % 256)

/-- ACCLD (Table 13-3). -/
def accLoad (v : BitVec 56) (s : BitVec 24) (pos : Fin 5) : BitVec 56 :=
  let n := v.toNat
  match pos with
  | 0 => s.signExtend 56
  | 1 => BitVec.ofInt 56 (s.toInt * 2 ^ 24)
  | 2 => BitVec.ofNat 56 (s.toNat * 2 ^ 32 + n % 2 ^ 32)
  | 3 => BitVec.ofNat 56 (n / 2 ^ 32 * 2 ^ 32 + s.toNat * 2 ^ 8 + n % 2 ^ 8)
  | 4 => BitVec.ofNat 56 (n / 2 ^ 8 * 2 ^ 8 + s.toNat % 2 ^ 8)

/-- Write and read of a pointer-class register. -/
def Bank.setPtr (x : Bank) (c : PtrClass) (i : Fin 8) (v : BitVec 16) : Bank :=
  match c with
  | .p => x.setP i v.toNat
  | .n => x.setN i v
  | .m => x.setM i v.toNat
  | .b => x.setB i v.toNat

def Bank.getPtr (x : Bank) (c : PtrClass) (i : Fin 8) : BitVec 24 :=
  match c with
  | .p => BitVec.ofNat 24 (x.pReg i)
  | .n => BitVec.ofInt 24 (x.nVal i)
  | .m => BitVec.ofNat 24 (x.mReg i)
  | .b => BitVec.ofNat 24 (x.bReg i)

/-- The effect of an instruction other than its place in the code; none: an access outside the region. -/
def Ctx.exec (c : Ctx) : Voler → Option Ctx
  | .nop | .loop _ _ _ | .end_ => some c
  | .ldi d imm => some { c with x := c.x.setD d (imm.signExtend 24) }
  | .ldih d imm => some { c with x := c.x.setD d (BitVec.ofNat 24 (imm.toNat * 4096 + (c.x.dReg d).toNat % 4096)) }
  | .lda k i rel imm =>
    some { c with x := c.x.setPtr k i (if rel then mod15 (c.base + imm.toNat : Nat) else imm) }
  | .mva k i toD d =>
    some { c with x := if toD then c.x.setD d (c.x.getPtr k i) else c.x.setPtr k i ((c.x.dReg d).setWidth 16) }
  | .mov d s => some { c with x := c.x.setD d (c.x.dReg s) }
  | .sel d s t k => some { c with x := c.x.setD d (if selHolds c.x k then c.x.dReg s else c.x.dReg t) }
  | .ld d am => (c.read am).map (fun (v, c) => { c with x := c.x.setD d v })
  | .st d am => c.write am (c.x.dReg d)
  | .ld2 d e m1 m2 =>
    match c.read m1 with
    | some (v, c) => (c.read m2).map (fun (w, c) => { c with x := (c.x.setD d v).setD e w })
    | none => none
  | .sta a r am =>
    let (v, x) := c.x.limited a r
    { c with x := x }.write am v
  | .add d s t sat => some { c with x := c.x.alu d sat (c.x.dVal s + c.x.dVal t) }
  | .sub d s t sat => some { c with x := c.x.alu d sat (c.x.dVal s - c.x.dVal t) }
  | .neg d s sat => some { c with x := c.x.alu d sat (-c.x.dVal s) }
  | .abs d s sat => some { c with x := c.x.alu d sat (c.x.dVal s).natAbs }
  | .and d s t => some { c with x := c.x.setD d (c.x.dReg s &&& c.x.dReg t) }
  | .or d s t => some { c with x := c.x.setD d (c.x.dReg s ||| c.x.dReg t) }
  | .xor d s t => some { c with x := c.x.setD d (c.x.dReg s ^^^ c.x.dReg t) }
  | .shl d s sat k => some { c with x := c.x.alu d sat (c.x.dVal s * 2 ^ (k : Nat)) }
  | .shr d s k => some { c with x := c.x.setD d (BitVec.ofInt 24 (idiv (c.x.dVal s) (2 ^ (k : Nat)))) }
  | .cmp s t => some { c with x := (c.x.setFlag 16 (c.x.dReg s == c.x.dReg t)).setFlag 17 (decide (c.x.dVal s < c.x.dVal t)) }
  | .min d s t => some { c with x := c.x.setD d (if c.x.dVal s ≤ c.x.dVal t then c.x.dReg s else c.x.dReg t) }
  | .max d s t => some { c with x := c.x.setD d (if c.x.dVal s ≤ c.x.dVal t then c.x.dReg t else c.x.dReg s) }
  | .addi d s sat imm => some { c with x := c.x.alu d sat (c.x.dVal s + imm.toInt) }
  | .mac a sub clr s t =>
    some { c with x := c.x.accSum a (c.x.accBase a clr + signed sub (c.x.product (c.x.dVal s) (c.x.dVal t))) }
  | .mac2 a sub clr s t u v =>
    some { c with x := c.x.accSum a (c.x.accBase a clr
      + signed sub (c.x.product (c.x.dVal s) (c.x.dVal t) + c.x.product (c.x.dVal u) (c.x.dVal v))) }
  | .dmac a b s t u v sa sb =>
    let y := c.x.accSum a ((c.x.acc a).toInt + signed sa (c.x.product (c.x.dVal s) (c.x.dVal t)))
    some { c with x := y.accSum b ((c.x.acc b).toInt + signed sb (c.x.product (c.x.dVal u) (c.x.dVal v))) }
  | .macm a sub clr s am =>
    let n := c.x.dVal s
    (c.read am).map (fun (v, c) => { c with x := c.x.accSum a (c.x.accBase a clr + signed sub (c.x.product n v.toInt)) })
  | .tapx a sub move pc pd dm dk xm dir => c.tapx a sub move pc pd dm dk xm dir
  | .adda a b sub => some { c with x := c.x.accSum a ((c.x.acc a).toInt + signed sub (c.x.acc b).toInt) }
  | .accld a s pos => some { c with x := c.x.setAcc a (accLoad (c.x.acc a) (c.x.dReg s) pos) }
  | .ash a k =>
    let n := ashCount k
    let v := (c.x.acc a).toInt
    some { c with x := if 0 ≤ n then c.x.accSum a (v * 2 ^ n.toNat) else c.x.setAcc a (BitVec.ofInt 56 (idiv v (2 ^ (-n).toNat))) }
  | .rda a r view d =>
    match view with
    | .limited =>
      let (v, x) := c.x.limited a r
      some { c with x := x.setD d v }
    | _ => some { c with x := c.x.setD d (accView (c.x.acc a) view) }
  | .rdesr d => some { c with x := c.x.setD d (c.x.esr.setWidth 24) }
  | .wresr clear mask val =>
    let e := c.x.esr &&& ~~~ (wordN (clear.toNat * 256))
    some { c with x := { c.x with esr := keepBits e (wordN val.toNat) (0xFFFFFFF8 + (7 - mask.toNat)) } }

/-- Where the code goes on after word `pc`: ends of loop bodies are counted, innermost first (R305). -/
def nextPc : List HwLoop → Nat → Nat × List HwLoop
  | [], pc => (pc + 1, [])
  | l :: t, pc =>
    if l.stop ≠ pc then (pc + 1, l :: t)
    else if 1 < l.lc then (l.start, { l with lc := l.lc - 1 } :: t)
    else nextPc t pc

/-- The bank goes on to its next word; LOOP begins its loop. -/
def Bank.advance (x : Bank) (i : Voler) : Bank :=
  match i with
  | .loop k len n =>
    { x with pc := x.pc + 1, loops := ⟨k, x.pc + 1, x.pc + len, n.toNat, n.toNat⟩ :: x.loops }
  | _ =>
    let (pc, l) := nextPc x.loops x.pc
    { x with pc := pc, loops := l }

/-- The status word END writes (R306). -/
def statusWord (esr : Word) : Word :=
  wordN (bitsOf esr 11 8 + 16 * bitsOf esr 12 12 + 32 * bitsOf esr 13 13 + 64 * bitsOf esr 2 2 + 128 * bitsOf esr 1 1
    + 256 * bitsOf esr 0 0)

end Sys2Proof.Machine
end

