-- ==== Sys2Proof/Machine/Kernels.lean ====
section
/-! DEFINITION. Kernel images, their load-time analysis and the kernel commands (13 R297-R300, R307-R312). -/
namespace Sys2Proof.Machine

/-! ## The image (R297) -/

def imageCode (b : List Byte) : List Word :=
  (List.range (leAt b 8 2)).map (fun i => BitVec.ofNat 32 (leAt b (64 + 4 * i) 4))

def imageInit (b : List Byte) : List Word :=
  (List.range (leAt b 24 2)).map (fun i => BitVec.ofNat 32 (leAt b (64 + 4 * leAt b 8 2 + 4 * i) 4))

def parseKernel (b : List Byte) : Kernel :=
  { tag := BitVec.ofNat 32 (leAt b 28 4), modes := leAt b 7 1, region := leAt b 10 2, inOfs := leAt b 12 2,
    inLen := leAt b 14 2, stateOfs := leAt b 16 2, stateLen := leAt b 18 2, outOfs := leAt b 20 2, outLen := leAt b 22 2,
    code := imageCode b, init := imageInit b, cycles := 0 }

/-- Reason 1: the header and the CRC. -/
def headerBad (b : List Byte) (len : Nat) : Bool :=
  let cw := leAt b 8 2
  let rw_ := leAt b 10 2
  leAt b 0 4 != 0x4B4C4F56 || leAt b 4 2 != 1 || leAt b 6 1 != 1 || decide (8 ≤ leAt b 7 1) || decide (cw < 2 ∨ 32768 < cw)
    || decide (rw_ < 1 ∨ 32768 < rw_) || leAt b 26 2 != 0 || (b.drop 32).take 28 != List.replicate 28 0
    || len != 64 + 4 * (cw + leAt b 24 2) || leAt b 60 4 != (crc32 (b.take 60 ++ (b.drop 64).take (len - 64))).toNat

/-- Two word areas share a word. -/
def areasMeet (a n b m : Nat) : Bool := decide (0 < n ∧ 0 < m ∧ a < b + m ∧ b < a + n)

/-- Reason 2: the areas. -/
def Kernel.areasBad (k : Kernel) : Bool :=
  decide (k.region < k.inOfs + k.inLen ∨ k.region < k.stateOfs + k.stateLen ∨ k.region < k.outOfs + k.outLen)
    || areasMeet k.inOfs k.inLen k.stateOfs k.stateLen || areasMeet k.inOfs k.inLen k.outOfs k.outLen
    || areasMeet k.stateOfs k.stateLen k.outOfs k.outLen || k.outLen == 0 || decide (k.stateLen < k.init.length)

/-! ## Reads and writes of registers (R308): D 0-15, A 16-19, P 20-27, N 28-35, M 36-43, B 44-51 -/

def rD (i : Fin 16) : Nat := i
def rA (i : Fin 4) : Nat := 16 + i
def rP (i : Fin 8) : Nat := 20 + i
def rN (i : Fin 8) : Nat := 28 + i
def rM (i : Fin 8) : Nat := 36 + i
def rB (i : Fin 8) : Nat := 44 + i
def rPtr (c : PtrClass) (i : Fin 8) : Nat := match c with | .p => rP i | .n => rN i | .m => rM i | .b => rB i

/-- Reads of an access; `circ`: pointers whose M may make their buffer circular. -/
def accessReads (circ : List Nat) (p : Fin 8) (withN : Bool) : List Nat :=
  [rP p, rM p] ++ (if withN then [rN p] else []) ++ (if circ.contains p then [rB p] else [])

def amReads (circ : List Nat) (m : Am) : List Nat := accessReads circ m.p (decide (3 ≤ (m.mode : Nat)))

end Sys2Proof.Machine

namespace Sys2Proof
open Machine

/-- The reads of an instruction that count. -/
def Voler.reads (circ : List Nat) : Voler → List Nat
  | .nop | .loop _ _ _ | .end_ | .ldi _ _ | .lda _ _ _ _ | .rdesr _ | .wresr _ _ _ => []
  | .ldih d _ => [rD d]
  | .mva c i toD d => if toD then [rPtr c i] else [rD d]
  | .mov _ s | .neg _ s _ | .abs _ s _ | .shl _ s _ _ | .shr _ s _ | .addi _ s _ _ => [rD s]
  | .sel _ s t _ | .add _ s t _ | .sub _ s t _ | .and _ s t | .or _ s t | .xor _ s t | .cmp s t | .min _ s t
  | .max _ s t => [rD s, rD t]
  | .ld _ m => amReads circ m
  | .st d m => rD d :: amReads circ m
  | .ld2 _ _ m n => amReads circ m ++ amReads circ n
  | .sta a _ m => rA a :: amReads circ m
  | .mac a _ clr s t => [rD s, rD t] ++ (if clr then [] else [rA a])
  | .mac2 a _ clr s t u v => [rD s, rD t, rD u, rD v] ++ (if clr then [] else [rA a])
  | .dmac a b s t u v _ _ => [rD s, rD t, rD u, rD v, rA a, rA b]
  | .macm a _ clr s m => rD s :: amReads circ m ++ (if clr then [] else [rA a])
  | .tapx a _ _ pc pd dm dk xm _ =>
    [rA a] ++ accessReads circ pc false ++ accessReads circ pd false ++ (if xm = 3 then [] else [rD dm, rD dk])
  | .adda a b _ => [rA a, rA b]
  | .accld a s pos => rD s :: (if (pos : Nat) < 2 then [] else [rA a])
  | .ash a _ => [rA a]
  | .rda a _ _ _ => [rA a]

/-- The registers an instruction writes. -/
def Voler.writes : Voler → List Nat
  | .ldi d _ | .ldih d _ | .mov d _ | .sel d _ _ _ | .ld d _ | .add d _ _ _ | .sub d _ _ _ | .neg d _ _ | .abs d _ _
  | .and d _ _ | .or d _ _ | .xor d _ _ | .shl d _ _ _ | .shr d _ _ | .min d _ _ | .max d _ _ | .addi d _ _ _
  | .rda _ _ _ d | .rdesr d => [rD d]
  | .ld2 d e _ _ => [rD d, rD e]
  | .lda c i _ _ => [rPtr c i]
  | .mva c i toD d => if toD then [rD d] else [rPtr c i]
  | .mac a _ _ _ _ | .mac2 a _ _ _ _ _ _ | .macm a _ _ _ _ | .adda a _ _ | .accld a _ _ | .ash a _ => [rA a]
  | .dmac a b _ _ _ _ _ _ => [rA a, rA b]
  | .tapx a _ _ _ _ dm dk xm _ => rA a :: (if xm = 3 then [] else [rD dm, rD dk])
  | _ => []

/-- The pointers whose M is known to be linear no more, or again, after an instruction. -/
def Voler.circAfter (circ : List Nat) : Voler → List Nat
  | .lda .m i _ imm => if imm = 0 then circ.filter (· != (i : Nat)) else (i : Nat) :: circ
  | .mva .m i false _ => (i : Nat) :: circ
  | _ => circ

end Sys2Proof

namespace Sys2Proof.Machine

/-- The first word that reads a register not yet written (R308). -/
def unwritten : List Voler → Nat → List Nat → List Nat → Option Nat
  | [], _, _, _ => none
  | i :: t, n, done_, circ =>
    if (i.reads circ).all (fun r => done_.contains r) then unwritten t (n + 1) (i.writes ++ done_) (i.circAfter circ)
    else some n

/-! ## Loops (R305, R309) -/

/-- Loops whose bodies hold word `n`: first and last word, counter, count. -/
def loopsAt (l : List (Nat × Nat × Bool × Nat)) (n : Nat) : List (Nat × Nat × Bool × Nat) :=
  l.filter (fun x => decide (x.1 ≤ n ∧ n ≤ x.2.1))

/-- The loops of a code: body's first and last word, counter, count. -/
def codeLoops (l : List Voler) : List (Nat × Nat × Bool × Nat) :=
  l.zipIdx.filterMap (fun (i, n) => match i with
    | .loop k len c => some (n + 1, n + len, k, c.toNat)
    | _ => none)

/-- Reason 6 of the loop at word `n`. -/
def nestBad (l : List (Nat × Nat × Bool × Nat)) (x : Nat × Nat × Bool × Nat) : Bool :=
  let outer := loopsAt l (x.1 - 1)
  decide (2 ≤ outer.length) || outer.any (fun y => y.2.2.1 == x.2.2.1 || decide (y.2.1 < x.2.1))

/-- The cycle count C (R309). -/
def cycleCount (l : List Voler) : Nat :=
  let loops := codeLoops l
  4 + (l.zipIdx.map (fun (i, n) => i.cycles * ((loopsAt loops n).map (·.2.2.2)).foldl (· * ·) 1)).foldl (· + ·) 0

/-- Reason and failing word of a code, or its cycle count (Table 13-5). -/
def codeCheck (code : List Word) (region : Nat) : (Nat × Nat) ⊕ Nat :=
  match code.findIdx? (fun w => (decodeVoler w).isNone) with
  | some n => .inl (3, n)
  | none =>
    let l := code.filterMap decodeVoler
    match l.findIdx? (· == .end_) with
    | none => .inl (4, code.length - 1)
    | some n =>
      if n + 1 ≠ code.length then .inl (4, n)
      else
        let loops := codeLoops l
        match loops.find? (fun x => decide (code.length ≤ x.2.1 + 1)), loops.find? (nestBad loops), unwritten l 0 [] [],
            l.findIdx? (fun i => match i with
              | .lda c _ true imm => c == .n || c == .m || decide (region ≤ imm.toNat)
              | _ => false) with
        | some x, _, _, _ => .inl (5, x.1 - 1)
        | none, some x, _, _ => .inl (6, x.1 - 1)
        | none, none, some n, _ => .inl (7, n)
        | none, none, none, some n => .inl (8, n)
        | none, none, none, none => if 0xFFFFFFFF < cycleCount l then .inl (9, 0xFFFFFFFF) else .inr (cycleCount l)

/-- The whole analysis (R307). -/
def analyse (b : List Byte) (len : Nat) : (Nat × Nat) ⊕ Kernel :=
  let k := parseKernel b
  if headerBad b len then .inl (1, 0xFFFFFFFF)
  else if k.areasBad then .inl (2, 0xFFFFFFFF)
  else match codeCheck k.code k.region with
    | .inl r => .inl r
    | .inr c => .inr { k with cycles := c }

/-! ## The kernel store and its commands (R299, R300, R311, R312) -/

def Dev.kernel (s : Dev) (h : Nat) : Option Kernel := kget none s.krn.store h
def Dev.setKrn (s : Dev) (f : Krn → Krn) : Dev := { s with krn := f s.krn }
def Dev.freeHandle (s : Dev) : Option Nat := (List.range 64).find? (fun h => (s.kernel h).isNone)

/-- A refusal: KRN_LASTERR and KRN_REFUSED. -/
def Dev.krnRefuse (s : Dev) (d : Desc) (st : Status) (tag : Word) (reason word_ : Nat) : Dev :=
  let s := s.setKrn (fun k => { k with lastErr := wordN (reason * 2 ^ 24 + word_ % 65536) })
  let s := s.event 12 4 0x0102 0xFF s.dt [tag.toNat, reason, word_]
  s.complete d st s.dt [wordN reason, wordN word_]

/-- KRN_LOAD. -/
def krnLoad (d : Desc) (img : HostBytes) (s : Dev) : Dev :=
  let len := (d.w 5).toNat
  let b := (s.fetch d (d.w64 3) img).take len
  if d.object ≠ 0 ∨ !s.addrOk d (d.w64 3) len then s.fail d .badDescriptor
  else
    match s.freeHandle with
    | none => s.krnRefuse d .reconfigBusy (BitVec.ofNat 32 (leAt b 28 4)) 10 0xFFFFFFFF
    | some h =>
      match analyse b len with
      | .inl (r, n) => s.krnRefuse d .badDescriptor (BitVec.ofNat 32 (leAt b 28 4)) r n
      | .inr k =>
        let s := s.setKrn (fun x => { x with store := kput none x.store h (some k) })
        let s := s.event 12 1 0x0101 h s.dt [k.tag.toNat, k.cycles, k.code.length]
        s.complete d .done s.dt [0, 0xFFFFFFFF, wordN h, wordN k.cycles]
def execKrnLoad (d : Desc) (img : HostBytes) (s : State) : Host.Outcome State Fault Refusal := s.updIn d img (krnLoad d img)

/-! ## What a duty runs (14 R316), and the handles in use (R300) -/

/-- The firmware of a class-2 duty as the engines run it: its areas, its BUDGET, and an END, since the firmware's
internals are not described (12, log entry 34). -/
def firmwareKernel (d : DutyDesc) : Kernel :=
  let f := Config.firmwareDuty d.id
  { tag := 0, modes := 0, region := f 10 + f 11 + max 1 (f 12) + f 13, inOfs := 0, inLen := f 10, stateOfs := f 10,
    stateLen := f 11, outOfs := f 10 + f 11, outLen := max 1 (f 12), code := [encodeVoler .end_], init := [],
    cycles := d.budget }

/-- The kernel a duty of class 1 runs, or the firmware of one of class 2. -/
def Dev.dutyKernel (s : Dev) (d : DutyDesc) : Option Kernel :=
  if d.cls = 1 then s.kernel d.handle else if d.cls = 2 then some (firmwareKernel d) else none

/-- A handle is named by an admitted duty, or by one whose removal is pending (R300). -/
def Dev.handleUsed (s : Dev) (h : Nat) : Bool :=
  let uses (m : KMap (Option Duty)) : Bool := (dutyList m).any (fun x => x.desc.cls == 1 && x.desc.handle == h)
  uses s.tlg.duties || (match s.tlg.pending with | some p => uses p.plan.duties | none => false)

/-- KRN_UNLOAD. -/
def krnUnload (d : Desc) (s : Dev) : Dev :=
  let h := bitsOf d.object 5 0
  if bitsOf d.object 31 6 ≠ 0 ∨ (s.kernel h).isNone then s.fail d .badDescriptor
  else if s.handleUsed h then s.fail d .reconfigBusy
  else (s.setKrn (fun k => { k with store := kput none k.store h none })).complete d .done s.dt []
def execKrnUnload (d : Desc) (s : State) : Host.Outcome State Fault Refusal := s.cmd d (krnUnload d)

/-- KRN_READ. -/
def krnRead (d : Desc) (s : Dev) : Dev :=
  if bitsOf d.object 31 6 ≠ 0 then s.fail d .badDescriptor
  else match s.kernel (bitsOf d.object 5 0) with
    | some k => s.complete d .done s.dt [k.tag, wordN k.cycles, wordN (k.code.length + 65536 * k.region), wordN k.modes]
    | none => s.fail d .badDescriptor
def execKrnRead (d : Desc) (s : State) : Host.Outcome State Fault Refusal := s.cmd d (krnRead d)

end Sys2Proof.Machine
end

