-- ==== Sys2Proof/Machine/Lpe.lean ====
section
/-! DEFINITION. The Loop Engine: frames, loop laws, hand-overs, parameter banks and feed-forward tables
(07). The whole frame is evaluated at its phase zero, on the snapshot of that instant (R156). -/
namespace Sys2Proof.Machine

/-! ## Sources (R156, R170) -/

/-- The fixed sources of an MSQ-owned loop (Table 7-6): SP, Y, VFF, AFF, POS. -/
def fixedSources (l : Nat) : Option (List Nat) :=
  if l = 0 then some [0x03, 0x01, 0x04, 0x05, 0x01]
  else if 2 ≤ l ∧ l ≤ 6 then
    let n := l - 2
    some [0x20 + n, 0x10 + n, 0x28 + n, 0x00, 0x10 + n]
  else if 8 ≤ l ∧ l ≤ 12 then
    let n := l - 8
    some [0x40 + 2 + n, 0x18 + n, 0x28 + n, 0x30 + n, 0x10 + n]
  else none

def LoopParams.sources (p : LoopParams) : List Nat := [p.sp, p.y, p.vff, p.aff, p.pos]

/-- The codes of Table 7-2. -/
def sourceValid (c : Nat) : Bool :=
  decide (c ≤ 5) || (decide (0x10 ≤ c) && decide (c ≤ 0x14)) || (decide (0x18 ≤ c) && decide (c ≤ 0x1C)) ||
  (decide (0x20 ≤ c) && decide (c ≤ 0x24)) || (decide (0x28 ≤ c) && decide (c ≤ 0x2C)) ||
  (decide (0x30 ≤ c) && decide (c ≤ 0x34)) || (decide (0x40 ≤ c) && decide (c ≤ 0x8F)) ||
  (decide (0x90 ≤ c) && decide (c ≤ 0x9F)) || (decide (0xC0 ≤ c) && decide (c ≤ 0xDF))

/-- The value of a source at the phase zero. -/
def Dev.source (s : Dev) (c : Nat) : Int :=
  if c = 1 then s.cpf.x
  else if c = 2 then s.cpf.v
  else if c = 3 then
    if s.hoist.sampleAt ≤ s.cpf.tk then s.hoist.kin.xUm else s.hoist.prior.xUm
  else if c = 4 then s.hoist.kin.vUm
  else if c = 5 then s.hoist.kin.aUm
  else if 0x10 ≤ c ∧ c < 0x15 then s.doorLatched (c - 0x10)
  else if 0x18 ≤ c ∧ c < 0x1D then s.doorSpeed (c - 0x18)
  else if 0x20 ≤ c ∧ c < 0x25 then idiv (s.axis (c - 0x20)).pf 256
  else if 0x28 ≤ c ∧ c < 0x2D then idiv (s.axis (c - 0x28)).vf 256
  else if 0x30 ≤ c ∧ c < 0x35 then idiv (s.axis (c - 0x30)).af 256
  else if 0x40 ≤ c ∧ c < 0x80 then (s.loop (c - 0x40)).chain
  else if 0x80 ≤ c ∧ c < 0x90 then s.phaseCurrent (c - 0x80)
  else if 0x90 ≤ c ∧ c < 0x98 then (s.chan (c - 0x90)).snapP
  else if 0x98 ≤ c ∧ c < 0xA0 then idiv (s.chan (c - 0x98)).snapSpeed 256
  else if 0xC0 ≤ c ∧ c < 0xE0 then kget 0 s.lpe.mailbox (c - 0xC0)
  else 0

/-- The five inputs of a loop under parameters. -/
structure LoopIn where
  sp : Int
  y : Int
  vff : Int
  aff : Int
  pos : Int
deriving DecidableEq, Repr

def Dev.loopIn (s : Dev) (l : Nat) (p : LoopParams) : LoopIn :=
  let c := (fixedSources l).getD p.sources
  ⟨s.source (c.getD 0 0), s.source (c.getD 1 0), s.source (c.getD 2 0), s.source (c.getD 3 0), s.source (c.getD 4 0)⟩

/-! ## Laws (R157, R158) -/

def LoopParams.dmeas (p : LoopParams) : Bool := tbit p.flags 0
def LoopParams.icond (p : LoopParams) : Bool := tbit p.flags 1
def LoopParams.useFric (p : LoopParams) : Bool := tbit p.flags 2
def LoopParams.useCog (p : LoopParams) : Bool := tbit p.flags 3
def LoopParams.iinit (p : LoopParams) : Nat := natBits p.flags 5 4

/-- A bad table was read: TABLE_BAD. -/
def Dev.tableBad (s : Dev) : Dev := s.setBit Reg.lpeStat 4 true

/-- The table force t of R157, mN; an empty or mistyped table reads 0 and sets TABLE_BAD, at every evaluation
of a loop with FRIC or COG set, whatever its law (R162). -/
def Dev.tableForce (s : Dev) (l : Nat) (p : LoopParams) (i : LoopIn) : Int × Dev :=
  let spd := if 8 ≤ l ∧ l ≤ 12 then i.y else 0
  let sense := if i.vff ≠ 0 then i.vff.sign else spd.sign
  let (f, s) := if p.useFric then
      match s.goodTable l 1 (p.tables % 16) with
      | some t => (t.fric i.pos sense, s)
      | none => (0, s.tableBad)
    else (0, s)
  if p.useCog then
    match s.goodTable l 2 (p.tables / 16) with
    | some t => (f + t.cog (s.chan t.chan).snapP, s)
    | none => (f, s.tableBad)
  else (f, s)

/-- The PIDF law: own output and the loop's new state (R157, R160). -/
def pidf (p : LoopParams) (x : Loop) (i : LoopIn) (t : Int) : Int × Loop :=
  let e := i.sp - i.y
  let yPrev := if x.first then i.y else x.yPrev
  let ePrev := if x.first then e else x.ePrev
  let hold := x.ffOnly || (p.icond && ((x.satHi && decide (0 < e)) || (x.satLo && decide (e < 0))))
  let b : Int := p.imax * 65536
  let iacc := if hold then x.iacc else clampI (-b) b (x.iacc + p.ki * e)
  let dx := if p.dmeas then i.y - yPrev else e - ePrev
  let alpha : Int := if p.alpha = 0 then 65536 else p.alpha
  let df := if x.ffOnly then x.df else x.df + idiv ((dx * 65536 - x.df) * alpha) 65536
  let d := if p.dmeas then idiv (-(p.kd * df)) (2 ^ 32) else idiv (p.kd * df) (2 ^ 32)
  let ff := idiv (p.kv * i.vff) 65536 + idiv (p.ka * i.aff) 65536 + idiv (p.kt * t) 65536
  let pid := if x.ffOnly then 0 else idiv (p.kp * e) 65536 + idiv iacc 65536 + d
  (pid + ff, { x with iacc := iacc, df := df })

/-- The biquad law on x = y - sp (R158). -/
def biquad (p : LoopParams) (x : Loop) (i : LoopIn) : Int × Loop :=
  let v := i.y - i.sp
  (idiv (p.kp * v + p.ki * x.x1 + p.kd * x.x2 - p.kv * x.u1 - p.ka * x.u2) (2 ^ 30),
   { x with x2 := x.x1, x1 := v })

/-- The own output under any law; y and e of every evaluation are kept for the next (R157). -/
def ownOutput (p : LoopParams) (x : Loop) (i : LoopIn) (t : Int) : Int × Loop :=
  let (u, z) := if p.law = 1 then pidf p x i t else if p.law = 2 then biquad p x i else (0, x)
  (u, { z with yPrev := i.y, ePrev := i.sp - i.y })

/-! ## The output (R159) and the hand-over (R168, R169) -/

/-- The hand-overs that fall to a sample: those decided at or before its phase zero. A door velocity loop
changes mode at the sample of its position loop, every eighth frame (R170); a commit's hand-over is at its next sample. -/
def Dev.dueHands (s : Dev) (l : Nat) : List Hand :=
  s.lpe.hands.filter (fun h => h.loop = l ∧ h.at_ ≤ s.lpe.phaseAt ∧ (8 ≤ l → l ≤ 12 → h.bank = true ∨ s.lpe.frame % 8 = 0))

/-- The one decided last; of two decided at one instant, the later in order. -/
def lastHand : List Hand → Option Hand
  | [] => none
  | h :: t =>
    match lastHand t with
    | some g => if h.at_ ≤ g.at_ then some g else some h
    | none => some h

/-- The hand-over made of those that are due in mode `m`: the last mode hand-over decided, unless it names
the active mode; a commit is applied before it, so its own hand-over comes second (R169, R171). -/
def madeHand (due : List Hand) (m : Nat) : Option Hand :=
  match lastHand (due.filter (fun h => !h.bank)) with
  | some h => if h.mode ≠ m then some h else lastHand (due.filter (·.bank))
  | none => lastHand (due.filter (·.bank))

/-- Mode b's integrator at the hand-over (R168). -/
def handIntegrator (p : LoopParams) (x : Loop) (b : Nat) : Int :=
  let held := kput 0 x.held x.mode x.iacc
  if p.iinit = 1 then 0 else if p.iinit = 2 then x.iacc else kget 0 held b

/-- Enter mode b: the integrator is set and a blend of B samples begins. -/
def Loop.handTo (x : Loop) (p : LoopParams) (b : Nat) : Loop :=
  { x with held := kput 0 x.held x.mode x.iacc, iacc := handIntegrator p x b, mode := b,
           blend := some ⟨x.u, 0, p.blend⟩ }

/-- The blended output of a sample, the blend after it, and whether it was the last (R168). -/
def blendStep (b : Blend) (own : Int) : Int × Option Blend × Bool :=
  if b.n = 0 then (own, none, true)
  else
    let u := b.hold + idiv ((own - b.hold) * (b.done_ + 1 : Nat)) b.n
    if b.done_ + 1 = b.n then (u, none, true) else (u, some { b with done_ := b.done_ + 1 }, false)

/-- LPE_CLAMP and the CLAMPED bits at an entry into a clamp (R159). -/
def Dev.clampEntry (s : Dev) (l : Nat) (x : Loop) (hi lo slew : Bool) (own u : Int) : Dev :=
  if (hi && !x.satHi) || (lo && !x.satLo) then
    let s := if s.bit (Reg.lpeLstat l) 6 then s
      else s.event 6 4 3 l s.lpe.phaseAt [own, u, b2n hi + 2 * b2n lo + 4 * b2n slew]
    (s.setBit (Reg.lpeLstat l) 6 true).setBit Reg.lpeStat 2 true
  else s

/-- The commands whose hand-over sample this is complete (R175). -/
def Dev.handsDone (s : Dev) (due : List Hand) (made : Option Hand) (hold own : Int) (step : Bool) : Dev :=
  let s := { s with lpe := { s.lpe with hands := s.lpe.hands.filter (fun h => !due.contains h) } }
  due.foldl (fun s h =>
    let mine := made == some h
    s.completeOpt h.desc .done s.lpe.phaseAt
      [wordI hold, wordI own, wordN (b2n (step && mine) + 2 * b2n (!mine))]) s

/-- One loop evaluation (R157-R159, R168): `rel` is the DT at which its group releases. -/
def Dev.evalLoop (s : Dev) (l slot rel : Nat) : Dev :=
  let x := s.loop l
  let due := s.dueHands l
  let made := madeHand due x.mode
  let was := x.mode
  let hold := x.u
  let x := match made with
    | some h => x.handTo (s.bank l h.mode) h.mode
    | none => x
  let p := s.bank l x.mode
  let i := s.loopIn l p
  let (t, s) := s.tableForce l p i
  let (own, x) := ownOutput p x i t
  let step := made.isSome && p.stepLim != 0xFFFFFFFF && decide (p.stepLim < (own - hold).natAbs)
  let s := if step then
      ((s.setBit (Reg.lpeLstat l) 7 true).setBit Reg.lpeStat 3 true).event 6 4 1 l s.lpe.phaseAt [was, x.mode, hold, own]
    else s
  let (u0, blend, last) := match x.blend with
    | some b => blendStep b own
    | none => (own, none, false)
  let u1 := if p.slew ≠ 0 ∧ !x.first then clampI (x.u - p.slew) (x.u + p.slew) u0 else u0
  let u := clampI p.umin p.umax u1
  let hi := decide (u1 < u0 ∨ u < u1)
  let lo := decide (u0 < u1 ∨ u1 < u)
  let s := s.clampEntry l x hi lo (u1 != u0) own u
  let s := if last then s.event 6 1 2 l s.lpe.phaseAt [x.mode, u] else s
  let s := s.setLoop l { x with
    blend := blend, satHi := hi, satLo := lo, u2 := x.u1, u1 := u, old := x.u, u := u, chain := u,
    relAt := rel, slot := slot, first := false, lastFrame := s.lpe.frame }
  s.handsDone due made hold own step

/-! ## The frame (R152, R154, R163, R171) -/

/-- A commit or swap decided at `t` is ready for a phase zero whose preceding frame tail began at or
after `t`: the tail begins 720 ns before it. -/
def Dev.tailReady (s : Dev) (t : Nat) : Bool := decide (t + 720 ≤ s.lpe.phaseAt)

/-- A parameter commit takes effect (R171). -/
def Dev.applyCommit (s : Dev) (c : LpeCommit) : Dev :=
  let s := (maskBits 64 c.mask).foldl (fun s l =>
    let m := (s.loop l).mode
    let changed := s.bank l m != s.bank l (4 + m)
    let s := (List.range 4).foldl (fun s k => s.setBank l k (s.bank l (4 + k))) s
    if c.blend && changed then
      { s with lpe := { s.lpe with hands := s.lpe.hands ++ [⟨l, m, true, c.at_, none⟩] } }
    else s) s
  s.complete c.desc .done s.lpe.phaseAt [wordN s.lpe.frame]

def Dev.applyCommits (s : Dev) : Dev :=
  let (now, later) := s.lpe.commits.partition (fun c => s.tailReady c.at_)
  now.foldl (fun s c => s.applyCommit c) { s with lpe := { s.lpe with commits := later } }

/-- Staged tables that are ready become current (R163). -/
def Dev.applySwaps (s : Dev) : Dev :=
  (List.range 16).foldl (fun s t =>
    match kget none s.lpe.staged t with
    | some g =>
      if s.tailReady g.at_ then
        let s := { s with lpe := { s.lpe with tables := kput none s.lpe.tables t (some g.table),
                                              staged := kput none s.lpe.staged t none } }
        let s := s.event 6 1 4 t s.lpe.phaseAt [g.table.entries.length, g.table.kind]
        s.complete g.desc .done s.lpe.phaseAt [wordN g.table.entries.length]
      else s
    | none => s) s

/-- Reads of the SSI channels begin at a phase zero; the general bridges take their new duties (03 R55,
06 R145). -/
def Dev.frameStarts (s : Dev) : Dev :=
  let s := (List.range 2).foldl (fun s m => s.ssiStart s.lpe.frame m) s
  (List.range 16).foldl (fun s b => let x := s.bridge b; s.setBridge b ⟨x.next, x.next, false⟩) s

/-- FRAME_PHASE_ZERO; no loop is evaluated while the ledger suspends its duties (17 R388). -/
def framePhaseZero (s : Dev) : Dev :=
  let f := s.lpe.frames
  let s := { s with lpe := { s.lpe with frame := f, frames := f + 1, phaseAt := s.dt } }
  let s := if f % 5 = 0 then s.closeCpf.setCpf (fun c => { c with tk := s.dt }) else s
  let s := (s.phaseLatch (f % 5 == 0)).frameStarts
  let s := s.applyCommits.applySwaps
  if s.pmu.suspended then s
  else
    ((frameLoops (groupList s.lpe.groups) f).zipIdx).foldl
      (fun s (x, i) => s.evalLoop x.1 i (s.lpe.phaseAt + 4 * x.2.2.release)) s

/-! ## Commands (R175) -/

def lpeLoop (d : Desc) : Nat := bitsOf d.object 5 0
def lpeMode (d : Desc) : Nat := bitsOf d.object 9 8
def lpeObjectOk (d : Desc) : Bool := Nat.land d.object.toNat 0xFFFFFCC0 == 0

/-- A parameter block (Table 7-10). -/
def parseParams (b : List Byte) : LoopParams :=
  { law := leAt b 0 1, flags := leAt b 1 1 % 64, sp := leAt b 2 1, y := leAt b 3 1, vff := leAt b 4 1,
    aff := leAt b 5 1, pos := leAt b 6 1, tables := leAt b 7 1, kp := leAtS b 8 4, ki := leAtS b 12 4,
    kd := leAtS b 16 4, kv := leAtS b 20 4, ka := leAtS b 24 4, kt := leAtS b 28 4, alpha := leAt b 32 2,
    blend := leAt b 34 1, umin := leAtS b 36 4, umax := leAtS b 40 4, slew := leAt b 44 4,
    imax := leAt b 48 4, stepLim := leAt b 52 4 }

/-- The refusals of R174. -/
def LoopParams.bad (p : LoopParams) (fixed : Bool) : Bool :=
  decide (2 < p.law) || (!fixed && !p.sources.all sourceValid) || decide (p.umax < p.umin) ||
    decide (64 < p.blend) || p.iinit == 3

/-- A commit that has not yet taken effect names a loop. -/
def Dev.commitPending (s : Dev) (l : Nat) : Bool := s.lpe.commits.any (fun c => tbit c.mask l)

/-- The source fields of an MSQ-owned loop are ignored: its fixed sources stand in the block (R170). -/
def LoopParams.owned (p : LoopParams) (l : Nat) : LoopParams :=
  if 16 ≤ l then p
  else
    let c := (fixedSources l).getD []
    { p with sp := c.getD 0 0, y := c.getD 1 0, vff := c.getD 2 0, aff := c.getD 3 0, pos := c.getD 4 0 }

/-- LPE_PARAM_WRITE: writes a shadow bank (R171). -/
def lpeParamWrite (d : Desc) (img : HostBytes) (s : Dev) : Dev :=
  let b := s.fetch d (d.w64 3) img
  let l := lpeLoop d
  let p := parseParams b
  if !lpeObjectOk d ∨ b.length < 64 ∨ !s.addrOk d (d.w64 3) 64 ∨ p.bad (decide (l < 16)) then s.fail d .badDescriptor
  else if s.commitPending l then s.fail d .reconfigBusy
  else (s.setBank l (4 + lpeMode d) (p.owned l)).complete d .done s.dt []

def execLpeParamWrite (d : Desc) (img : HostBytes) (s : State) : Host.Outcome State Fault Refusal :=
  s.updIn d img (whenOn 6 (lpeParamWrite d img))

/-- LPE_COMMIT: completes at its commit instant, counted from its dispatch (R171). -/
def lpeCommit (d : Desc) (s : Dev) : Dev :=
  if !lpeObjectOk d ∨ bitsOf (d.w 5) 31 1 ≠ 0 then s.fail d .badDescriptor
  else { s with lpe := { s.lpe with commits := s.lpe.commits ++ [⟨d.w64 3, bitOf (d.w 5) 0, s.dispatchedAt d, d⟩] } }

def execLpeCommit (d : Desc) (s : State) : Host.Outcome State Fault Refusal := s.cmd d (whenOn 6 (lpeCommit d))

/-- LPE_HANDOVER, decided at its dispatch; loops L0-L15 belong to the MSQ (R169, R170). -/
def lpeHandover (d : Desc) (s : Dev) : Dev :=
  if !lpeObjectOk d ∨ bitsOf (d.w 3) 31 2 ≠ 0 then s.fail d .badDescriptor
  else if lpeLoop d < 16 then s.fail d .reconfigBusy
  else s.handAt (lpeLoop d) (bitsOf (d.w 3) 1 0) (s.dispatchedAt d) (some d)

def execLpeHandover (d : Desc) (s : State) : Host.Outcome State Fault Refusal := s.cmd d (whenOn 6 (lpeHandover d))

/-- The group a loop is admitted in, 0xFF none; an MSQ group's number is not stated, so it reads as a
free value (log entry 12). -/
def Dev.groupNo (s : Dev) (l : Nat) : Nat :=
  match (groupList s.lpe.groups).find? (fun g => tbit g.2.mask l) with
  | some (g, _) => if g < 64 then g else (Config.groupNumber g).toNat
  | none => 0xFF

/-- LPE_LSTAT of a loop as it reads (Table 7-9). -/
def Dev.lstat (s : Dev) (l : Nat) : Nat :=
  let x := s.loop l
  let r := s.reg (Reg.lpeLstat l)
  x.mode + 4 * b2n x.blend.isSome + 8 * b2n x.satHi + 16 * b2n x.satLo + 32 * b2n x.ffOnly
    + 64 * bitsOf r 6 6 + 128 * bitsOf r 7 7 + 256 * s.groupNo l
    + 65536 * (if s.admitted l then x.slot else 0x1FF)

/-- LPE_READ. -/
def lpeRead (d : Desc) (s : Dev) : Dev :=
  let x := s.loop (lpeLoop d)
  if !lpeObjectOk d then s.fail d .badDescriptor
  else s.complete d .done s.dt
    [wordI (s.lpeOut (lpeLoop d)), wordI (idiv x.iacc 65536), wordN (s.lstat (lpeLoop d)), wordN x.lastFrame]

def execLpeRead (d : Desc) (s : State) : Host.Outcome State Fault Refusal := s.cmd d (whenOn 6 (lpeRead d))

def parseFfEntries (kind : Nat) : Nat → List Byte → List (Int × Int)
  | 0, _ => []
  | n + 1, b =>
    if kind = 1 then (leAtS b 0 2, leAtS b 2 2) :: parseFfEntries kind n (b.drop 4)
    else (leAtS b 0 2, 0) :: parseFfEntries kind n (b.drop 2)

def parseFf (b : List Byte) : FfTable :=
  { kind := leAt b 2 1, shift := leAt b 3 1 % 8, chan := leAt b 6 1, x0 := leAtS b 8 4, step := leAt b 12 4,
    entries := parseFfEntries (leAt b 2 1) (leAt b 4 2) (b.drop 16) }

/-- The cause of LPE_TABLE_BAD: 1 format, 2 type, 3 count, 4 CRC, 5 channel (R163). -/
def ffCheck (b : List Byte) : Option Nat :=
  let kind := leAt b 2 1
  let n := leAt b 4 2
  let len := 16 + n * (if kind = 1 then 4 else 2)
  if leAt b 0 2 ≠ 1 then some 1
  else if kind ≠ 1 ∧ kind ≠ 2 then some 2
  else if n < 2 ∨ 1024 < n then some 3
  else if b.length < len + 4 ∨ leAt b len 4 ≠ (crc32 (b.take len)).toNat then some 4
  else if (kind = 1 ∧ leAt b 6 1 ≠ 0) ∨ 7 < leAt b 6 1 then some 5
  else none

/-- LPE_TABLE_LOAD: completes at its swap (R163). -/
def lpeTableLoad (d : Desc) (img : HostBytes) (s : Dev) : Dev :=
  let b := s.fetch d (d.w64 3) img
  let t := bitsOf d.object 3 0
  if bitsOf d.object 31 4 ≠ 0 ∨ !s.addrOk d (d.w64 3) b.length then s.fail d .badDescriptor
  else if (kget none s.lpe.staged t).isSome then s.fail d .reconfigBusy
  else match ffCheck b with
    | some c => (s.event 6 6 5 t s.dt [c]).fail d .badDescriptor
    | none => { s with lpe := { s.lpe with staged := kput none s.lpe.staged t (some ⟨parseFf b, s.dt, d⟩) } }

def execLpeTableLoad (d : Desc) (img : HostBytes) (s : State) : Host.Outcome State Fault Refusal :=
  s.updIn d img (whenOn 6 (lpeTableLoad d img))

/-- A host abort of a commit, a hand-over or a table load before its effect. -/
def Dev.lpeAbort (s : Dev) (d : Desc) : Option Dev :=
  if s.lpe.commits.any (fun c => c.desc.same d) then
    some (({ s with lpe := { s.lpe with commits := s.lpe.commits.filter (fun c => !c.desc.same d) } }).fail d .aborted)
  else
    let mine (h : Hand) : Bool := match h.desc with | some e => e.same d | none => false
    if s.lpe.hands.any mine then
      some (({ s with lpe := { s.lpe with hands := s.lpe.hands.filter (fun h => !mine h) } }).fail d .aborted)
    else
      match (List.range 16).find? (fun t => match kget none s.lpe.staged t with
          | some g => g.desc.same d | none => false) with
      | some t => some (({ s with lpe := { s.lpe with staged := kput none s.lpe.staged t none } }).fail d .aborted)
      | none => none

end Sys2Proof.Machine
end

