-- ==== Sys2Proof/Machine/Ledger.lean ====
section
/-! DEFINITION. The Timing Ledger: duties, the admission tests, placement, commits and migration
(14 R313-R329). -/
namespace Sys2Proof.Machine

/-! ## Engines and their local memories, as the ledger sees them (12 R273) -/

def Dev.engine (s : Dev) (e : Nat) : Engine := kget .reset s.eng.engines e
def Dev.setEngine (s : Dev) (e : Nat) (x : Engine) : Dev :=
  { s with eng := { s.eng with engines := kput .reset s.eng.engines e x } }
def Dev.inService (s : Dev) (e : Nat) : Bool := (s.engine e).state == 1

/-- `n` words of the local data memory of an engine. -/
def Dev.areaWords (s : Dev) (e base n : Nat) : List Word :=
  (List.range n).map (fun i => kget 0 (s.engine e).mem ((base + i) % 32768))

def writeWords (m : KMap Word) (base : Nat) : List Word → KMap Word
  | [] => m
  | w :: t => writeWords (kput 0 m (base % 32768) w) (base + 1) t

def Dev.setArea (s : Dev) (e base : Nat) (l : List Word) : Dev :=
  let x := s.engine e
  s.setEngine e { x with mem := writeWords x.mem base l }

def Duty.copy (d : Duty) (standby : Bool) : Option Copy := if standby then d.standby else d.primary
def Duty.setCopy (d : Duty) (standby : Bool) (c : Option Copy) : Duty :=
  if standby then { d with standby := c } else { d with primary := c }
/-- The copies a duty is to have: the primary, and the standby of a critical one (12 R278). -/
def Duty.roles (d : Duty) : List Bool := if d.desc.cls ≠ 1 ∧ d.desc.cls ≠ 2 then [] else if d.desc.critical then [false, true] else [false]

def copiesOn (m : KMap (Option Duty)) (e : Nat) : List (Duty × Bool × Copy) :=
  (dutyList m).flatMap (fun d => [false, true].filterMap (fun b =>
    match d.copy b with
    | some c => if c.engine = e then some (d, b, c) else none
    | none => none))

/-! ## The configuration image (R314, R315) -/

def parseDuty (b : List Byte) : DutyDesc :=
  { id := leAt b 0 2, cls := leAt b 2 1, flags := leAt b 3 1, period := leAt b 4 2, offset := leAt b 6 2,
    phase := leAt b 8 4, deadline := leAt b 12 4, budget := leAt b 16 4, affinity := leAt b 20 2, op := leAt b 22 1,
    args := (b.drop 24).take 32 }

/-- The descriptor as TLG_READ writes it. -/
def DutyDesc.bytes64 (d : DutyDesc) : List Byte :=
  leBytes 2 d.id ++ leBytes 1 d.cls ++ leBytes 1 d.flags ++ leBytes 2 d.period ++ leBytes 2 d.offset ++ leBytes 4 d.phase
    ++ leBytes 4 d.deadline ++ leBytes 4 d.budget ++ leBytes 2 d.affinity ++ leBytes 1 d.op ++ [0] ++ d.args ++ List.replicate 8 0

def imageHeaderBad (b : List Byte) : Bool :=
  let n := leAt b 2 2
  leAt b 0 2 != 1 || decide (n < 1 ∨ 256 < n) || leAt b 4 8 != 0 || b.length != 16 + 64 * n
    || leAt b 12 4 != (crc32 (b.take 12 ++ b.drop 16)).toNat

def imageRaw (b : List Byte) : List (List Byte) :=
  (List.range (leAt b 2 2)).map (fun i => (b.drop (16 + 64 * i)).take 64)

/-- The bytes of CLASS_ARGS that Table 14-3 gives a class; the others must be 0 (log entry 34). -/
def argByte (cls i : Nat) : Bool :=
  match cls with
  | 1 => i == 0 || decide (4 ≤ i ∧ i < 24)
  | 3 => i == 0 || decide (2 ≤ i ∧ i < 12)
  | 4 => i == 0 || decide (4 ≤ i ∧ i < 8)
  | 5 => i == 0 || decide (4 ≤ i ∧ i < 10)
  | _ => false

/-- Reason 1 of a descriptor: field ranges and reserved bytes. A removal names only its duty. -/
def dutyBad (b : List Byte) : Bool :=
  let d := parseDuty b
  let frame := decide (8 ≤ d.flags) || leAt b 23 1 != 0 || leAt b 56 8 != 0 || decide (d.op < 1 ∨ 3 < d.op)
  if frame || d.op == 2 then frame
  else
    !(d.cls == 1 || d.cls == 3 || d.cls == 4 || d.cls == 5)
      || decide (d.period < 1 ∨ (if d.cls = 3 then 255 else 20000) < d.period ∨ d.period ≤ d.offset ∨ 49999 < d.phase
          ∨ d.deadline < 1 ∨ 50000 * d.period < d.deadline)
      || (d.cls == 3 && d.phase != 0) || d.budget != 0
      || (List.range 32).any (fun i => !argByte d.cls i && d.args.getD i 0 != 0)
      || (match d.cls with
          | 1 => decide (63 < d.handle) || (d.pinned && popcount 16 d.affinity != 1)
          | 3 => decide (63 < d.group ∨ 12499 < d.cycle) || d.loops % 65536 != 0
          | 4 => decide (d.queue < 1 ∨ 95 < d.queue)
          | _ => decide (d.ports < 1 ∨ 3 < d.ports))

/-! ## Refusals (R322) -/

/-- Why an analysis refuses: the fields of Table 14-4's result words. -/
structure Misfit where
  reason : Nat
  duty : Nat
  unit : Nat
  t1 : Nat
  t2 : Nat
  excess : Nat
deriving DecidableEq, Repr

def Misfit.words (m : Misfit) : List Word :=
  [wordN m.reason, wordN m.duty, wordN m.unit, wordN m.t1, wordN m.t2, wordN m.excess]

/-- A refusal of a configuration or a migration: TLG_REFUSED, the counts, and the completion. -/
def Dev.tlgRefuse (s : Dev) (d : Option Desc) (m : Misfit) : Dev :=
  let at_ := s.acceptedAt d
  let s := { s with tlg := { s.tlg with lastRef := wordN (m.reason * 2 ^ 24 + m.duty % 65536), refused := satInc 16 s.tlg.refused } }
  let s := (s.event 2 4 2 (m.duty % 65536) s.dt [m.reason, m.unit, m.excess]).chrInc 9 95
  s.completeOpt d (if m.reason ≤ 2 then .badDescriptor else .refusedLedger) at_ m.words

/-! ## Engine demand (R316, R317) -/

/-- The cost of a job; `first`: the first after a migration. -/
def Kernel.cost (k : Kernel) (level1 first : Bool) : Nat :=
  k.cycles + 48 + 2 * (k.inLen + k.outLen) + (if level1 then 8 else 0) + (if first then 48 + 2 * k.stateLen else 0)

def Dev.jobCost (s : Dev) (d : DutyDesc) (first : Bool) : Nat :=
  match s.dutyKernel d with
  | some k => k.cost d.level1 first
  | none => 0

/-- A job of the analysis: its duty, release, deadline, cost and level; instants from the start of the first
hyperperiod. -/
structure SimJob where
  id : Nat
  rel : Nat
  dl : Nat
  cost : Nat
  level1 : Bool
deriving DecidableEq, Repr

def hyperperiod (l : List (Duty × Bool × Copy)) : Nat := l.foldl (fun a x => lcm a (max 1 x.1.desc.period)) 1

/-- The jobs of a copy over `n` frames. -/
def Dev.copyJobs (s : Dev) (n : Nat) (x : Duty × Bool × Copy) : List SimJob :=
  let d := x.1.desc
  (List.range (n / max 1 d.period)).map (fun i =>
    let r := 50000 * (d.offset + i * d.period) + d.phase
    ⟨d.id, r, r + d.deadline, s.jobCost d (i == 0 && x.2.2.first), d.level1⟩)

/-- The order in which jobs are released, for the simulation. -/
def SimJob.relBefore (a b : SimJob) : Bool := decide (a.rel < b.rel) || (a.rel == b.rel && decide (a.id ≤ b.id))

/-- The order in which waiting jobs of a level start. -/
def startBefore (dl1 rel1 id1 dl2 rel2 id2 : Nat) : Bool :=
  decide (dl1 < dl2) || (dl1 == dl2 && (decide (rel1 < rel2) || (rel1 == rel2 && decide (id1 ≤ id2))))

def SimJob.startsBefore (a b : SimJob) : Bool := startBefore a.dl a.rel a.id b.dl b.rel b.id

def insertBy {α : Type} (le : α → α → Bool) (x : α) : List α → List α
  | [] => [x]
  | y :: t => if le x y then x :: y :: t else y :: insertBy le x t

def sortBy {α : Type} (le : α → α → Bool) (l : List α) : List α := l.foldr (insertBy le) []

/-- The demand test: the first window, by start and then end, that holds more than its length. -/
def demandMisfit (l : List SimJob) : Option (Nat × Nat × Nat) :=
  (sortBy (fun a b => decide (a ≤ b)) (l.map (·.rel))).findSome? (fun t1 =>
    (sortBy (fun a b => decide (a ≤ b)) (l.map (·.dl))).findSome? (fun t2 =>
      let sum := ((l.filter (fun j => decide (t1 ≤ j.rel ∧ j.dl ≤ t2))).map (·.cost)).foldl (· + ·) 0
      if t1 < t2 ∧ t2 - t1 < sum then some (t1, t2, sum - (t2 - t1)) else none))

/-- An engine in the simulation: the time, jobs to come in order of release, jobs that wait in order of
start, what each level runs with the time it still needs, and the jobs begun, latest first. -/
structure SimEngine where
  now : Nat
  later : List SimJob
  wait : List SimJob
  run0 : Option (SimJob × Nat)
  run1 : Option (SimJob × Nat)
  begun : List SimJob
deriving DecidableEq, Repr

/-- Take up the jobs released by now, and start what can start. -/
def SimEngine.takeJobs (x : SimEngine) : SimEngine :=
  let (due, later) := x.later.partition (fun j => decide (j.rel ≤ x.now))
  let w := due.foldl (fun w j => insertBy SimJob.startsBefore j w) x.wait
  let (run1, w, b) := match x.run1, w.find? (·.level1) with
    | none, some j => (some (j, j.cost), w.erase j, j :: x.begun)
    | r, _ => (r, w, x.begun)
  let (run0, w, b) := match x.run0, w.find? (fun j => !j.level1) with
    | none, some j => if run1.isSome then (none, w, b) else (some (j, j.cost), w.erase j, j :: b)
    | r, _ => (r, w, b)
  ⟨x.now, later, w, run0, run1, b⟩

/-- Run to the next release or completion: the job that completed, if one did; none at the end. -/
def SimEngine.go (x : SimEngine) : Option (Option SimJob × SimEngine) :=
  let next := (x.later.head?).map (·.rel)
  match x.run1, x.run0 with
  | some (j, n), _ =>
    let t := match next with | some r => min r (x.now + n) | none => x.now + n
    some (if t = x.now + n then (some j, { x with now := t, run1 := none })
      else (none, { x with now := t, run1 := some (j, n - (t - x.now)) }))
  | none, some (j, n) =>
    let t := match next with | some r => min r (x.now + n) | none => x.now + n
    some (if t = x.now + n then (some j, { x with now := t, run0 := none })
      else (none, { x with now := t, run0 := some (j, n - (t - x.now)) }))
  | none, none => next.map (fun r => (none, { x with now := r }))

/-- The schedule test: the first job of the second hyperperiod (from `h`) that completes late, and when. -/
def scheduleRun (h : Nat) : Nat → SimEngine → Option (SimJob × Nat)
  | 0, _ => none
  | n + 1, x =>
    match x.takeJobs.go with
    | none => none
    | some (some j, y) => if h ≤ j.rel ∧ j.dl < y.now then some (j, y.now) else scheduleRun h n y
    | some (none, y) => scheduleRun h n y

/-- The order in which the simulation begins jobs, the first first. -/
def scheduleOrder : Nat → SimEngine → List SimJob
  | 0, x => x.begun.reverse
  | n + 1, x =>
    match x.takeJobs.go with
    | none => x.takeJobs.begun.reverse
    | some (_, y) => scheduleOrder n y

/-- The jobs of some copies over `n` frames, by release, and an idle engine that is to run them. -/
def Dev.simJobs (s : Dev) (l : List (Duty × Bool × Copy)) (n : Nat) : List SimJob :=
  sortBy SimJob.relBefore (l.flatMap (s.copyJobs n))
def SimEngine.idle (jobs : List SimJob) : SimEngine := ⟨0, jobs, [], none, none, []⟩

/-- The tests of R317 on one engine, after the last copy has been placed. -/
def Dev.engineMisfit (s : Dev) (m : KMap (Option Duty)) (e id : Nat) : Option Misfit :=
  let l := copiesOn m e
  let h := hyperperiod l
  if 20000 < h then some ⟨6, id, e, 0, 0, 50000 * (h - 20000)⟩
  else
    let jobs := s.simJobs l (2 * h)
    let w := 50000 * h
    match demandMisfit jobs with
    | some (t1, t2, x) => some ⟨7, id, e, t1 % w, t1 % w + (t2 - t1), x⟩
    | none =>
      match scheduleRun w (2 * jobs.length + 2) (.idle jobs) with
      | some (j, t) => some ⟨8, j.id, e, j.rel - w, j.dl - w, t - j.dl⟩
      | none => none

/-! ## Placement (R318) -/

/-- A job of the duty may still run at a phase zero after its release, when a configuration takes effect. -/
def DutyDesc.crosses (d : DutyDesc) : Bool := decide (50000 < d.phase + d.deadline)

def Dev.regionLen (s : Dev) (d : DutyDesc) : Nat := ((s.dutyKernel d).map (·.region)).getD 0

/-- The regions on an engine of the copies of a configuration, and those in which copies on their way to another engine
still have their state (R324). -/
def Dev.copyRegions (s : Dev) (m : KMap (Option Duty)) (e : Nat) : List (Nat × Nat) :=
  (dutyList m).flatMap (fun d => [false, true].flatMap (fun b =>
    match d.copy b with
    | none => []
    | some c => (if c.engine = e then [(c.base, s.regionLen d.desc)] else [])
        ++ (match c.moved with | some (f, base) => if f = e then [(base, s.regionLen d.desc)] else [] | none => [])))

/-- The regions on an engine in which a job may still run when a configuration takes effect: of the copies now admitted,
and of jobs in progress (13 R298). -/
def Dev.jobRegions (s : Dev) (e : Nat) : List (Nat × Nat) :=
  let x := s.engine e
  ((copiesOn s.tlg.duties e).filter (fun c => c.1.desc.crosses)).map (fun c => (c.2.2.base, s.regionLen c.1.desc))
    ++ ((x.run0.toList ++ x.run1.toList ++ x.waiting).filter (fun j => j.desc.crosses)).map (fun j => (j.base, j.kernel.region))

/-- The regions taken on an engine under a configuration that is to take effect. -/
def Dev.regions (s : Dev) (m : KMap (Option Duty)) (e : Nat) : List (Nat × Nat) := s.copyRegions m e ++ s.jobRegions e

/-- The engines a copy of CPF is pinned to: engine 0 of cluster 0, and of cluster 1 for the standby (04 R61). -/
def pinMask (id : Nat) (standby : Bool) : Nat := if id = Config.cpfDuty then (if standby then 16 else 1) else 65535

/-- The package a cluster runs; the copies of a firmware duty lie on clusters of one package (18 R410). -/
def Dev.clusterPkg (s : Dev) (c : Nat) : Nat := (kget UpdTarget.reset s.upd.targets c).runPkg

/-- Two engines may hold the two copies of a duty. -/
def Dev.apart (s : Dev) (d : DutyDesc) (e f : Nat) : Bool :=
  e / 4 != f / 4 && (d.cls != 2 || s.clusterPkg (e / 4) == s.clusterPkg (f / 4))

/-- The lowest base at which a region fits a free span. -/
def freeBase (taken : List (Nat × Nat)) (n : Nat) : Option Nat :=
  let ok (b : Nat) : Bool := decide (b + n ≤ 32768) && taken.all (fun r => !areasMeet b n r.1 r.2)
  ((sortBy (fun a b => decide (a ≤ b)) (0 :: taken.map (fun r => r.1 + r.2))).find? ok)

/-- Place a copy on the lowest-numbered engine that meets every condition, among those of `mask` other than
`out`; when no engine does, why (R318, R322). -/
def Dev.placeCopy (s : Dev) (m : KMap (Option Duty)) (d : Duty) (standby : Bool) (mask : Nat) (out : List Nat)
    (moved : Option (Nat × Nat)) : KMap (Option Duty) ⊕ Misfit :=
  let id := d.desc.id
  let n := ((s.dutyKernel d.desc).map (·.region)).getD 0
  let able := (List.range 16).filter (fun e => s.inService e && (d.desc.affinity == 0 || tbit d.desc.affinity e)
    && tbit mask e && (d.desc.cls == 1 || tbit (pinMask id standby) e) && !out.contains e)
  let fits := able.filterMap (fun e => (freeBase (s.regions m e) n).map (fun b => (e, b)))
  let apart := fits.filter (fun x => match d.copy (!standby) with | some c => s.apart d.desc c.engine x.1 | none => true)
  let put (x : Nat × Nat) : KMap (Option Duty) := kput none m id (some (d.setCopy standby (some ⟨x.1, x.2, moved, moved.isSome⟩)))
  match fits, apart.head?, apart.find? (fun x => (s.engineMisfit (put x) x.1 id).isNone) with
  | [], _, _ => .inr ⟨4, id, 0, 0, 0, 0⟩
  | _, none, _ => .inr ⟨5, id, 0, 0, 0, 0⟩
  | _, _, some x => .inl (put x)
  | _, some x, none => .inr ((s.engineMisfit (put x) x.1 id).getD ⟨8, id, x.1, 0, 0, 0⟩)

/-- Place every copy a duty lacks. -/
def Dev.placeDuty (s : Dev) (m : KMap (Option Duty)) (id : Nat) : KMap (Option Duty) ⊕ Misfit :=
  match kget none m id with
  | none => .inl m
  | some d =>
    d.roles.foldl (fun r b => match r with
      | .inr x => .inr x
      | .inl m => match kget none m id with
        | some d => if (d.copy b).isSome then .inl m else s.placeCopy m d b 65535 [] none
        | none => .inl m) (.inl m)

/-- Place the copies of duties, in the order given. -/
def Dev.placeAll (s : Dev) (m : KMap (Option Duty)) (ids : List Nat) : KMap (Option Duty) ⊕ Misfit :=
  ids.foldl (fun (r : KMap (Option Duty) ⊕ Misfit) id => match r with | .inl m => s.placeDuty m id | .inr x => .inr x) (.inl m)

/-- Place again the copies that duties lack, where they fit (R325); a copy takes its state from the other
copy of its duty, or starts afresh. -/
def Dev.placeLost (s : Dev) (m : KMap (Option Duty)) (ids : List Nat) : KMap (Option Duty) × List Move :=
  ids.foldl (fun (m, l) id =>
    match kget none m id with
    | none => (m, l)
    | some d =>
      d.roles.foldl (fun (m, l) b =>
        match kget none m id with
        | some d =>
          if (d.copy b).isSome then (m, l)
          else match s.placeCopy m d b 65535 [] ((d.copy (!b)).map (fun c => (c.engine, c.base))) with
            | .inl m => (m, l ++ [⟨id, b, 0xFF, (((kget none m id).bind (·.copy b)).map (·.engine)).getD 0xFF⟩])
            | .inr _ => (m, l)
        | none => (m, l)) (m, l)) (m, [])

/-! ## Rate groups, host DMA and ports (R319-R321) -/

/-- The duty whose rate group has a number; 0xFFFF for a group of the MSQ. -/
def groupDuty (m : KMap (Option Duty)) (g : Nat) : Nat :=
  (((dutyList m).find? (fun x => x.desc.cls == 3 && x.desc.group == g)).map (·.desc.id)).getD 0xFFFF

/-- The rate groups with the duties of a configuration: the MSQ's own (64 on) and the host's. -/
def Dev.groupsOf (s : Dev) (m : KMap (Option Duty)) : KMap (Option RateGroup) := groupsOver s.lpe.groups m

def Dev.slotsMisfit (s : Dev) (m : KMap (Option Duty)) : Option Misfit :=
  (s.slotMisfit (groupList (s.groupsOf m))).map (fun r => ⟨r.1, groupDuty m r.2.1, r.2.1, 0, 0, r.2.2⟩)

def ofClass (m : KMap (Option Duty)) (c : Nat) : List DutyDesc := ((dutyList m).map (·.desc)).filter (fun d => d.cls == c)

def periodsLcm (l : List DutyDesc) : Nat := l.foldl (fun a d => lcm a (max 1 d.period)) 1

/-- A sum of amounts per period, times the common multiple of the periods, per second. -/
def rateSum (l : List DutyDesc) (f : DutyDesc → Nat) : Nat :=
  (l.map (fun d => f d * (periodsLcm l / max 1 d.period) * 20000)).foldl (· + ·) 0

/-- R320: B is 800 MB/s per negotiated lane. -/
def Dev.hostMisfit (s : Dev) (m : KMap (Option Duty)) : Option Misfit :=
  let l := ofClass m 4
  let n := s.hiu.linkWidth
  let top := periodsLcm l
  let sum := rateSum l (·.bytes)
  if l.isEmpty then none
  else if 800000000 * n * top < sum then
    some ⟨12, ((l.getLast?).map (·.id)).getD 0, 0, 0, 0, (sum - 800000000 * n * top) / top⟩
  else
    (l.find? (fun i => decide (4 * n * i.deadline < 8000 * n + 5 * ((l.filter (fun j => decide (j.deadline ≤ i.deadline))).map
      (fun j => (i.deadline + 50000 * j.period - 1) / (50000 * j.period) * j.bytes)).foldl (· + ·) 0))).map (fun i =>
        let need := 8000 * n + 5 * ((l.filter (fun j => decide (j.deadline ≤ i.deadline))).map
          (fun j => (i.deadline + 50000 * j.period - 1) / (50000 * j.period) * j.bytes)).foldl (· + ·) 0
        ⟨12, i.id, 0, 0, 0, (need - 4 * n * i.deadline + 4 * n - 1) / (4 * n)⟩)

def portDuties (m : KMap (Option Duty)) (b : Bool) : List DutyDesc := (ofClass m 5).filter (fun d => tbit d.ports (b2n b))

/-- Bits per second admitted on a port, times the common multiple of the periods. -/
def portSum (l : List DutyDesc) : Nat := rateSum l (fun d => 8 * (d.bytes + 24 * d.frames))

/-- R321: the test of a port fails. -/
def Dev.portFails (s : Dev) (m : KMap (Option Duty)) (b : Bool) : Bool :=
  let l := portDuties m b
  !l.isEmpty && decide ((s.portRate b - 20) * 1000000 * periodsLcm l < portSum l)

def Dev.portMisfit (s : Dev) (m : KMap (Option Duty)) : Option Misfit :=
  ([false, true].find? (s.portFails m)).map (fun b =>
    let l := portDuties m b
    ⟨13, ((l.getLast?).map (·.id)).getD 0, 1 + b2n b, 0, 0,
      (portSum l - (s.portRate b - 20) * 1000000 * periodsLcm l) / (8 * periodsLcm l)⟩)

/-! ## The analyses (R322-R325) -/

/-- A loop source that the variant has not: an axis, a bridge or a Q channel that is fused off (07 Table 7-2). -/
def Dev.sourceAbsent (s : Dev) (c : Nat) : Bool :=
  (decide (0x10 ≤ c ∧ c < 0x38) && decide (c % 8 < 5) && !s.hasAxis (c % 8))
    || (decide (0x80 ≤ c ∧ c < 0x90) && !s.hasBridge (c - 0x80))
    || (decide (0x90 ≤ c ∧ c < 0xA0) && decide (s.quads ≤ c % 8))

/-- A loop reads a fused-off resource under the parameters of one of its modes. -/
def Dev.loopFused (s : Dev) (l : Nat) : Bool :=
  (List.range 4).any (fun m => let p := s.bank l m
    [p.sp, p.y, p.vff, p.aff, p.pos].any s.sourceAbsent
      || (p.useCog && (match s.goodTable l 2 (p.tables / 16) with
        | some t => decide (s.quads ≤ t.chan)
        | none => false)))

/-- A host duty uses a resource that is fused off (02 R23): an affinity of no present engine, or a loop that reads
one. -/
def Dev.dutyFused (s : Dev) (d : DutyDesc) : Bool :=
  d.op != 2 && ((d.cls == 1 && d.affinity != 0 && d.affinity % 2 ^ s.engines == 0)
    || (d.cls == 3 && (maskBits 64 d.loops).any s.loopFused))

/-- A duty added for the Loop Engine while its domain is off: there is no slot for it (01 R9; reason 9, log entry 34). -/
def Dev.domainMisfit (s : Dev) (l : List DutyDesc) : Option Misfit :=
  if s.powered 6 then none
  else (l.find? (fun d => d.cls == 3)).map (fun d => ⟨9, d.id, d.group, 0, 0, 0⟩)

/-- Reason 2 of one descriptor of an image. -/
def Dev.idBad (s : Dev) (l : List DutyDesc) (d : DutyDesc) : Bool :=
  decide (d.id < 256) || decide (1 < (l.filter (fun e => e.id == d.id)).length)
    || (if d.op = 1 then (s.duty d.id).isSome else (s.duty d.id).isNone)

/-- A rate group number, or a loop, that two duties would have. -/
def groupsClash (m : KMap (Option Duty)) : Option Nat :=
  let l := ofClass m 3
  (l.find? (fun d => l.any (fun e => e.id != d.id && decide (e.id < d.id)
    && (e.group == d.group || Nat.land e.loops d.loops != 0)))).map (·.id)

/-- The reason of least number. -/
def leastMisfit : List (Option Misfit) → Option Misfit
  | [] => none
  | x :: t =>
    match x, leastMisfit t with
    | some a, some b => if a.reason ≤ b.reason then some a else some b
    | some a, none => some a
    | none, r => r

/-- The outcome of an analysis: fused off, refused, or a plan and the plan of a second commit. -/
inductive Verdict where
  | fused
  | refuse (m : Misfit)
  | plan (p : LedgerPlan) (second : Option LedgerPlan)
deriving DecidableEq, Repr

/-- The analysis of a configuration image. -/
def Dev.analyseImage (s : Dev) (b : List Byte) : Verdict :=
  if imageHeaderBad b then .refuse ⟨1, 0xFFFF, 0, 0, 0, 0⟩
  else
    let raw := imageRaw b
    let l := raw.map parseDuty
    if l.any s.dutyFused then .fused
    else match raw.find? dutyBad, l.find? (s.idBad l) with
      | some r, _ => .refuse ⟨1, leAt r 0 2, 0, 0, 0, 0⟩
      | none, some d => .refuse ⟨2, d.id, 0, 0, 0, 0⟩
      | none, none =>
        let kept := l.foldl (fun m d => kput none m d.id none) s.tlg.duties
        let new := l.filter (fun d => d.op != 2)
        let m := new.foldl (fun m d => kput none m d.id (some (⟨d, none, none, 0, 0⟩ : Duty))) kept
        let noKernel := (new.find? (fun d => d.cls == 1 && (s.kernel d.handle).isNone)).map (fun d => (⟨3, d.id, 0, 0, 0, 0⟩ : Misfit))
        let clash := (groupsClash m).map (fun i => (⟨1, i, 0, 0, 0, 0⟩ : Misfit))
        let ids := sortBy (fun a b => decide (a ≤ b)) (new.map (·.id))
        let placed := s.placeAll m ids
        let bad := leastMisfit [clash, noKernel, (match placed with | .inr x => some x | .inl _ => none),
          s.domainMisfit new, s.slotsMisfit m, s.hostMisfit m, s.portMisfit m]
        match bad, placed with
        | some x, _ => .refuse x
        | none, .inr x => .refuse x
        | none, .inl m =>
          let (m, moved) := s.placeLost m ((dutyList kept).map (·.desc.id))
          .plan ⟨m, new.map (·.id), (l.filter (fun d => d.op != 1)).map (·.id), moved, []⟩ none

/-- Move one copy to an engine of `mask` other than those of `out`; reason 14 where it cannot (R324). -/
def Dev.moveCopy (s : Dev) (m : KMap (Option Duty)) (id : Nat) (standby : Bool) (mask : Nat) (out : List Nat) :
    (KMap (Option Duty) × Move) ⊕ Misfit :=
  match kget none m id with
  | none => .inr ⟨14, id, 0, 0, 0, 0⟩
  | some d =>
    match d.copy standby with
    | none => .inr ⟨14, id, 0, 0, 0, 0⟩
    | some c =>
      let bare := d.setCopy standby none
      match s.placeCopy (kput none m id (some bare)) bare standby mask (c.engine :: out) (some (c.engine, c.base)) with
      | .inl m => .inl (m, ⟨id, standby, c.engine, (((kget none m id).bind (·.copy standby)).map (·.engine)).getD 0xFF⟩)
      | .inr x => .inr { x with reason := 14 }

/-- The analysis of TLG_MIGRATE: both copies move at two commits. -/
def Dev.analyseMigrate (s : Dev) (id sel mask : Nat) : Verdict :=
  let m := s.tlg.duties
  let plan (m : KMap (Option Duty)) (v : Move) : LedgerPlan := ⟨m, [], [], [v], []⟩
  if sel = 3 then
    match s.moveCopy m id false mask [] with
    | .inr x => .refuse x
    | .inl (m1, v1) =>
      match s.moveCopy m1 id true mask [] with
      | .inr x => .refuse x
      | .inl (m2, v2) => .plan (plan m1 v1) (some (plan m2 v2))
  else
    match s.moveCopy m id (sel == 2) mask [] with
    | .inr x => .refuse x
    | .inl (m1, v1) => .plan (plan m1 v1) none

/-- A copy of a firmware duty stays behind when its cluster goes down: of CPF, which is pinned (12 R292), and for an
update one that cannot be paired (18 R410); the duty runs on its other copy. -/
def staysBehind (m : KMap (Option Duty)) (c : Nat) (upd : Bool) (id : Nat) (b : Bool) : Bool :=
  match kget none m id with
  | some d => d.desc.cls == 2 && (upd || id == Config.cpfDuty)
      && (match d.copy (!b) with | some k => k.engine / 4 != c | none => false)
  | none => false

/-- One copy leaves a cluster that goes down: it moves, or is left out. -/
def Dev.leaveCluster (s : Dev) (c : Nat) (upd : Bool)
    (r : (KMap (Option Duty) × List Move × List (Nat × Nat)) ⊕ Misfit) (x : Nat × Bool × Nat) :
    (KMap (Option Duty) × List Move × List (Nat × Nat)) ⊕ Misfit :=
  match r with
  | .inr z => .inr z
  | .inl (m, l, lost) =>
    match s.moveCopy m x.1 x.2.1 65535 ((List.range 4).map (4 * c + ·)), kget none m x.1 with
    | .inl (m, v), _ => .inl (m, l ++ [v], lost)
    | .inr z, some d =>
      if staysBehind m c upd x.1 x.2.1 then .inl (kput none m x.1 (some (d.setCopy x.2.1 none)), l, lost ++ [(x.1, x.2.2)])
      else .inr z
    | .inr z, none => .inr z

/-- The analysis of taking a cluster down: every copy on it moves, in ascending duty ID (12 R292). -/
def Dev.analyseDown (s : Dev) (c : Nat) (upd : Bool) : Verdict :=
  let on := (dutyList s.tlg.duties).flatMap (fun d => [false, true].filterMap (fun b =>
    match d.copy b with | some k => if k.engine / 4 = c then some (d.desc.id, b, k.engine) else none | none => none))
  match on.foldl (s.leaveCluster c upd) (.inl (s.tlg.duties, [], [])) with
  | .inr x => .refuse x
  | .inl (m, l, lost) => .plan ⟨m, [], [], l, lost⟩ none

/-- A copy on an engine that has left service. -/
def Dev.copyGone (s : Dev) (d : Duty) (b : Bool) : Option Copy :=
  match d.copy b with
  | some c => if s.inService c.engine then none else some c
  | none => none

/-- The analysis of re-placing copies that have lost their engine (R325): a copy takes its state from the
other copy of its duty in service, otherwise from where it ran. -/
def Dev.analyseReplace (s : Dev) : Verdict :=
  let gone := (dutyList s.tlg.duties).flatMap (fun d => [false, true].filterMap (fun b =>
    (s.copyGone d b).map (fun c => (d.desc.id, b, c))))
  let bare := gone.foldl (fun m x => match kget none m x.1 with
    | some d => kput none m x.1 (some (d.setCopy x.2.1 none))
    | none => m) s.tlg.duties
  let r : KMap (Option Duty) × List Move × List (Nat × Nat) := gone.foldl (fun (m, l, lost) x =>
    match kget none m x.1 with
    | none => (m, l, lost)
    | some d =>
      let other := ((s.duty x.1).bind (·.copy (!x.2.1))).bind (fun o => if s.inService o.engine then some (o.engine, o.base) else none)
      let src := other.getD (x.2.2.engine, x.2.2.base)
      match s.placeCopy m d x.2.1 65535 [] (some src) with
      | .inl m => (m, l ++ [⟨x.1, x.2.1, x.2.2.engine, (((kget none m x.1).bind (·.copy x.2.1)).map (·.engine)).getD 0xFF⟩], lost)
      | .inr _ => (m, l, lost ++ [(x.1, x.2.2.engine)])) (bare, [], [])
  let (m, more) := s.placeLost r.1 (((dutyList r.1).map (·.desc.id)).filter (fun i => !gone.any (fun x => x.1 == i)))
  .plan ⟨m, [], [], r.2.1 ++ more, r.2.2⟩ none

def Dev.analyseTask (s : Dev) : LedgerTask → Verdict
  | .config b | .check b => s.analyseImage b
  | .migrate id sel mask => s.analyseMigrate id sel mask
  | .clusterDown c => s.analyseDown c false
  | .update c => s.analyseDown c true
  | .replace => s.analyseReplace

def Dev.setTlg (s : Dev) (f : Tlg → Tlg) : Dev := { s with tlg := f s.tlg }

/-- The update in progress ends with a status; a rollback the ledger refuses stays to be retried (18 R411). -/
def Dev.updEnd (s : Dev) (st : Status) (commit : Nat) (res : List Word) : Dev :=
  match s.upd.op with
  | some o => ({ s with upd := { s.upd with op := none } }).completeOpt o.desc st commit res
  | none => s

/-- A cluster holds a copy of a duty of a configuration. -/
def holdsDuty (m : KMap (Option Duty)) (c : Nat) : Bool := (List.range 4).any (fun i => !(copiesOn m (4 * c + i)).isEmpty)

/-- A cluster holds an admitted duty. -/
def Dev.clusterDuty (s : Dev) (c : Nat) : Bool := holdsDuty s.tlg.duties c

/-- A commit that is pending needs the cluster. -/
def LedgerCommit.needs (x : LedgerCommit) (c : Nat) : Bool :=
  holdsDuty x.plan.duties c || (match x.second with | some p => holdsDuty p.duties c | none => false)

/-- Clusters 1 to 3 in retention: in DRIP, while they hold no admitted duty and no commit needs them (17 R386, R387). -/
def Dev.retained (s : Dev) (c : Nat) : Bool :=
  s.pmu.state == 2 && s.pmu.phase == .settled && c != 0 && tbit s.pmu.pwr (1 + c) && !s.clusterDuty c
    && !(s.tlg.pending.any (fun x => x.needs c))

/-- An analysis that ends in a plan: the commit is pending (R323). A cluster in retention that it needs is restored
first, within 150 µs (17 R387). -/
def Dev.tlgPend (s : Dev) (t : LedgerTask) (d : Option Desc) (p : LedgerPlan) (second : Option LedgerPlan) : Dev :=
  let x : LedgerCommit := ⟨t, d, s.dt, p, second, s.dt⟩
  if (List.range 4).any (fun c => s.retained c && x.needs c) then
    s.drawn.setTlg (fun y => { y with pending := some { x with restored := s.dt + s.free % 150001 } })
  else s.setTlg (fun y => { y with pending := some x })

/-- The outcome of an analysis reaches its command. -/
def Dev.tlgJudge (s : Dev) (t : LedgerTask) (d : Option Desc) : Dev :=
  match t, s.analyseTask t with
  | .check _, .fused | .config _, .fused => s.completeOpt d .notInVariant (s.acceptedAt d) []
  | .check _, .refuse m => s.completeOpt d (if m.reason ≤ 2 then .badDescriptor else .refusedLedger) (s.acceptedAt d) m.words
  | .check _, .plan _ _ => s.completeOpt d .done s.dt []
  | .update _, .refuse m => (s.tlgRefuse none m).updEnd .refusedLedger ((s.upd.op.map (fun o => s.acceptedAt o.desc)).getD s.dt) m.words
  | .replace, .plan p r => if p.moved.isEmpty && p.lost.isEmpty then s else s.tlgPend t d p r
  | _, .plan p r => s.tlgPend t d p r
  | _, .refuse m => s.tlgRefuse d m
  | _, .fused => s

def LedgerTask.isCheck : LedgerTask → Bool
  | .check _ => true
  | _ => false

/-- LEDGER_ANALYSIS_COMPLETE: the oldest analysis ends; with none asked for, the one that re-places copies. An analysis
for a commit does not end while another commit is pending (R323). -/
def ledgerAnalysisComplete (s : Dev) : Dev :=
  match s.tlg.tasks with
  | (t, d) :: rest =>
    if s.tlg.pending.isSome && !t.isCheck then s
    else (s.setTlg (fun x => { x with tasks := rest })).tlgJudge t d
  | [] =>
    if s.tlg.replace && s.tlg.pending.isNone then (s.setTlg (fun x => { x with replace := false })).tlgJudge .replace none
    else s
def execLedgerAnalysisComplete (s : State) : Host.Outcome State Fault Refusal := s.upd ledgerAnalysisComplete

/-! ## Commit (R323-R325) -/

/-- The state area of a newly admitted copy: the initial words of its image, the rest zero (13 R298). -/
def Dev.initArea (s : Dev) (d : Duty) (b : Bool) : Dev :=
  match s.dutyKernel d.desc, d.copy b with
  | some k, some c =>
    if c.moved.isNone then s.setArea c.engine (c.base + k.stateOfs) (k.init ++ List.replicate (k.stateLen - k.init.length) 0)
    else s
  | _, _ => s

/-- The rate groups follow the class-3 duties; loops of a group admitted anew start afresh (07 R172). -/
def Dev.commitGroups (s : Dev) (p : LedgerPlan) : Dev :=
  let s := { s with lpe := { s.lpe with groups := s.groupsOf p.duties } }
  p.added.foldl (fun s id => match kget none p.duties id with
    | some d => if d.desc.cls = 3 then s.freshLoops d.desc.loops else s
    | none => s) s

def Dev.lostEvents (s : Dev) (p : LedgerPlan) : Dev :=
  p.lost.foldl (fun s x =>
    let single := match kget none p.duties x.1 with
      | some d => d.desc.critical && (d.primary.isSome || d.standby.isSome)
      | none => false
    s.event 2 8 5 x.1 s.dt [x.2, b2n single]) s

/-- An engine still has a job of a duty. -/
def Engine.hasJob (x : Engine) (id : Nat) : Bool := (x.run0.toList ++ x.run1.toList ++ x.waiting).any (fun j => j.desc.id == id)

/-- The state of a copy that moves is copied once the engine it comes from has no job of the duty (R324). -/
def Dev.settleCopy (s : Dev) (d : Duty) (b : Bool) : Dev :=
  match d.copy b, s.dutyKernel d.desc with
  | some c, some k =>
    match c.moved with
    | some (e, base) =>
      if (s.engine e).hasJob d.desc.id then s
      else
        let s := s.setArea c.engine (c.base + k.stateOfs) (s.areaWords e (base + k.stateOfs) k.stateLen)
        match s.duty d.desc.id with
        | some x => s.setTlg (fun t => { t with
            duties := kput none t.duties d.desc.id (some (x.setCopy b (some { c with moved := none }))) })
        | none => s
    | none => s
  | _, _ => s

def Dev.settleMoves (s : Dev) : Dev :=
  (dutyList s.tlg.duties).foldl (fun s d => (s.settleCopy d false).settleCopy d true) s

/-- A copy that a plan leaves where it was at the analysis stands as it is now. -/
def LedgerPlan.keeps (p : LedgerPlan) (id : Nat) (b : Bool) : Bool :=
  !p.added.contains id && !p.moved.any (fun v => v.id == id && v.standby == b)

/-- A duty of a plan as it takes effect: an added one from now on, of another what the plan does not change as it stands
now. -/
def Dev.planned1 (s : Dev) (p : LedgerPlan) (d : Duty) : Duty :=
  if p.added.contains d.desc.id then { d with since := s.dt }
  else match s.duty d.desc.id with
    | none => d
    | some x =>
      let copy (b : Bool) : Option Copy :=
        if p.keeps d.desc.id b && (d.copy b).isSome then x.copy b else d.copy b
      { d with overruns := x.overruns, since := x.since, primary := copy false, standby := copy true }

/-- A plan takes effect: duties, state areas, groups, TLG_COMMIT, TLG_MIGRATED and TLG_DEGRADED. -/
def Dev.applyPlan (s : Dev) (p : LedgerPlan) : Dev :=
  let fresh := p.added.flatMap (fun i => [(i, false), (i, true)])
    ++ (p.moved.filter (fun v => v.old == 0xFF)).map (fun v => (v.id, v.standby))
  let m := (dutyList p.duties).foldl (fun m d => kput none m d.desc.id (some (s.planned1 p d))) []
  let s := s.setTlg (fun x => { x with duties := m, commits := satInc 16 x.commits })
  let s := (fresh.foldl (fun s x => match kget none m x.1 with | some d => s.initArea d x.2 | none => s) s).settleMoves
  let s := s.commitGroups p
  let s := s.event 2 1 1 0xFFFF s.dt [p.added.length, p.removed.length, p.moved.length, s.lpe.frames % 2 ^ 32]
  let s := p.moved.foldl (fun s v => s.event 2 2 4 v.id s.dt [v.old, v.new, b2n v.standby]) s
  s.lostEvents p

/-- The engine word of TLG_READ: [7:0] primary, [15:8] standby, 0xFF none. -/
def engineWord (d : Duty) : Nat :=
  ((d.primary.map (·.engine)).getD 0xFF) + 256 * ((d.standby.map (·.engine)).getD 0xFF)

/-- No engine of a cluster has a job. -/
def Dev.clusterIdle (s : Dev) (c : Nat) : Bool :=
  (List.range 4).all (fun i => let x := s.engine (4 * c + i)
    x.run0.isNone && x.run1.isNone && x.waiting.isEmpty)

/-- A cluster powers down: its engines are off (12 R292). -/
def Dev.clusterOff (s : Dev) (c : Nat) (n : Nat) : Dev :=
  let s := (List.range 4).foldl (fun s i => let x := s.engine (4 * c + i)
    s.setEngine (4 * c + i) { x with state := 0, run0 := none, run1 := none, waiting := [] }) s
  let s := { s with eng := { s.eng with pwr := putBit s.eng.pwr c false }, pmu := { s.pmu with pwr := putBit s.pmu.pwr (1 + c) false } }
  s.event 12 2 5 0xFF s.dt [c, 0, n]

/-- The cluster that is to go down goes down once its last job has ended: the command's commit instant. -/
def Dev.clusterFall (s : Dev) : Dev :=
  match s.eng.falling with
  | some (c, d, n) =>
    if s.clusterIdle c then
      (({ s with eng := { s.eng with falling := none } }).clusterOff c n).completeOpt d .done s.dt [wordN n]
    else s
  | none => s

/-- A rollback that the ledger refused is asked for again (18 R411). -/
def Dev.retryRollback (s : Dev) : Dev :=
  if s.upd.op.isSome then s
  else match (List.range 4).find? (fun t => (kget UpdTarget.reset s.upd.targets t).back != 0) with
    | some t =>
      let x := kget UpdTarget.reset s.upd.targets t
      let s := { s with upd := { s.upd with op := some ⟨t, x.active, x.back, none, none⟩ } }
      s.setTlg (fun y => { y with tasks := y.tasks ++ [(.update t, none)] })
    | none => s

/-- What a commit was for is told that it has taken effect. -/
def Dev.commitDone (s : Dev) (c : LedgerCommit) : Dev :=
  match c.task with
  | .config _ => s.completeOpt c.desc .done s.dt [wordN s.lpe.frames]
  | .migrate id _ _ =>
    s.completeOpt c.desc .done s.dt [wordN (((s.duty id).map engineWord).getD 0xFFFF), wordN s.lpe.frames]
  | .clusterDown k => ({ s with eng := { s.eng with falling := some (k, c.desc, c.plan.moved.length) } }).clusterFall
  | .update k =>
    let s := { s with upd := { s.upd with op := s.upd.op.map (fun (o : UpdOp) => { o with commit := some s.dt }) } }
    ({ s with eng := { s.eng with falling := some (k, none, c.plan.moved.length) } }).clusterFall
  | _ => s

/-- A pending commit is due: the instant is the phase zero of a frame whose preceding tail began at or after the end
of the analysis, and the frame is not yet taken up (R323). -/
def Dev.commitDue (s : Dev) (c : LedgerCommit) : Bool :=
  decide (c.ready + 720 ≤ s.dt) && decide (c.restored ≤ s.dt)
    && (s.lpe.frames == 0 || (decide (s.lpe.phaseAt + 50000 ≤ s.dt) && (s.dt - s.lpe.phaseAt) % 50000 == 0))

/-- TLG_COMMIT. -/
def tlgCommit (s : Dev) : Dev :=
  match s.tlg.pending with
  | none => s
  | some c =>
    if s.commitDue c then
      let s := s.applyPlan c.plan
      match c.second with
      | some p => s.setTlg (fun x => { x with pending := some { c with ready := s.dt, plan := p, second := none } })
      | none => ((s.setTlg (fun (x : Tlg) => { x with pending := none })).commitDone c).retryRollback
    else s
def execTlgCommit (s : State) : Host.Outcome State Fault Refusal := s.upd tlgCommit

/-! ## Commands (R328) -/

/-- An analysis runs, asked for or to place copies again. -/
def Dev.analyses (s : Dev) : Bool := !s.tlg.tasks.isEmpty || s.tlg.replace

/-- An analysis runs or a commit is pending. -/
def Dev.tlgBusy (s : Dev) : Bool := s.analyses || s.tlg.pending.isSome

/-! ## System duties (R313) -/

/-- The class-3 duties of the MSQ, from the rate groups it has admitted. -/
def Dev.msqDuties (s : Dev) : List Duty :=
  ((groupList s.lpe.groups).filter (fun x => decide (64 ≤ x.1))).map (fun x =>
    let (id, dl) := Config.msqDuty x.1
    ⟨⟨id % 256, 3, 0, x.2.period, x.2.offset, 0, dl, 0, 0, 1, leBytes 1 (Config.groupNumber x.1).toNat ++ [0]
      ++ leBytes 2 x.2.release ++ leBytes 8 x.2.mask ++ List.replicate 20 0⟩, none, none, 0, 0⟩)

/-- Every admitted duty, by ID. -/
def Dev.allDuties (s : Dev) : List Duty :=
  sortBy (fun a b => decide (a.desc.id ≤ b.desc.id)) (s.msqDuties ++ dutyList s.tlg.duties)

/-- The duty of an ID. -/
def Dev.dutyNamed (s : Dev) (id : Nat) : Option Duty := s.duty id <|> s.msqDuties.find? (fun x => x.desc.id == id)

/-- A firmware duty of class 2 or 6, from the numbers its package has (R314, log entry 34); CPF runs once per CPF frame as
a critical duty (04 R61). -/
def firmwareDesc (id : Nat) : Option DutyDesc :=
  let f := Config.firmwareDuty id
  let p := max 1 (f 2 % 20001)
  let d : DutyDesc := ⟨id, f 0, f 1 % 8, p, f 3 % p, f 4 % 50000, 1 + f 5 % (50000 * p), f 6 % 2 ^ 32, f 7 % 65536, 1,
    List.replicate 8 0 ++ leBytes 8 (f 8) ++ leBytes 8 (f 9) ++ List.replicate 8 0⟩
  if f 0 = 2 then some (if id = Config.cpfDuty then { d with flags := f 1 % 4 / 2 * 2 + 1, period := 5, offset := 0 } else d)
  else if f 0 = 6 then some { d with flags := 0, phase := 0, budget := 0, affinity := 0 }
  else none

/-- Firmware start: the system duties are admitted, their copies placed in ascending duty ID (R318, 17 Table 17-6). -/
def Dev.admitFirmware (s : Dev) : Dev :=
  let l := (List.range 256).filterMap firmwareDesc
  let m := l.foldl (fun m d => kput none m d.id (some (⟨d, none, none, 0, s.dt⟩ : Duty))) s.tlg.duties
  let m := (l.flatMap (fun d => (Duty.roles ⟨d, none, none, 0, 0⟩).map (fun b => (d.id, b)))).foldl (fun m x =>
    match kget none m x.1 with
    | some d => (match s.placeCopy m d x.2 65535 [] none with | .inl m => m | .inr _ => m)
    | none => m) m
  s.setTlg (fun t => { t with duties := m })

def Dev.tlgAsk (s : Dev) (t : LedgerTask) (d : Desc) : Dev := s.setTlg (fun x => { x with tasks := x.tasks ++ [(t, some d)] })

/-- TLG_CONFIG. -/
def tlgConfig (d : Desc) (img : HostBytes) (s : Dev) : Dev :=
  let len := (d.w 5).toNat
  if d.object ≠ 0 ∨ !s.addrOk d (d.w64 3) len then s.fail d .badDescriptor
  else if s.tlgBusy then s.fail d .reconfigBusy
  else s.tlgAsk (.config ((s.fetch d (d.w64 3) img).take len)) d
def execTlgConfig (d : Desc) (img : HostBytes) (s : State) : Host.Outcome State Fault Refusal := s.updIn d img (tlgConfig d img)

/-- TLG_CHECK. -/
def tlgCheck (d : Desc) (img : HostBytes) (s : Dev) : Dev :=
  let len := (d.w 5).toNat
  if d.object ≠ 0 ∨ !s.addrOk d (d.w64 3) len then s.fail d .badDescriptor
  else s.tlgAsk (.check ((s.fetch d (d.w64 3) img).take len)) d
def execTlgCheck (d : Desc) (img : HostBytes) (s : State) : Host.Outcome State Fault Refusal := s.updIn d img (tlgCheck d img)

/-- TLG_READ. -/
def tlgRead (d : Desc) (s : Dev) : Dev :=
  match s.dutyNamed (bitsOf d.object 15 0) with
  | none => s.fail d .badDescriptor
  | some x =>
    if bitsOf d.object 31 16 ≠ 0 ∨ !s.addrOk d (d.w64 3) 64 then s.fail d .badDescriptor
    else (s.hostWrite d (d.w64 3) x.desc.bytes64).complete d .done s.dt
      [wordN (engineWord x), wordN x.overruns, wordN (s.jobCost x.desc false)]
def execTlgRead (d : Desc) (s : State) : Host.Outcome State Fault Refusal := s.cmd d (tlgRead d)

/-- TLG_MIGRATE: the copies named must exist. -/
def tlgMigrate (d : Desc) (s : Dev) : Dev :=
  let sel := (d.w 3).toNat
  let id := bitsOf d.object 15 0
  let ok := match s.duty id with
    | some x => decide (256 ≤ id) && (!tbit sel 0 || x.primary.isSome) && (!tbit sel 1 || x.standby.isSome)
    | none => false
  if bitsOf d.object 31 16 ≠ 0 ∨ sel < 1 ∨ 3 < sel ∨ bitsOf (d.w 4) 31 16 ≠ 0 ∨ !ok then s.fail d .badDescriptor
  else if s.tlgBusy then s.fail d .reconfigBusy
  else s.tlgAsk (.migrate id sel (d.w 4).toNat) d
def execTlgMigrate (d : Desc) (s : State) : Host.Outcome State Fault Refusal := s.cmd d (tlgMigrate d)

/-- An entry of TLG_LIST: ID, class, engines in [3:0] and [7:4] (0xF none), cost. -/
def Dev.listEntry (s : Dev) (x : Duty) : List Byte :=
  let e (c : Option Copy) : Nat := (c.map (·.engine)).getD 15
  leBytes 2 x.desc.id ++ leBytes 1 x.desc.cls ++ leBytes 1 (e x.primary + 16 * e x.standby) ++ leBytes 4 (s.jobCost x.desc false)

/-- TLG_LIST. -/
def tlgList (d : Desc) (s : Dev) : Dev :=
  let l := s.allDuties
  if d.object ≠ 0 ∨ !s.addrOk d (d.w64 3) (8 * l.length) then s.fail d .badDescriptor
  else (s.hostWrite d (d.w64 3) (l.flatMap s.listEntry)).complete d .done s.dt [wordN l.length]
def execTlgList (d : Desc) (s : State) : Host.Outcome State Fault Refusal := s.cmd d (tlgList d)

/-- The ledger's part of an abort: `none` when the target has no analysis or commit to stop; a second commit
of a migration is too late to abort. -/
def Dev.tlgAbort (s : Dev) (d : Desc) : Option Dev :=
  let mine (e : Option Desc) : Bool := match e with | some e => e.same d | none => false
  if s.tlg.tasks.any (fun x => mine x.2) then
    some ((s.setTlg (fun x => { x with tasks := x.tasks.filter (fun y => !mine y.2) })).fail d .aborted)
  else
    match s.tlg.pending, s.eng.falling with
    | some c, _ =>
      let first := match c.task with | .migrate _ sel _ => sel != 3 || c.second.isSome | _ => true
      if mine c.desc && first then some ((s.setTlg (fun (x : Tlg) => { x with pending := none })).fail d .aborted) else none
    | none, some (_, e, _) =>
      if mine e then some (({ s with eng := { s.eng with falling := none } }).fail d .aborted) else none
    | none, none => none

/-! ## Port rates (R321) and the ledger registers (R327) -/

/-- Mb/s of the class-5 duties of a port, rounded down. -/
def Dev.portMbps (s : Dev) (b : Bool) : Nat :=
  let l := portDuties s.tlg.duties b
  portSum l / (1000000 * periodsLcm l)

/-- PORT_LINK_CHANGE: the ledger repeats its test when the rate changes. -/
def portLinkChange (b up full : Bool) (speed : Nat) (s : Dev) : Dev :=
  let was := s.portRate b
  let s := s.portStatus b up full speed
  if s.portRate b = was then s
  else if s.portFails s.tlg.duties b then
    if tbit s.tlg.bwLost (b2n b) then s
    else
      (s.setTlg (fun x => { x with bwLost := putBit x.bwLost (b2n b) true })).event 2 6 6 0xFFFF s.dt
        [1 + b2n b, s.portRate b, s.portMbps b]
  else s.setTlg (fun x => { x with bwLost := putBit x.bwLost (b2n b) false })
def execPortLinkChange (portB up full : Bool) (speed : Nat) (s : State) : Host.Outcome State Fault Refusal :=
  s.upd (whenOn 8 (portLinkChange portB up full speed))

/-- A duty runs without a copy it should have, or is stopped (R325). -/
def Dev.degraded (s : Dev) : Bool :=
  (dutyList s.tlg.duties).any (fun d => d.roles.any (fun b => (d.copy b).isNone))

/-- Time an engine's duties take, over its hyperperiod, ns. -/
def Dev.engineLoad (s : Dev) (e : Nat) : Nat × Nat :=
  let l := copiesOn s.tlg.duties e
  let h := hyperperiod l
  ((l.map (fun x => s.jobCost x.1.desc false * (h / max 1 x.1.desc.period))).foldl (· + ·) 0, h)

/-- The idle time of an engine in its hyperperiod, ns. -/
def Dev.idleTime (s : Dev) (e : Nat) : Nat := let x := s.engineLoad e; 50000 * x.2 - x.1

/-- The spare engine: in service, with the most idle time in its simulated hyperperiod, lowest number on a tie (R318). -/
def Dev.spare (s : Dev) : Option Nat :=
  ((List.range 16).filter s.inService).foldl (fun r e => match r with
    | none => some e
    | some f => if s.idleTime f < s.idleTime e then some e else some f) none

def Dev.tlgStat (s : Dev) : Word :=
  wordN (65536 * (s.allDuties.length % 65536) + 4 * b2n s.degraded + 2 * b2n s.tlg.pending.isSome
    + b2n s.analyses)

def Dev.tlgUtil (s : Dev) (e : Nat) : Word :=
  let x := s.engineLoad e
  if (copiesOn s.tlg.duties e).isEmpty then 0 else wordN (65536 * (1000 * x.1 / (50000 * x.2) % 1024) + x.2 % 65536)

/-- The words of Table 14-6 by offset from 0x2000. -/
def Dev.tlgReg (s : Dev) (off : Nat) : Word :=
  match off with
  | 0x00 => s.tlgStat
  | 0x04 => s.tlg.lastRef
  | 0x08 => wordN (65536 * s.tlg.refused + s.tlg.commits)
  | 0x0C => wordN s.tlg.overruns
  | 0x10 => let l := ofClass s.tlg.duties 4
    wordN (rateSum l (·.bytes) / (1000000 * periodsLcm l) % 65536)
  | 0x14 => wordN (65536 * (s.portMbps true % 65536) + s.portMbps false % 65536)
  | _ => if 0x20 ≤ off ∧ off < 0x60 then s.tlgUtil ((off - 0x20) / 4) else 0

end Sys2Proof.Machine
end

