-- ==== Sys2Proof/Machine/Engines.lean ====
section
/-! DEFINITION. The Hynum engines at run time: releases, jobs and their levels, the Voler instructions, the
output arbiter, engine faults, clusters (12 R273-R296, 13 R302-R306, 14 R326). -/
namespace Sys2Proof.Machine

/-! ## Jobs and banks (12 R290, R291) -/

def Engine.bank (x : Engine) (l : Bool) : Bank := if l then x.bank1 else x.bank0
def Engine.setBank (x : Engine) (l : Bool) (b : Bank) : Engine := if l then { x with bank1 := b } else { x with bank0 := b }
def Engine.run (x : Engine) (l : Bool) : Option Job := if l then x.run1 else x.run0
def Engine.setRun (x : Engine) (l : Bool) (j : Option Job) : Engine := if l then { x with run1 := j } else { x with run0 := j }

/-- The code in instruction memory for the job of a level. -/
def Engine.code (x : Engine) (l : Bool) : List Word := if l then x.code1 else x.code0
def Engine.setCode (x : Engine) (l : Bool) (c : List Word) : Engine := if l then { x with code1 := c } else { x with code0 := c }

/-- A bank at a duty start: registers kept, pending lengths and loops cleared, ESR from the image header. -/
def Bank.start (x : Bank) (modes : Nat) : Bank := { x with pend := [], loops := [], esr := wordN (modes % 8), pc := 0 }

def Job.startsBefore (a b : Job) : Bool := startBefore a.deadline a.release a.desc.id b.deadline b.release b.desc.id

/-- The next job of a level to start, of those that may. -/
def nextJob (l : List Job) (level : Bool) (ok : Job → Bool) : Option Job :=
  (sortBy Job.startsBefore l).find? (fun j => j.desc.level1 == level && ok j)

def Engine.start (x : Engine) (now : Nat) (j : Job) : Engine :=
  let l := j.desc.level1
  ((({ x with waiting := x.waiting.erase j }).setBank l ((x.bank l).start j.kernel.modes)).setCode l j.kernel.code).setRun l
    (some { j with since := now })

/-- The running job of level 0 stops while a job of level 1 runs, and goes on when it has ended. -/
def Engine.pause (x : Engine) (now : Nat) : Engine :=
  { x with run0 := x.run0.map (fun (j : Job) => { j with spent := j.spent + (now - j.since), since := now }) }
def Engine.resume (x : Engine) (now : Nat) : Engine :=
  { x with run0 := x.run0.map (fun (j : Job) => { j with since := now }) }

/-- Start what can start of the jobs that may: level 1 first, preempting level 0; level 0 when no job of level 1 runs. -/
def Engine.schedule (x : Engine) (now : Nat) (ok : Job → Bool) : Engine :=
  let x := match x.run1, nextJob x.waiting true ok with
    | none, some j =>
      let y := if x.level1 then x else x.pause now
      { y.start now j with level1 := true }
    | some _, _ => x
    | none, none => if x.level1 then { x.resume now with level1 := false } else x
  match x.run0, x.run1, nextJob x.waiting false ok with
  | none, none, some j => x.start now j
  | _, _, _ => x

/-- The job that runs, with its level. -/
def Engine.active (x : Engine) : Option (Job × Bool) :=
  match x.run1, x.run0 with
  | some j, _ => some (j, true)
  | none, some j => some (j, false)
  | none, none => none

/-- The frame in which a job was released. -/
def Dev.jobFrame (s : Dev) (j : Job) : Nat := s.lpe.frame - (s.lpe.phaseAt + j.desc.phase - j.release) / 50000

/-- The order that the ledger sets on an engine: the jobs of three hyperperiods in the order in which the simulation
begins them (14 R317). -/
def Dev.engineOrder (s : Dev) (e h : Nat) : List SimJob :=
  let jobs := s.simJobs (copiesOn s.tlg.duties e) (3 * h)
  scheduleOrder (2 * jobs.length + 2) (.idle jobs)

/-- A job may start: every job of its level that comes before it in the ledger's order has been released and started; the
order is read in the second hyperperiod, where job and simulation run alike (14 R317). -/
def Dev.mayStart (s : Dev) (e : Nat) (j : Job) : Bool :=
  let h := hyperperiod (copiesOn s.tlg.duties e)
  let at_ := 50000 * (h + s.jobFrame j % h) + j.desc.phase
  let order := s.engineOrder e h
  match order.findIdx? (fun i => i.id == j.desc.id && i.rel == at_) with
  | none => true
  | some n => (order.take n).all (fun i => i.level1 != j.desc.level1
      || (decide (i.rel + j.release ≤ s.dt + at_)
        && !(s.engine e).waiting.any (fun k => k.desc.id == i.id && k.release + at_ == i.rel + j.release)))

/-- Start what can start on an engine. -/
def Dev.schedule (s : Dev) (e : Nat) : Dev := s.setEngine e ((s.engine e).schedule s.dt (s.mayStart e))

/-- End the job of a level and start what waits; a copy that moves takes its state when its last job here has ended. -/
def Dev.endJob (s : Dev) (e : Nat) (l : Bool) : Dev :=
  (((s.setEngine e ((s.engine e).setRun l none)).schedule e).settleMoves).clusterFall

/-! ## Engine faults (12 R277) -/

/-- An engine of a cluster on trial reports a fault or is suspect: the trial rolls back (18 R411). -/
def Dev.trialFault (s : Dev) (e cause : Nat) : Dev :=
  let t := kget UpdTarget.reset s.upd.targets (e / 4)
  if t.trial && t.back == 0 then
    { s with upd := { s.upd with targets := kput .reset s.upd.targets (e / 4) { t with back := cause } } }
  else s

/-- The uncorrectable error of causes 1 and 4 is counted for its memory (18 Table 18-1, section 9): instruction or data
for cause 1, shared low or high for cause 4; the command does not say which of the two, so the choice is free. -/
def Dev.countUncorr (s : Dev) (cause : Nat) : Dev :=
  if cause = 1 then (s.chrInc 9 (90 + s.free % 2)).drawn
  else if cause = 4 then (s.chrInc 9 (92 + s.free % 2)).drawn
  else s

/-- Engine `e` fail-stops: its jobs end without a copy, and the ledger re-places its duties. -/
def Dev.engFail (s : Dev) (e cause addr : Nat) : Dev :=
  let x := s.engine e
  let id := (x.active.map (·.1.desc.id)).getD 0xFFFF
  let s := s.setEngine e { x with state := 2, level1 := false, run0 := none, run1 := none, waiting := [] }
  let s := { s with eng := { s.eng with
    lastFault := wordN (65536 * (id % 65536) + 256 * (cause % 16) + e % 16),
    uncorr := if cause = 1 ∨ cause = 4 then satInc 16 s.eng.uncorr else s.eng.uncorr } }
  let s := (s.event 12 8 1 e s.dt [cause, id, addr]).chrInc 9 (5 * e + cause - 1)
  let s := s.countUncorr cause
  let s := if cause ≤ 3 then (s.trialFault e 2).retryRollback else s
  (s.setTlg (fun x => { x with replace := true })).settleMoves.clusterFall

/-- ENG_FAULT. -/
def engFault (e cause addr : Nat) (s : Dev) : Dev :=
  if cause < 1 ∨ 5 < cause then s
  else if cause = 5 then
    (List.range 4).foldl (fun s i => let n := 4 * (e / 4) + i
      if s.inService n then s.engFail n 5 addr else s) s
  else if s.inService e then s.engFail e cause addr else s
def execEngFault (e : Fin 16) (cause addr : Nat) (s : State) : Host.Outcome State Fault Refusal := s.upd (engFault e cause addr)

/-! ## Release (12 R275, R278, 14 R314) -/

def Dev.period (s : Dev) (id : Nat) : Option Period := kget none s.eng.periods id
def Dev.setPeriod (s : Dev) (id : Nat) (p : Option Period) : Dev :=
  { s with eng := { s.eng with periods := kput none s.eng.periods id p } }

/-- The words of an input area in the shared SRAM. -/
def Dev.sramWords (s : Dev) (a n : Nat) : List Word :=
  (List.range n).map (fun i => BitVec.ofNat 32 (leNat (s.sramBytes (a + 4 * i) 4)))

/-- An SPI port's result buffer as a duty reads it: the bytes received, padded to 128, and the sample time. -/
def Dev.spiBuffer (s : Dev) (m : Nat) : List Byte := ((s.spi m).result ++ zeros 128).take 128 ++ leBytes 8 (s.spi m).sampleAt

/-- The words at a duty's input address: of an SPI port's result buffer (11 R269, log entry 33), or of the shared SRAM. -/
def Dev.inputWords (s : Dev) (a n : Nat) : List Word :=
  match [0, 1].find? (fun m => Config.spiBufferAt m == a) with
  | some m => (List.range n).map (fun i => BitVec.ofNat 32 (leAt (s.spiBuffer m) (4 * i) 4))
  | none => s.sramWords a n

/-- What is left of the last period before the next release: an undecided mismatch is recorded (12 R281), and
a copy that overran takes the valid copy's state (14 R326). -/
def Dev.closePeriod (s : Dev) (id : Nat) : Dev :=
  match s.period id with
  | none => s
  | some p =>
    let s := match p.overran, p.first with
      | some (e, b), some f => s.setArea e b f.state
      | _, _ => s
    match p.first, p.differ with
    | some f, some g =>
      let a := if f.job.standby then g.engine else f.engine
      let b := if f.job.standby then f.engine else g.engine
      (s.event 12 6 2 0xFF s.dt [id, a, b, 4]).chrInc 9 83
    | _, _ => s

/-- Release the job of one copy on its engine: the state of a copy that has moved comes first (14 R324), then
the inputs. -/
def Dev.releaseCopy (s : Dev) (d : Duty) (k : Kernel) (input : List Word) (b : Bool) : Dev :=
  match d.copy b with
  | none => s
  | some c =>
    if !s.inService c.engine then s
    else
      let s := match c.moved with
        | some (e, base) => s.setArea c.engine (c.base + k.stateOfs) (s.areaWords e (base + k.stateOfs) k.stateLen)
        | none => s
      let j : Job := ⟨d.desc, k, b, s.dt, s.dt + d.desc.deadline, k.cost d.desc.level1 c.first, c.base, 0, s.dt⟩
      let s := s.setArea c.engine (c.base + k.inOfs) input
      let x := s.engine c.engine
      (s.setEngine c.engine { x with waiting := x.waiting ++ [j] }).schedule c.engine

/-- The first job after a migration has been released. -/
def Duty.settled (d : Duty) : Duty :=
  { d with primary := d.primary.map (fun (c : Copy) => { c with moved := none, first := false }),
           standby := d.standby.map (fun (c : Copy) => { c with moved := none, first := false }) }

/-- A release instant of a duty (14 R314): PHASE after the phase zero of a frame of its offset. -/
def Dev.releasesNow (s : Dev) (d : Duty) : Bool :=
  s.dt == s.lpe.phaseAt + d.desc.phase && decide (0 < s.lpe.frames) && s.lpe.frame % max 1 d.desc.period == d.desc.offset
    && decide (d.since ≤ s.dt)

/-- DUTY_RELEASE. -/
def dutyRelease (id : Nat) (s : Dev) : Dev :=
  match s.duty id with
  | none => s
  | some d =>
    match s.dutyKernel d.desc with
    | none => s
    | some k =>
      if !s.pmu.suspended && s.releasesNow d && (d.primary.isSome || d.standby.isSome) then
        let s := s.closePeriod id
        let input := s.inputWords d.desc.inAddr k.inLen
        let src := match d.primary with | some c => some c | none => d.standby
        let state := match src with
          | some c => let (e, b) := c.moved.getD (c.engine, c.base)
            s.areaWords e (b + k.stateOfs) k.stateLen
          | none => []
        let s := s.setPeriod id (some ⟨d.desc, s.dt, s.dt + d.desc.deadline, input, state, none, none, false, none⟩)
        let s := (s.releaseCopy d k input false).releaseCopy d k input true
        s.setTlg (fun x => { x with duties := kput none x.duties id (some d.settled) })
      else s
def execDutyRelease (id : Nat) (s : State) : Host.Outcome State Fault Refusal := s.upd (whenOn 6 (dutyRelease id))

/-! ## One instruction (13 R302-R306) -/

/-- The instruction that engine `e` has next, with its job and level. -/
def Dev.nextVoler (s : Dev) (e : Nat) : Option (Job × Bool × Voler) :=
  if s.inService e then
    match (s.engine e).active with
    | some (j, l) =>
      match (((s.engine e).code l)[((s.engine e).bank l).pc]?).bind decodeVoler with
      | some i => some (j, l, i)
      | none => none
    | none => none
  else none

/-- END: the status word, the commit, and the copy handed to the arbiter (R306). -/
def Dev.jobEnds (s : Dev) (e : Nat) (j : Job) (l : Bool) : Dev :=
  let k := j.kernel
  let s := s.setArea e (j.base + k.outOfs) [statusWord ((s.engine e).bank l).esr]
  let out := s.areaWords e (j.base + k.outOfs) k.outLen
  let c : CopyOut := ⟨j, e, s.dt, out, s.areaWords e (j.base + k.stateOfs) k.stateLen⟩
  let s := { s with eng := { s.eng with
    committed := s.eng.committed ++ [c],
    outBuf := (out.take 1024).zipIdx.foldl (fun m (w, i) => kput 0 m (1024 * e + i) w) s.eng.outBuf } }
  s.endJob e l

/-- Any other instruction; an access outside the region fail-stops the engine (12 Table 12-2). -/
def Dev.volerWork (s : Dev) (e : Nat) (j : Job) (l : Bool) (i : Voler) : Dev :=
  let x := s.engine e
  match Ctx.exec ⟨x.bank l, x.mem, j.base, j.kernel.region⟩ i with
  | none => s.engFail e 3 (x.bank l).pc
  | some c => s.setEngine e { x.setBank l (c.x.advance i) with mem := c.mem }

/-- The engine executes an instruction, when it is the one its job has next. -/
def volerStep (e : Nat) (i : Voler) (s : Dev) : Dev :=
  match s.nextVoler e with
  | some (j, l, k) => if k = i then (if i = .end_ then s.jobEnds e j l else s.volerWork e j l i) else s
  | none => s

/-- NOP on engine `e` (13 Table 13-3). -/
def execVNop (e : Fin 16) (s : State) : Host.Outcome State Fault Refusal := s.upd (volerStep e .nop)
/-- LOOP on engine `e` (13 Table 13-3). -/
def execVLoop (e : Fin 16) (k : Bool) (len : Fin 128) (n : BitVec 16) (s : State) : Host.Outcome State Fault Refusal := s.upd (volerStep e (.loop k len n))
/-- END on engine `e` (13 Table 13-3). -/
def execVEnd (e : Fin 16) (s : State) : Host.Outcome State Fault Refusal := s.upd (volerStep e .end_)
/-- LDI on engine `e` (13 Table 13-3). -/
def execVLdi (e d : Fin 16) (imm : BitVec 20) (s : State) : Host.Outcome State Fault Refusal := s.upd (volerStep e (.ldi d imm))
/-- LDIH on engine `e` (13 Table 13-3). -/
def execVLdih (e d : Fin 16) (imm : BitVec 12) (s : State) : Host.Outcome State Fault Refusal := s.upd (volerStep e (.ldih d imm))
/-- LDA on engine `e` (13 Table 13-3). -/
def execVLda (e : Fin 16) (c : PtrClass) (i : Fin 8) (rel : Bool) (imm : BitVec 16) (s : State) : Host.Outcome State Fault Refusal := s.upd (volerStep e (.lda c i rel imm))
/-- MVA on engine `e` (13 Table 13-3). -/
def execVMva (e : Fin 16) (c : PtrClass) (i : Fin 8) (toD : Bool) (d : Fin 16) (s : State) : Host.Outcome State Fault Refusal := s.upd (volerStep e (.mva c i toD d))
/-- MOV on engine `e` (13 Table 13-3). -/
def execVMov (e d x : Fin 16) (s : State) : Host.Outcome State Fault Refusal := s.upd (volerStep e (.mov d x))
/-- SEL on engine `e` (13 Table 13-3). -/
def execVSel (e d x t : Fin 16) (cond : SelCond) (s : State) : Host.Outcome State Fault Refusal := s.upd (volerStep e (.sel d x t cond))
/-- LD on engine `e` (13 Table 13-3). -/
def execVLd (e d : Fin 16) (am : Am) (s : State) : Host.Outcome State Fault Refusal := s.upd (volerStep e (.ld d am))
/-- ST on engine `e` (13 Table 13-3). -/
def execVSt (e d : Fin 16) (am : Am) (s : State) : Host.Outcome State Fault Refusal := s.upd (volerStep e (.st d am))
/-- LD2 on engine `e` (13 Table 13-3). -/
def execVLd2 (e d d2 : Fin 16) (am1 am2 : Am) (s : State) : Host.Outcome State Fault Refusal := s.upd (volerStep e (.ld2 d d2 am1 am2))
/-- STA on engine `e` (13 Table 13-3). -/
def execVSta (e : Fin 16) (a : Fin 4) (r : Bool) (am : Am) (s : State) : Host.Outcome State Fault Refusal := s.upd (volerStep e (.sta a r am))
/-- ADD on engine `e` (13 Table 13-3). -/
def execVAdd (e d x t : Fin 16) (sat : Bool) (s : State) : Host.Outcome State Fault Refusal := s.upd (volerStep e (.add d x t sat))
/-- SUB on engine `e` (13 Table 13-3). -/
def execVSub (e d x t : Fin 16) (sat : Bool) (s : State) : Host.Outcome State Fault Refusal := s.upd (volerStep e (.sub d x t sat))
/-- NEG on engine `e` (13 Table 13-3). -/
def execVNeg (e d x : Fin 16) (sat : Bool) (s : State) : Host.Outcome State Fault Refusal := s.upd (volerStep e (.neg d x sat))
/-- ABS on engine `e` (13 Table 13-3). -/
def execVAbs (e d x : Fin 16) (sat : Bool) (s : State) : Host.Outcome State Fault Refusal := s.upd (volerStep e (.abs d x sat))
/-- AND on engine `e` (13 Table 13-3). -/
def execVAnd (e d x t : Fin 16) (s : State) : Host.Outcome State Fault Refusal := s.upd (volerStep e (.and d x t))
/-- OR on engine `e` (13 Table 13-3). -/
def execVOr (e d x t : Fin 16) (s : State) : Host.Outcome State Fault Refusal := s.upd (volerStep e (.or d x t))
/-- XOR on engine `e` (13 Table 13-3). -/
def execVXor (e d x t : Fin 16) (s : State) : Host.Outcome State Fault Refusal := s.upd (volerStep e (.xor d x t))
/-- SHL on engine `e` (13 Table 13-3). -/
def execVShl (e d x : Fin 16) (sat : Bool) (k : Fin 24) (s : State) : Host.Outcome State Fault Refusal := s.upd (volerStep e (.shl d x sat k))
/-- SHR on engine `e` (13 Table 13-3). -/
def execVShr (e d x : Fin 16) (k : Fin 24) (s : State) : Host.Outcome State Fault Refusal := s.upd (volerStep e (.shr d x k))
/-- CMP on engine `e` (13 Table 13-3). -/
def execVCmp (e x t : Fin 16) (s : State) : Host.Outcome State Fault Refusal := s.upd (volerStep e (.cmp x t))
/-- MIN on engine `e` (13 Table 13-3). -/
def execVMin (e d x t : Fin 16) (s : State) : Host.Outcome State Fault Refusal := s.upd (volerStep e (.min d x t))
/-- MAX on engine `e` (13 Table 13-3). -/
def execVMax (e d x t : Fin 16) (s : State) : Host.Outcome State Fault Refusal := s.upd (volerStep e (.max d x t))
/-- ADDI on engine `e` (13 Table 13-3). -/
def execVAddi (e d x : Fin 16) (sat : Bool) (imm : BitVec 12) (s : State) : Host.Outcome State Fault Refusal := s.upd (volerStep e (.addi d x sat imm))
/-- MAC on engine `e` (13 Table 13-3). -/
def execVMac (e : Fin 16) (a : Fin 4) (sub clr : Bool) (x t : Fin 16) (s : State) : Host.Outcome State Fault Refusal := s.upd (volerStep e (.mac a sub clr x t))
/-- MAC2 on engine `e` (13 Table 13-3). -/
def execVMac2 (e : Fin 16) (a : Fin 4) (sub clr : Bool) (x t u v : Fin 16) (s : State) : Host.Outcome State Fault Refusal := s.upd (volerStep e (.mac2 a sub clr x t u v))
/-- DMAC on engine `e` (13 Table 13-3). -/
def execVDmac (e : Fin 16) (a b : Fin 4) (x t u v : Fin 16) (subA subB : Bool) (s : State) : Host.Outcome State Fault Refusal := s.upd (volerStep e (.dmac a b x t u v subA subB))
/-- MACM on engine `e` (13 Table 13-3). -/
def execVMacm (e : Fin 16) (a : Fin 4) (sub clr : Bool) (x : Fin 16) (am : Am) (s : State) : Host.Outcome State Fault Refusal := s.upd (volerStep e (.macm a sub clr x am))
/-- TAPX on engine `e` (13 Table 13-3). -/
def execVTapx (e : Fin 16) (a : Fin 4) (sub move : Bool) (pc pd : Fin 8) (dm dk : Fin 16) (xm : Fin 4) (dir : Bool) (s : State) : Host.Outcome State Fault Refusal := s.upd (volerStep e (.tapx a sub move pc pd dm dk xm dir))
/-- ADDA on engine `e` (13 Table 13-3). -/
def execVAdda (e : Fin 16) (a b : Fin 4) (sub : Bool) (s : State) : Host.Outcome State Fault Refusal := s.upd (volerStep e (.adda a b sub))
/-- ACCLD on engine `e` (13 Table 13-3). -/
def execVAccld (e : Fin 16) (a : Fin 4) (x : Fin 16) (pos : Fin 5) (s : State) : Host.Outcome State Fault Refusal := s.upd (volerStep e (.accld a x pos))
/-- ASH on engine `e` (13 Table 13-3). -/
def execVAsh (e : Fin 16) (a : Fin 4) (k : BitVec 5) (s : State) : Host.Outcome State Fault Refusal := s.upd (volerStep e (.ash a k))
/-- RDA on engine `e` (13 Table 13-3). -/
def execVRda (e : Fin 16) (a : Fin 4) (r : Bool) (view : AccView) (d : Fin 16) (s : State) : Host.Outcome State Fault Refusal := s.upd (volerStep e (.rda a r view d))
/-- RDESR on engine `e` (13 Table 13-3). -/
def execVRdesr (e d : Fin 16) (s : State) : Host.Outcome State Fault Refusal := s.upd (volerStep e (.rdesr d))
/-- WRESR on engine `e` (13 Table 13-3). -/
def execVWresr (e : Fin 16) (clear : BitVec 6) (mask val : BitVec 3) (s : State) : Host.Outcome State Fault Refusal := s.upd (volerStep e (.wresr clear mask val))

/-- The row of the table that stands for an instruction on engine `e` (13 Table 13-3). -/
def volerRow (e : Fin 16) : Voler → Instr
  | .nop => .vNop e
  | .loop k len n => .vLoop e k len n
  | .end_ => .vEnd e
  | .ldi d imm => .vLdi e d imm
  | .ldih d imm => .vLdih e d imm
  | .lda c i rel imm => .vLda e c i rel imm
  | .mva c i toD d => .vMva e c i toD d
  | .mov d x => .vMov e d x
  | .sel d x t cond => .vSel e d x t cond
  | .ld d am => .vLd e d am
  | .st d am => .vSt e d am
  | .ld2 d d2 am1 am2 => .vLd2 e d d2 am1 am2
  | .sta a r am => .vSta e a r am
  | .add d x t sat => .vAdd e d x t sat
  | .sub d x t sat => .vSub e d x t sat
  | .neg d x sat => .vNeg e d x sat
  | .abs d x sat => .vAbs e d x sat
  | .and d x t => .vAnd e d x t
  | .or d x t => .vOr e d x t
  | .xor d x t => .vXor e d x t
  | .shl d x sat k => .vShl e d x sat k
  | .shr d x k => .vShr e d x k
  | .cmp x t => .vCmp e x t
  | .min d x t => .vMin e d x t
  | .max d x t => .vMax e d x t
  | .addi d x sat imm => .vAddi e d x sat imm
  | .mac a sub clr x t => .vMac e a sub clr x t
  | .mac2 a sub clr x t u v => .vMac2 e a sub clr x t u v
  | .dmac a b x t u v subA subB => .vDmac e a b x t u v subA subB
  | .macm a sub clr x am => .vMacm e a sub clr x am
  | .tapx a sub move pc pd dm dk xm dir => .vTapx e a sub move pc pd dm dk xm dir
  | .adda a b sub => .vAdda e a b sub
  | .accld a x pos => .vAccld e a x pos
  | .ash a k => .vAsh e a k
  | .rda a r view d => .vRda e a r view d
  | .rdesr d => .vRdesr e d
  | .wresr clear mask val => .vWresr e clear mask val

/-! ## The output arbiter (12 R279-R281) -/

/-- The copies that may be valid: of the present period, committed before the deadline. -/
def Dev.copyValid (s : Dev) (c : CopyOut) : Bool :=
  match s.period c.job.desc.id with
  | some p => p.release == c.job.release && decide (c.at_ < p.deadline)
  | none => false

/-- The copy the arbiter takes next: the oldest, and of two that committed on one fabric clock edge the
primary. -/
def nextCopy : List CopyOut → Option CopyOut
  | [] => none
  | c :: t =>
    match t.find? (fun d => d.job.desc.id == c.job.desc.id && d.job.release == c.job.release && d.at_ / 2 == c.at_ / 2
        && c.job.standby && !d.job.standby) with
    | some d => some d
    | none => some c

def wordBytes (l : List Word) : List Byte := l.flatMap (fun w => leBytes 4 w.toNat)

/-- Forward a copy: the shared-SRAM output area, the mailbox words, and the consumers. -/
def Dev.forward (s : Dev) (c : CopyOut) : Dev :=
  let d := c.job.desc
  let s := s.setSramBytes d.outAddr (wordBytes c.out)
  let s := (maskBits 32 d.mailbox).foldl (fun s k => match c.out[k + 1]? with
    | some w => { s with lpe := { s.lpe with mailbox := kput 0 s.lpe.mailbox k (sWord w) } }
    | none => s) s
  s.emit (.dutyOutput d.id (wordBytes c.out))

/-- The arbiter takes a valid copy: the first is forwarded, the second compared. -/
def Dev.takeCopy (s : Dev) (c : CopyOut) : Dev :=
  let id := c.job.desc.id
  match s.period id with
  | none => s
  | some p =>
    match p.first with
    | none => (s.setPeriod id (some { p with first := some c })).forward c
    | some f =>
      if f.out = c.out then s
      else
        let s := { s with eng := { s.eng with mismatches := satInc 16 s.eng.mismatches } }
        s.setPeriod id (some { p with differ := some c })

/-- ARBITER_COPY_COMMIT. -/
def arbiterCopyCommit (s : Dev) : Dev :=
  match nextCopy s.eng.committed with
  | none => s
  | some c =>
    let t := { s with eng := { s.eng with committed := s.eng.committed.erase c } }
    if s.copyValid c then t.takeCopy c else t
def execArbiterCopyCommit (s : State) : Host.Outcome State Fault Refusal := s.upd arbiterCopyCommit

/-- DUTY_DEADLINE: a period without a valid copy. -/
def dutyDeadline (id : Nat) (s : Dev) : Dev :=
  match s.period id with
  | none => s
  | some p =>
    if p.closed || decide (s.dt < p.deadline) then s
    else
      let s := s.setPeriod id (some { p with closed := true })
      if p.first.isSome || s.eng.committed.any (fun c => c.job.desc.id == id && s.copyValid c) then s
      else
        let s := { s with eng := { s.eng with noOut := satInc 32 s.eng.noOut } }
        (s.event 12 8 4 0xFF p.deadline [id, p.release % 2 ^ 32]).chrInc 9 84
def execDutyDeadline (id : Nat) (s : State) : Host.Outcome State Fault Refusal := s.upd (dutyDeadline id)

/-- A suspect engine retires: its jobs end, and its duties migrate (12 R281). -/
def Dev.retire (s : Dev) (e : Nat) : Dev :=
  let x := s.engine e
  let s := s.setEngine e { x with state := 3, level1 := false, run0 := none, run1 := none, waiting := [] }
  let s := s.event 12 6 3 e s.dt [1, (copiesOn s.tlg.duties e).length]
  (s.setTlg (fun x => { x with replace := true })).settleMoves.clusterFall

/-- A kernel runs to END from a bank and a region, in at most so many instructions; none where it fail-stops or does
not end. -/
def rerun (k : Kernel) (base : Nat) : Nat → Bank → KMap Word → Option (Bank × KMap Word)
  | 0, _, _ => none
  | n + 1, x, m =>
    match (k.code[x.pc]?).bind decodeVoler with
    | none => none
    | some i =>
      if i = .end_ then some (x, m)
      else match Ctx.exec ⟨x, m, base, k.region⟩ i with
        | none => none
        | some c => rerun k base n (c.x.advance i) c.mem

/-- What a re-execution leaves: the spare engine, its region base, bank and memory, and its output and state areas. -/
structure Rerun where
  engine : Nat
  base : Nat
  bank : Bank
  mem : KMap Word
  out : List Word
  state : List Word
deriving DecidableEq, Repr

/-- Words with the bits that a fault has flipped (12 R277). -/
def flipWords : List Word → List Word → List Word
  | w :: ws, f :: fs => (w ^^^ f) :: flipWords ws fs
  | ws, [] => ws
  | [], _ => []

/-- The spare runs a period again in a free span of its local memory, from the recorded input and state regions
(12 R281); every instruction takes at least one cycle of the kernel's cost. `out` and `state`: the bits of those regions
that a fault which does not stop the spare flips. -/
def Dev.reexecute (s : Dev) (p : Period) (j : Job) (out state : List Word) : Option Rerun :=
  let k := j.kernel
  match s.spare with
  | none => none
  | some e =>
    match freeBase (s.regions s.tlg.duties e) k.region with
    | none => none
    | some b =>
      let s := (s.setArea e (b + k.stateOfs) p.state).setArea e (b + k.inOfs) p.input
      let x := s.engine e
      match rerun k b (k.cycles + 1) ((x.bank j.desc.level1).start k.modes) x.mem with
      | none => none
      | some (y, m) =>
        let s := (s.setEngine e { x with mem := m }).setArea e (b + k.outOfs) [statusWord y.esr]
        let s := s.setArea e (b + k.outOfs) (flipWords (s.areaWords e (b + k.outOfs) k.outLen) out)
        let s := s.setArea e (b + k.stateOfs) (flipWords (s.areaWords e (b + k.stateOfs) k.stateLen) state)
        some ⟨e, b, y, (s.engine e).mem, s.areaWords e (b + k.outOfs) k.outLen, s.areaWords e (b + k.stateOfs) k.stateLen⟩

/-- The spare keeps what the re-execution has left in it; the bank of a job in progress is that job's. -/
def Dev.keepRerun (s : Dev) (l : Bool) (r : Rerun) : Dev :=
  let x := { s.engine r.engine with mem := r.mem }
  s.setEngine r.engine (if (x.run l).isSome then x else x.setBank l r.bank)

/-- The spare's copy takes the place of a suspect copy whose engine has retired (12 R281). -/
def Dev.takePlace (s : Dev) (c : CopyOut) (r : Rerun) : Dev :=
  let id := c.job.desc.id
  match s.duty id with
  | none => s
  | some d =>
    match d.copy c.job.standby with
    | some k =>
      if k.engine = c.engine ∧ s.inService r.engine = true then
        s.setTlg (fun x => { x with duties := kput none x.duties id (some (d.setCopy c.job.standby (some ⟨r.engine, r.base, none, false⟩))) })
      else s
    | none => s

/-- A suspect copy: its engine retires when RETIRE is set, and otherwise its state region takes the re-executed
state. `place`: the spare's copy takes its place. -/
def Dev.suspect (s : Dev) (c : CopyOut) (r : Rerun) (place : Bool) : Dev :=
  let s := (s.trialFault c.engine 3).retryRollback
  let s := s.setArea c.engine (c.job.base + c.job.kernel.stateOfs) r.state
  if s.bit Reg.engCfg 0 then
    let s := s.retire c.engine
    if place then s.takePlace c r else s
  else s

/-- REEXECUTION_COMPLETE: the spare's output is compared with both copies. A re-execution that cannot end leaves the
mismatch undecided at the next release. -/
def reexecutionComplete (id : Nat) (out state : List Word) (s : Dev) : Dev :=
  match s.period id with
  | some p =>
    match p.first, p.differ with
    | some f, some g =>
      match s.reexecute p f.job out state with
      | none => s
      | some r =>
        let a := if f.job.standby then g else f
        let b := if f.job.standby then f else g
        let outcome := if r.out = b.out then 1 else if r.out = a.out then 2 else 3
        let s := (s.keepRerun f.job.desc.level1 r).setPeriod id (some { p with differ := none })
        let s := { s with eng := { s.eng with reexecs := satInc 16 s.eng.reexecs } }
        let s := (s.event 12 6 2 0xFF s.dt [id, a.engine, b.engine, outcome]).chrInc 9 (79 + outcome)
        let s := if outcome = 2 then s else s.suspect a r true
        if outcome = 1 then s else s.suspect b r (outcome == 2)
    | _, _ => s
  | none => s
def execReexecutionComplete (id : Nat) (out state : List Word) (s : State) : Host.Outcome State Fault Refusal :=
  s.upd (reexecutionComplete id out state)

/-! ## Overruns (14 R326) -/

/-- The time a job has run. -/
def Engine.ranFor (x : Engine) (l : Bool) (j : Job) (now : Nat) : Nat :=
  if l == x.level1 then j.spent + (now - j.since) else j.spent

/-- TLG_OVERRUN: the job of a level has run its cost and is stopped. -/
def tlgOverrun (e : Nat) (l : Bool) (s : Dev) : Dev :=
  let x := s.engine e
  match x.run l with
  | none => s
  | some j =>
    if x.ranFor l j s.dt < j.cost then s
    else
      let id := j.desc.id
      let n := satInc 32 (((s.duty id).map (·.overruns)).getD 0)
      let s := match s.duty id with
        | some d => s.setTlg (fun x => { x with duties := kput none x.duties id (some { d with overruns := n }) })
        | none => s
      let s := s.setTlg (fun x => { x with overruns := satInc 32 x.overruns })
      let s := (s.event 2 6 3 id s.dt [e, j.release % 2 ^ 32, n]).chrInc 9 96
      let s := match s.period id with
        | some p =>
          if j.desc.critical && p.release == j.release then
            s.setPeriod id (some { p with overran := some (e, j.base + j.kernel.stateOfs) })
          else s
        | none => s
      s.endJob e l
def execTlgOverrun (e : Fin 16) (level : Bool) (s : State) : Host.Outcome State Fault Refusal := s.upd (tlgOverrun e level)

/-! ## Registers and commands (12 R292-R296) -/

def Dev.engStat (s : Dev) : Word :=
  wordN ((List.range 16).foldl (fun a e => a + (if e < s.engines then (s.engine e).state % 4 else 0) * 4 ^ e) 0)
def Dev.engClusterWord (s : Dev) : Word := wordN (16 * (2 ^ s.clusters - 1) + s.eng.pwr % 16)
def Dev.engArb (s : Dev) : Word := wordN (65536 * s.eng.mismatches + s.eng.reexecs)
def Dev.engEcc (s : Dev) : Word := wordN (65536 * s.eng.uncorr + s.eng.corr)

/-- The words of Table 12-7 by offset from 0xB000. -/
def Dev.engReg (s : Dev) (off : Nat) : Word :=
  match off with
  | 0x00 => s.engStat
  | 0x04 => s.engClusterWord
  | 0x08 => s.reg Reg.engCfg
  | 0x0C => s.engArb
  | 0x10 => wordN s.eng.noOut
  | 0x14 => s.engEcc
  | 0x18 => match s.spare with | some e => wordN (128 + e) | none => 0
  | 0x1C => s.eng.lastFault
  | _ => 0

/-- ENG_STATUS. -/
def engStatus (d : Desc) (s : Dev) : Dev :=
  if d.object ≠ 0 then s.fail d .badDescriptor
  else s.complete d .done s.dt [s.engStat, s.engClusterWord, s.engArb, s.engEcc]
def execEngStatus (d : Desc) (s : State) : Host.Outcome State Fault Refusal := s.cmd d (engStatus d)

def Dev.clusterUp (s : Dev) (c : Nat) : Bool := tbit s.eng.pwr c

/-- ENG_CLUSTER_DOWN: of the two CPF clusters 0 and 1, one stays up (R292, R61). -/
def engClusterDown (d : Desc) (s : Dev) : Dev :=
  let c := bitsOf d.object 1 0
  if s.clusters ≤ c then s.fail d .notInVariant
  else if bitsOf d.object 31 2 ≠ 0 then s.fail d .badDescriptor
  else if !s.clusterUp c then s.complete d .done s.dt [0]
  else if c < 2 ∧ !s.clusterUp (1 - c) then s.fail d .refusedLedger
  else if s.tlgBusy || s.eng.falling.isSome then s.fail d .reconfigBusy
  else s.tlgAsk (.clusterDown c) d
def execEngClusterDown (d : Desc) (s : State) : Host.Outcome State Fault Refusal := s.cmd d (engClusterDown d)

/-- How many engines of a cluster are in service. -/
def Dev.inServiceOf (s : Dev) (c : Nat) : Nat := ((List.range 4).filter (fun i => s.inService (4 * c + i))).length

/-- ENG_CLUSTER_UP: completes when the engines are in service (CLUSTER_UP_COMPLETE). -/
def engClusterUp (d : Desc) (s : Dev) : Dev :=
  let c := bitsOf d.object 1 0
  if s.clusters ≤ c then s.fail d .notInVariant
  else if bitsOf d.object 31 2 ≠ 0 then s.fail d .badDescriptor
  else if (kget none s.eng.rising c).isSome then s.fail d .reconfigBusy
  else if s.clusterUp c then s.complete d .done s.dt [wordN (s.inServiceOf c)]
  else { s with eng := { s.eng with rising := kput none s.eng.rising c (some (some d)) } }
def execEngClusterUp (d : Desc) (s : State) : Host.Outcome State Fault Refusal := s.cmd d (engClusterUp d)

/-- An engine in service with zero-filled local memories (R292, R293). -/
def Engine.cleared (x : Engine) : Engine :=
  { x with state := 1, level1 := false, run0 := none, run1 := none, waiting := [], mem := [], code0 := [], code1 := [] }

/-- The engines of a cluster come into service with zero-filled memories. -/
def Dev.clusterOn (s : Dev) (c : Nat) : Dev :=
  let s := (List.range 4).foldl (fun s i => let x := s.engine (4 * c + i)
    s.setEngine (4 * c + i) x.cleared) s
  { s with eng := { s.eng with pwr := putBit s.eng.pwr c true }, pmu := { s.pmu with pwr := putBit s.pmu.pwr (1 + c) true } }

/-- CLUSTER_UP_COMPLETE. -/
def clusterUpComplete (c : Nat) (s : Dev) : Dev :=
  match kget none s.eng.rising c with
  | none => s
  | some d =>
    let s := { s with eng := { s.eng with rising := kput none s.eng.rising c none } }
    let s := (s.clusterOn c).event 12 2 5 0xFF s.dt [c, 1, 0]
    (s.setTlg (fun x => { x with replace := true })).completeOpt d .done s.dt [wordN 4]
def execClusterUpComplete (c : Fin 4) (s : State) : Host.Outcome State Fault Refusal := s.upd (clusterUpComplete c)

/-- ENG_RESTART: tests and zero-fills the memories of one engine. -/
def engRestart (d : Desc) (test : Nat) (s : Dev) : Dev :=
  let e := bitsOf d.object 3 0
  let x := s.engine e
  if s.engines ≤ e then s.fail d .notInVariant
  else if bitsOf d.object 31 4 ≠ 0 then s.fail d .badDescriptor
  else if x.state = 1 then s.fail d .reconfigBusy
  else if x.state = 0 then s.fail d .badDescriptor
  else if test = 0 then
    let s := s.setEngine e x.cleared
    (s.setTlg (fun x => { x with replace := true })).complete d .done s.dt [0]
  else (s.setEngine e { x with mem := [], code0 := [], code1 := [] }).complete d .hwFault s.dt [wordN test]
def execEngRestart (d : Desc) (test : Nat) (s : State) : Host.Outcome State Fault Refusal := s.cmd d (engRestart d test)

/-- The engines' part of an abort: a cluster that is coming up stays down. -/
def Dev.engAbort (s : Dev) (d : Desc) : Option Dev :=
  match (List.range 4).find? (fun c => match kget none s.eng.rising c with
      | some (some e) => e.same d | _ => false) with
  | some c => some (({ s with eng := { s.eng with rising := kput none s.eng.rising c none } }).fail d .aborted)
  | none => none

end Sys2Proof.Machine
end

