-- ==== Sys2Proof/Machine/Hiu.lean ====
section
/-! DEFINITION. The Host Interface Unit: dispatch, doorbells, vectors, queue pairs, version negotiation,
aborts and host-side resets (15 R330-R351). -/
namespace Sys2Proof.Machine

/-! ## What a descriptor addresses (R334, R390, 02 R22) -/

/-- The opcodes of the chapters' command tables. -/
def knownOp (o : Nat) : Bool :=
  let n := o % 256
  match o / 256 with
  | 0x01 => decide (1 ≤ n ∧ n ≤ 7)
  | 0x02 => decide (1 ≤ n ∧ n ≤ 5)
  | 0x03 => decide (1 ≤ n ∧ n ≤ 6) || decide (0x10 ≤ n ∧ n ≤ 0x16)
  | 0x04 => decide (1 ≤ n ∧ n ≤ 6)
  | 0x05 => decide (1 ≤ n ∧ n ≤ 0x0A)
  | 0x06 => decide (1 ≤ n ∧ n ≤ 5)
  | 0x07 => decide (1 ≤ n ∧ n ≤ 3)
  | 0x08 => decide (1 ≤ n ∧ n ≤ 9)
  | 0x09 => decide (1 ≤ n ∧ n ≤ 5)
  | 0x0A => decide (1 ≤ n ∧ n ≤ 3) || decide (0x11 ≤ n ∧ n ≤ 0x13) || decide (0x21 ≤ n ∧ n ≤ 0x22) || decide (0x31 ≤ n ∧ n ≤ 0x32)
  | 0x0B => decide (1 ≤ n ∧ n ≤ 5)
  | 0x0C => decide (1 ≤ n ∧ n ≤ 4) || decide (0x11 ≤ n ∧ n ≤ 0x13)
  | 0x0D => decide (1 ≤ n ∧ n ≤ 2)
  | 0x0E => decide (1 ≤ n ∧ n ≤ 2) || decide (0x11 ≤ n ∧ n ≤ 0x15)
  | _ => false

/-- The power domain of the block an opcode addresses (19 Table 19-1); 10 for a committed or archived
record (18 R413), 0 for what stays on. -/
def opDomain (d : Desc) : Nat :=
  match d.opcode / 256 with
  | 0x03 | 0x04 | 0x05 | 0x06 => 6
  | 0x08 | 0x09 => 5
  | 0x0A => 8
  | 0x0E => if (d.opcode = 0x0E01 ∧ bitsOf (d.w 3) 1 0 ≠ 0) ∨ d.opcode = 0x0E02 then 10 else 0
  | _ => 0

def isNotInVariant (r : Option Status) : Bool := r == some .notInVariant

/-- The opcode exists but it, or its object, is fused off (R22 step 2). -/
def Dev.opFused (s : Dev) (d : Desc) : Bool :=
  let o := d.opcode
  match o / 256 with
  | 0x02 => o == 0x0204 && bitsOf (d.w 4) 15 0 != 0 && bitsOf (d.w 4) 15 0 % 2 ^ s.engines == 0
  | 0x03 =>
    if o ≤ 0x0305 then isNotInVariant (s.pfiForm d false false) || (o == 0x0303 && s.maskAbsent (bitsOf (d.w 4) 25 16))
    else o == 0x0306 && s.maskAbsent (bitsOf (d.w 3) 9 0)
  | 0x05 =>
    if o ≤ 0x0509 then isNotInVariant (s.axisCheck d false) || ((o == 0x0503 || o == 0x0504) && isNotInVariant (s.syncCheck d))
    else
      let b := bitsOf d.object 7 0
      decide (0x10 ≤ b ∧ b < 0x20) && !s.hasBridge (b - 0x10)
  | 0x09 => !s.hasGrp || (o == 0x0901 && s.overLimit d)
  | 0x0A => decide (0x0A11 ≤ o ∧ o ≤ 0x0A13) && isNotInVariant (s.canCheck d)
  | 0x0B =>
    let m := d.w64 3
    if o = 0x0B01 then decide (bitsOf d.object 5 0 < 48 ∧ s.fios ≤ bitsOf d.object 5 0)
    else (o == 0x0B02 || o == 0x0B03) && decide (m < 2 ^ 48) && s.fioAbsent m
  | 0x0C =>
    if o = 0x0C02 ∨ o = 0x0C03 then decide (s.clusters ≤ bitsOf d.object 1 0)
    else o == 0x0C04 && decide (s.engines ≤ bitsOf d.object 3 0)
  | 0x0E => decide (0x0E11 ≤ o) && decide (bitsOf d.object 2 0 < 4 ∧ s.clusters ≤ bitsOf d.object 2 0)
  | _ => false

end Sys2Proof.Machine

namespace Sys2Proof

/-- HIU_HELLO and HIU_IDENTIFY. -/
def Desc.isIdentity (d : Desc) : Bool := d.opcode == 0x0101 || d.opcode == 0x0102

end Sys2Proof

namespace Sys2Proof.Machine

/-- The device can never become ready (02 R27, 17 R393). -/
def Dev.neverReady (s : Dev) : Bool := !s.fuseOk || s.pmu.bootErr != 0

/-- The checks of R334 that no command's chapter makes, in the order of R22. -/
def Dev.dispatchCheck (s : Dev) (d : Desc) : Option Status :=
  if !(d.isIdentity && d.ifver == 0) && (s.hiu.ifver == 0 || d.ifver != s.hiu.ifver) then some .badVersion
  else if s.neverReady && !d.isIdentity then some .hwFault
  else if knownOp d.opcode && s.opFused d then some .notInVariant
  else if !knownOp d.opcode || (d.opcode / 256 == 1 && d.opcode != 0x0106 && d.qp != 0) || decide (4 ≤ d.flags)
      || (s.hiu.ifver == 2 && d.flags != 0) || s.isInFlight d then some .badDescriptor
  else none

/-- The words of descriptor `i` of the ring of a LOCAL queue pair, which lies in the low SRAM bank (R341). -/
def Dev.ringWords (s : Dev) (p : QPair) (i : Nat) : List Word := s.sramWords (p.sqBase + 64 * (i % p.sqSize)) 16

/-- The descriptors between head and tail: those the host's memory holds, handed over with the command, or those of
the shared SRAM for a LOCAL queue pair. -/
def Dev.queuedOf (s : Dev) (q : Nat) (queued : List Desc) : List Desc :=
  let p := s.qp q
  if p.isLocal then
    (List.range ((p.sqTail + p.sqSize - p.sqHead) % p.sqSize)).map (fun i => ⟨q, s.ringWords p (p.sqHead + i), p.era⟩)
  else queued

/-- The queue pair a command names in word 2; none: not 1 to 95. -/
def qpObject (d : Desc) : Option Nat :=
  let q := bitsOf d.object 6 0
  if d.qp ≠ 0 ∨ bitsOf d.object 31 7 ≠ 0 ∨ q = 0 ∨ 95 < q then none else some q

/-- A dispatched HIU_QP_DISABLE names a queue pair: its dispatch and its SQ_TAIL stop at that instant (R344). -/
def Dev.stopped (s : Dev) (q : Nat) : Bool := s.hiu.inFlight.any (fun e => e.desc.opcode == 0x0105 && qpObject e.desc == some q)

/-- What must hold before a descriptor of a queue pair is dispatched (R334, R390, 17 R392). -/
def Dev.canDispatch (s : Dev) (d : Desc) : Bool :=
  let p := s.qp d.qp
  s.powered 7 && p.enabled && d.era == p.era && !s.stopped d.qp && p.sqHead != p.sqTail && decide (2 ≤ p.cqFree)
    && (if p.isLocal then d.words == s.ringWords p p.sqHead else s.hiu.linkUp && !s.hiu.d3hot)
    && (!d.fence || !s.hiu.inFlight.any (fun e => e.desc.qp == d.qp))
    && (s.pmu.ready || d.isIdentity || s.neverReady) && (opDomain d == 0 || s.powered (opDomain d))

/-- The absolute deadline of a queue pair that carries a class-4 duty with credit left in its period (R335). -/
def Dev.creditDeadline (s : Dev) (q : Nat) : Option Nat :=
  match (dutyList s.tlg.duties).find? (fun d => d.desc.cls == 4 && d.desc.queue == q), kget none s.hiu.dueAt q with
  | some d, some t => if kget 0 s.hiu.spent q < d.desc.bytes then some t else none
  | _, _ => none

/-- Group, then deadline or turn, then number: the order of R335. -/
def Dev.dispatchRank (s : Dev) (q : Nat) : Nat × Nat × Nat :=
  match s.creditDeadline q with
  | some t => (0, t, q)
  | none => if q = 0 then (1, 0, 0) else (2, (q + 191 - s.hiu.turn) % 96, q)

def rankBefore (a b : Nat × Nat × Nat) : Bool :=
  decide (a.1 < b.1) || (a.1 == b.1 && (decide (a.2.1 < b.2.1) || (a.2.1 == b.2.1 && decide (a.2.2 < b.2.2))))

/-- The descriptor dispatched next, of those at the heads of their rings (R335). -/
def Dev.nextDescriptor (s : Dev) (heads : List Desc) : Option Desc :=
  (heads.filter s.canDispatch).foldl (fun r d => match r with
    | none => some d
    | some e => if rankBefore (s.dispatchRank d.qp) (s.dispatchRank e.qp) then some d else some e) none

/-- The fabric clock edge is here, and nothing has been dispatched at it (R334). -/
def Dev.dispatchEdge (s : Dev) : Bool := s.dt % 2 == 0 && s.hiu.lastDispatch != some s.dt

/-- A descriptor is dispatched: it fails a check, was aborted before, or is in flight from now on. -/
def Dev.dispatch (s : Dev) (d : Desc) : Dev :=
  let p := s.qp d.qp
  let third := (s.dispatchRank d.qp).1 == 2
  let s := (s.setQp d.qp { p with sqHead := (p.sqHead + 1) % p.sqSize }).charge d.qp 64
  let s := s.setHiu (fun h => { h with lastDispatch := some s.dt, turn := if third then d.qp else h.turn })
  match s.hiu.earlyAborts.find? (fun a => a.qp == d.qp && a.tag == d.tag) with
  | some a =>
    (s.setHiu (fun h => { h with earlyAborts := h.earlyAborts.erase a })).writeCompletion d .aborted a.at_ []
  | none =>
    match s.dispatchCheck d with
    | some st => s.writeCompletion d st s.dt []
    | none =>
      let p := s.qp d.qp
      (s.setQp d.qp { p with reserved := p.reserved + 2 }).setHiu (fun h => { h with inFlight := h.inFlight ++ [⟨d, s.dt⟩] })

/-- DESCRIPTOR_DISPATCH: `heads` are the descriptors at the heads of the rings that hold some. -/
def descriptorDispatch (heads : List Desc) (s : Dev) : Dev :=
  if s.dispatchEdge then
    match s.nextDescriptor heads with
    | some d => s.dispatch d
    | none => s
  else s
def execDescriptorDispatch (heads : List Desc) (s : State) : Host.Outcome State Fault Refusal := s.upd (descriptorDispatch heads)

/-! ## Draining (R344) -/

/-- Queue pair `q` stops at `tx`: what stands between head and tail is flushed, what is in flight finishes. -/
def Dev.startDrain (s : Dev) (q tx : Nat) (queued : List Desc) (desc : Option Desc) : Dev :=
  let p := s.qp q
  let queued := s.queuedOf q queued
  let n := (p.sqTail + p.sqSize - p.sqHead) % p.sqSize
  let waits := (List.range n).map (fun i => (queued[i]?).getD ⟨q, [], p.era⟩)
  let m := (s.hiu.inFlight.filter (fun e => e.desc.qp == q && !(desc.map (·.same e.desc)).getD false)).length
  let gone := (waits.filter (fun d => !s.hiu.earlyAborts.any (fun a => a.qp == q && a.tag == d.tag))).map (fun d => (d.tag, tx))
  let s := s.setQp q { p with enabled := false, draining := some ⟨tx, n, m, desc⟩, sqHead := p.sqTail, flushWait := waits,
                              flushedTags := gone }
  s.flushRest q

/-- QP_DRAIN_COMPLETE: the last completion has been written. -/
def qpDrainComplete (q : Nat) (s : Dev) : Dev :=
  let p := s.qp q
  match p.draining with
  | none => s
  | some r =>
    if p.flushWait.isEmpty && !s.hiu.inFlight.any (fun e => e.desc.qp == q) then
      (s.setQp q { p with draining := none }).completeOpt r.desc .done r.tx [wordN r.flushed, wordN r.inFlight]
    else s
def execQpDrainComplete (q : Fin 96) (s : State) : Host.Outcome State Fault Refusal := s.upd (whenOn 7 (qpDrainComplete q))

/-! ## Doorbells (R339) -/

/-- A doorbell of a host queue pair is a BAR access; that of a LOCAL one is not (R330, R341). -/
def whenDoorbell (q : Nat) (f : Dev → Dev) (s : Dev) : Dev :=
  if (s.qp q).isLocal then whenOn 7 f s else whenBar f s

def Dev.doorbellIgnored (s : Dev) : Dev := s.setBit Reg.hiuStatus 3 true

/-- SQ_TAIL: descriptors may be added up to size - 1. -/
def sqTail (q : Nat) (v : Word) (s : Dev) : Dev :=
  let p := s.qp q
  let n := p.sqSize
  let used := (p.sqTail + n - p.sqHead) % n
  if !p.enabled || s.stopped q || decide (n ≤ v.toNat) || decide (n - 1 - used < (v.toNat + n - p.sqTail) % n) then s.doorbellIgnored
  else s.setQp q { p with sqTail := v.toNat }
def execSqTail (q : Fin 96) (v : Word) (s : State) : Host.Outcome State Fault Refusal := s.upd (whenDoorbell q (sqTail q v))

/-- CQ_HEAD: entries written may be taken; room lets flushed completions follow. -/
def cqHead (q : Nat) (v : Word) (s : Dev) : Dev :=
  let p := s.qp q
  let n := p.cqSize
  if !p.active || decide (n ≤ v.toNat) || decide (p.cqUsed < (v.toNat + n - p.cqHead) % n) then s.doorbellIgnored
  else
    (s.setQp q { p with cqHead := v.toNat }).flushRest q
def execCqHead (q : Fin 96) (v : Word) (s : State) : Host.Outcome State Fault Refusal := s.upd (whenDoorbell q (cqHead q v))

/-- EQ_HEAD. -/
def eqHead (q : Nat) (v : Word) (s : Dev) : Dev :=
  let p := s.qp q
  let n := p.eqSize
  let used := (p.eqTail + n - p.eqHead) % n
  if !p.active || !p.hasEq || decide (n ≤ v.toNat) || decide (used < (v.toNat + n - p.eqHead) % n) then s.doorbellIgnored
  else s.setQp q { p with eqHead := v.toNat }
def execEqHead (q : Fin 96) (v : Word) (s : State) : Host.Outcome State Fault Refusal := s.upd (whenDoorbell q (eqHead q v))

/-! ## BAR2 (R331, R339) -/

/-- Dword `i` of an MSI-X table entry: address, upper address, data, vector control (PRESUMED from the PCI Express
specification, log entry 6). -/
def Vector.dword (x : Vector) (i : Nat) : Word :=
  match i with
  | 0 => lo64 x.addr
  | 1 => hi64 x.addr
  | 2 => x.data
  | _ => wordN (b2n x.masked)

/-- The entry with a dword written; only the mask bit of the vector control is kept. -/
def Vector.withDword (x : Vector) (i : Nat) (v : Word) : Vector :=
  match i with
  | 0 => { x with addr := x.addr / 2 ^ 32 * 2 ^ 32 + v.toNat / 4 * 4 }
  | 1 => { x with addr := v.toNat * 2 ^ 32 + x.addr % 2 ^ 32 }
  | 2 => { x with data := v }
  | _ => { x with masked := bitOf v 0 }

/-- What an aligned 32-bit read of a BAR2 offset returns. -/
def Dev.readBar2 (s : Dev) (off : Nat) : Word :=
  if off < 0x1800 then
    let p := s.qp (off / 64)
    match off % 64 with
    | 0 => wordN p.sqHead
    | 4 => wordN p.cqTail
    | 8 => wordN p.eqTail
    | _ => 0
  else if 0x2000 ≤ off ∧ off < 0x2800 then (s.vec ((off - 0x2000) / 16)).dword (off % 16 / 4)
  else if 0x2800 ≤ off ∧ off < 0x2810 then
    wordN ((List.range 32).foldl (fun a i => a + (if (s.vec (8 * (off - 0x2800) + i)).pending then 2 ^ i else 0)) 0)
  else 0

/-- A dword of the MSI-X table is written: a vector unmasked with its pending bit set sends (R340). -/
def Dev.writeVector (s : Dev) (v i : Nat) (w : Word) : Dev :=
  let x := (s.vec v).withDword i w
  let s := s.setVec v x
  if x.pending && !x.masked then s.msixSend v else s

/-- An aligned 32-bit write of a BAR2 offset: doorbells, the MSI-X table, and nothing else. -/
def Dev.writeBar2 (s : Dev) (off : Nat) (v : Word) : Dev :=
  if off < 0x1800 then
    match off % 64 with
    | 0 => sqTail (off / 64) v s
    | 4 => cqHead (off / 64) v s
    | 8 => eqHead (off / 64) v s
    | _ => s
  else if 0x2000 ≤ off ∧ off < 0x2800 then s.writeVector ((off - 0x2000) / 16) (off % 16 / 4) v
  else s

/-- A write of BAR2: the doorbells take aligned 32-bit writes only; the MSI-X table takes aligned 64-bit ones too, as two
(PRESUMED, log entry 6). -/
def bar2Write (off size : Nat) (v : BitVec 64) (s : Dev) : Dev :=
  if off % 4 = 0 ∧ size = 4 then s.writeBar2 off (lo64 v.toNat)
  else if off % 8 = 0 ∧ size = 8 ∧ 0x2000 ≤ off then (s.writeBar2 off (lo64 v.toNat)).writeBar2 (off + 4) (hi64 v.toNat)
  else s

/-! ## Latency tolerance (R348) -/

/-- A latency register of the LTR capability, decoded to microseconds: value [9:0] times 32 to the power of the scale
[12:10], in nanoseconds; a part of a microsecond counts as one (DESIGN CHOICE, log entry 42). -/
def ltrMicros (v : Nat) : Nat := (v % 1024 * 32 ^ (v / 1024 % 8) + 999) / 1000

/-- The smaller non-zero of two latencies; 0: neither. -/
def smallerLat (a b : Nat) : Nat := if a = 0 then b else if b = 0 then a else min a b

/-- The smaller LTR maximum in force, in microseconds; 0 none (R348). -/
def Hiu.ltrMax (h : Hiu) : Nat := if h.ltrOn then smallerLat (ltrMicros h.ltrSnoop) (ltrMicros h.ltrNoSnoop) else 0

/-! ## Vectors (R340) and credit (R335) -/

/-- MSIX_MODERATION_TIMEOUT. -/
def msixModerationTimeout (v : Nat) (s : Dev) : Dev :=
  let t := s.fld (Reg.hiuMod v) 31 16
  match (s.vec v).oldest with
  | some a => if t ≠ 0 ∧ a + 1000 * t ≤ s.dt then s.msixSend v else s
  | none => s
def execMsixModerationTimeout (v : Fin 128) (s : State) : Host.Outcome State Fault Refusal :=
  s.upd (whenOn 7 (msixModerationTimeout v))

/-- MSIX_UNMASK: a vector whose message is pending sends it. -/
def msixUnmask (v addr : Nat) (data : Word) (s : Dev) : Dev :=
  let x := s.vec v
  let s := s.setVec v { x with masked := false, addr := addr, data := data }
  if x.pending then s.msixSend v else s
def execMsixUnmask (v : Fin 128) (addr : Nat) (data : Word) (s : State) : Host.Outcome State Fault Refusal :=
  s.upd (whenBar (msixUnmask v addr data))

/-- The class-4 duties of a queue pair that are released now. -/
def Dev.creditDuty (s : Dev) (q : Nat) : Option Duty :=
  (dutyList s.tlg.duties).find? (fun d => d.desc.cls == 4 && d.desc.queue == q && s.releasesNow d)

/-- HIU_CREDIT_RELEASE: credit left unspent while descriptors were ready is a miss; the credit is restored. -/
def hiuCreditRelease (q : Nat) (s : Dev) : Dev :=
  match s.creditDuty q with
  | none => s
  | some d =>
    let used := kget 0 s.hiu.spent q
    let p := s.qp q
    let s := if used < d.desc.bytes ∧ p.enabled = true ∧ p.sqHead ≠ p.sqTail then
        (s.setHiu (fun h => { h with dlMiss := satInc 32 h.dlMiss })).event 1 6 3 q s.dt [d.desc.id, d.desc.bytes - used]
      else s
    s.setHiu (fun h => { h with spent := kput 0 h.spent q 0, dueAt := kput none h.dueAt q (some (s.dt + d.desc.deadline)) })
def execHiuCreditRelease (q : Fin 96) (s : State) : Host.Outcome State Fault Refusal := s.upd (whenOn 7 (hiuCreditRelease q))

/-! ## Queue pair 0 (R332, R333) -/

/-- A ring base is aligned to the smaller of 4,096 and the ring's length. -/
def ringAligned (base entry log : Nat) : Bool := base % min 4096 (entry * 2 ^ log) == 0
def sizeOk (n : Nat) : Bool := decide (4 ≤ n ∧ n ≤ 16)
def vecOf (v : Nat) (no : Bool) : Option Nat := if no then none else some v

/-- A queue pair that starts: heads and tails 0, phases 1 (R343). -/
def QPair.started (p : QPair) : QPair :=
  { p with enabled := true, draining := none, sqHead := 0, sqTail := 0, cqHead := 0, cqTail := 0, eqHead := 0, eqTail := 0,
           cqPhase := true, eqPhase := true, reserved := 0, flushWait := [], flushedTags := [] }

def Dev.configIgnored (s : Dev) : Dev := s.setBit Reg.hiuStatus 4 true

/-- Queue pair 0 as the HIU_AQ registers describe it. -/
def Dev.adminPair (s : Dev) : QPair :=
  let c := s.reg Reg.hiuAqCtrl
  let v := s.reg Reg.hiuAqVec
  { QPair.reset with
    era := (s.qp 0).era, configured := true, sqLog := bitsOf c 5 1, cqLog := bitsOf c 12 8, eqLog := bitsOf c 20 16,
    sqBase := join64 (s.reg Reg.hiuAqSqbaseLo) (s.reg Reg.hiuAqSqbaseHi),
    cqBase := join64 (s.reg Reg.hiuAqCqbaseLo) (s.reg Reg.hiuAqCqbaseHi),
    eqBase := join64 (s.reg Reg.hiuAqEqbaseLo) (s.reg Reg.hiuAqEqbaseHi),
    cqVec := vecOf (bitsOf v 6 0) (bitOf v 7), eqVec := vecOf (bitsOf v 14 8) (bitOf v 15) }

def QPair.ringsOk (p : QPair) : Bool :=
  sizeOk p.sqLog && sizeOk p.cqLog && (p.eqLog == 0 || sizeOk p.eqLog) && ringAligned p.sqBase 64 p.sqLog
    && ringAligned p.cqBase 32 p.cqLog && (p.eqLog == 0 || ringAligned p.eqBase 32 p.eqLog)

/-- Any queue pair but 0 is enabled or draining. -/
def Dev.othersActive (s : Dev) : Bool := s.hiu.qps.any (fun x => x.1 != 0 && x.2.active)

/-- HIU_AQ_CTRL_WRITE. -/
def hiuAqCtrlWrite (v : Word) (queued : List Desc) (s : Dev) : Dev :=
  let old := s.reg Reg.hiuAqCtrl
  let w := writeBits old v 0x1F1F3F 0
  if bitOf old 0 then
    let s := if Nat.land (old ^^^ w).toNat 0x1F1F3E ≠ 0 then s.configIgnored else s
    if bitOf w 0 then s
    else if s.othersActive then s.configIgnored
    else (s.setReg Reg.hiuAqCtrl (setBitsOf old 0 0 0)).startDrain 0 s.dt queued none
  else
    let s := s.setReg Reg.hiuAqCtrl (setBitsOf w 0 0 0)
    if bitOf w 0 then
      if s.adminPair.ringsOk && !(s.qp 0).active then (s.setReg Reg.hiuAqCtrl w).setQp 0 s.adminPair.started else s.configIgnored
    else s
def execHiuAqCtrlWrite (v : Word) (queued : List Desc) (s : State) : Host.Outcome State Fault Refusal :=
  s.upd (whenBar (hiuAqCtrlWrite v queued))

/-- HIU_AQ bases and vectors: ignored while EN = 1. -/
def hiuAqFieldWrite (off : Nat) (rw : Nat) (v : Word) (s : Dev) : Dev :=
  let w := writeBits (s.reg off) v rw 0
  if s.bit Reg.hiuAqCtrl 0 then (if w = s.reg off then s else s.configIgnored) else s.setReg off w

/-! ## Host-side reset and the link (R330, R347) -/

/-- A queue pair that is not LOCAL after a host-side reset: disabled, and what was dispatched from it belongs to an
era that is over. -/
def QPair.hostReset (p : QPair) : QPair :=
  { p with enabled := false, draining := none, reserved := 0, flushWait := [], flushedTags := [], era := p.era + 1 }

/-- The queue pairs after a host-side reset. -/
def Dev.resetPairs (s : Dev) : KMap QPair :=
  s.hiu.qps.foldl (fun m x => kput QPair.reset m x.1 (if x.2.isLocal then x.2 else x.2.hostReset)) []

/-- The disables that end with the queue pairs a host-side reset disables. -/
def Dev.endedDisables (s : Dev) : List Desc :=
  s.hiu.qps.filterMap (fun x => if x.2.isLocal then none else x.2.draining.bind (·.desc))

def Output.isCompletion : Output → Bool
  | .completion _ => true
  | _ => false
def Output.isEvent : Output → Bool
  | .event .. => true
  | _ => false

/-- `n` completions and `m` event records are discarded and counted (R347). -/
def Hiu.countLost (h : Hiu) (n m : Nat) : Hiu :=
  { h with lostCpl := satAdd 16 h.lostCpl n, discarded := h.discarded + n, evDrop := satAdd 16 h.evDrop m }

/-- The host side resets: queue pairs that are not LOCAL are disabled, their dispatched operations go on, what waited in
D3hot is discarded and counted, and the registers of 19 R423 take their reset values. The configuration space resets
with the function (PRESUMED, log entry 42). -/
def hostSideReset (s : Dev) : Dev :=
  let ended := s.endedDisables
  let mine := s.hiu.inFlight.filter (fun e => !(s.qp e.desc.qp).isLocal && !ended.any (·.same e.desc))
  let s := s.setHiu (fun h => { h.countLost ((ended.filter (fun d => !d.quiet)).length + (h.held.filter Output.isCompletion).length)
      (h.held.filter Output.isEvent).length with
    qps := s.resetPairs, held := [], fates := [], inFlight := h.inFlight.filter (fun e => (s.qp e.desc.qp).isLocal),
    orphans := h.orphans ++ mine, earlyAborts := h.earlyAborts.filter (fun a => (s.qp a.qp).isLocal), vectors := [],
    dropRuns := [], ifver := 0, d3hot := false, ltrOn := false, ltrSnoop := 0, ltrNoSnoop := 0 })
  [Reg.hiuAqCtrl, Reg.hiuAqSqbaseLo, Reg.hiuAqSqbaseHi, Reg.hiuAqCqbaseLo, Reg.hiuAqCqbaseHi, Reg.hiuAqEqbaseLo,
    Reg.hiuAqEqbaseHi, Reg.hiuAqVec, Reg.hiuEvroute0, Reg.hiuEvroute1, Reg.hiuEvroute2, Reg.hiuEvroute3].foldl
      (fun s r => s.setReg r (regReset r)) s
def execHostSideReset (s : State) : Host.Outcome State Fault Refusal := s.upd (whenOn 7 hostSideReset)

/-- HIU_LINK: the loss of the link resets the host side; its return is raised with the completions discarded. The link
trains to no more lanes than the part has. -/
def hiuLink (up : Bool) (width rate : Nat) (s : Dev) : Dev :=
  let width := min width s.lanes
  let t := s.setHiu (fun h => { h with linkUp := up, linkWidth := if up then width else 0, linkRate := if up then rate else 0 })
  let t := if up && t.pmu.peWake then { t with pmu := { t.pmu with peWake := false } }.emit (.pin .peWakeN true) else t
  if up then (t.event 1 4 1 0xFF s.dt [1, width, rate, s.hiu.discarded]).setHiu (fun h => { h with discarded := 0 })
  else if s.hiu.linkUp then hostSideReset t else t
def execHiuLink (up : Bool) (width rate : Nat) (s : State) : Host.Outcome State Fault Refusal := s.upd (whenOn 7 (hiuLink up width rate))

/-- PCIE_D_STATE_CHANGE: in D3hot BAR accesses and DMA stop; what has waited is written on the return to D0. -/
def pcieDStateChange (d3hot : Bool) (s : Dev) : Dev :=
  let s := s.setHiu (fun h => { h with d3hot := d3hot })
  if d3hot then s else { s with out := s.out ++ s.hiu.held, hiu := { s.hiu with held := [] } }
def execPcieDStateChange (d3hot : Bool) (s : State) : Host.Outcome State Fault Refusal :=
  s.upd (whenOn 7 (pcieDStateChange d3hot))

/-! ## Commands (R342-R346, R350) -/

/-- HIU_HELLO: the highest version in both ranges; a version in force never changes. -/
def hiuHello (d : Desc) (s : Dev) : Dev :=
  let lo := bitsOf (d.w 3) 7 0
  let hi := bitsOf (d.w 3) 15 8
  if d.object ≠ 0 ∨ d.qp ≠ 0 then s.fail d .badDescriptor
  else
    let v := if s.hiu.ifver ≠ 0 then (if lo ≤ s.hiu.ifver ∧ s.hiu.ifver ≤ hi then s.hiu.ifver else 0)
      else if lo ≤ 3 ∧ 3 ≤ hi then 3 else if lo ≤ 2 ∧ 2 ≤ hi then 2 else 0
    let s := if v ≠ 0 then s.setHiu (fun h => { h with ifver := v }) else s
    let s := s.event 1 2 4 0 (s.dispatchedAt d) [s.hiu.ifver, bitsOf (d.w 3) 15 0]
    s.complete d (if v = 0 then .badVersion else .done) (s.dispatchedAt d) [wordN v, 2, 3]
def execHiuHello (d : Desc) (s : State) : Host.Outcome State Fault Refusal := s.cmd d (whenOn 7 (hiuHello d))

/-- The queue pair HIU_QP_CONFIG describes. -/
def configPair (d : Desc) : QPair :=
  let z := d.w 9
  let v := d.w 10
  { QPair.reset with
    configured := true, isLocal := bitOf z 24, sqBase := d.w64 3, cqBase := d.w64 5, eqBase := d.w64 7,
    sqLog := bitsOf z 4 0, cqLog := bitsOf z 12 8, eqLog := if d.w64 7 = 0 then 0 else bitsOf z 20 16,
    cqVec := vecOf (bitsOf v 6 0) (bitOf v 7), eqVec := vecOf (bitsOf v 14 8) (bitOf v 15) }

/-- A LOCAL queue pair has its rings in the low SRAM bank. -/
def QPair.localOk (p : QPair) : Bool :=
  !p.isLocal || (inLowBank p.sqBase (64 * p.sqSize) && inLowBank p.cqBase (32 * p.cqSize)
    && (p.eqLog == 0 || inLowBank p.eqBase (32 * p.eqSize)))

/-- HIU_QP_CONFIG. -/
def hiuQpConfig (d : Desc) (s : Dev) : Dev :=
  let p := configPair d
  match qpObject d with
  | none => s.fail d .badDescriptor
  | some q =>
    if (s.qp q).active || !p.ringsOk || (p.eqBase != 0 && !sizeOk p.eqLog) || !p.localOk
        || Nat.land (d.w 9).toNat 0xFEE0E0E0 != 0 || bitsOf (d.w 10) 31 16 != 0 then s.fail d .badDescriptor
    else (s.setQp q { p with era := (s.qp q).era }).complete d .done (s.dispatchedAt d) []
def execHiuQpConfig (d : Desc) (s : State) : Host.Outcome State Fault Refusal := s.cmd d (whenOn 7 (hiuQpConfig d))

/-- HIU_QP_ENABLE. -/
def hiuQpEnable (d : Desc) (s : Dev) : Dev :=
  match qpObject d with
  | none => s.fail d .badDescriptor
  | some q =>
    let p := s.qp q
    if !p.configured then s.fail d .badDescriptor
    else if p.active then s.fail d .reconfigBusy
    else (s.setQp q p.started).complete d .done (s.dispatchedAt d) []
def execHiuQpEnable (d : Desc) (s : State) : Host.Outcome State Fault Refusal := s.cmd d (whenOn 7 (hiuQpEnable d))

/-- HIU_QP_DISABLE: decides at its dispatch; it completes with QP_DRAIN_COMPLETE. -/
def hiuQpDisable (d : Desc) (queued : List Desc) (s : Dev) : Dev :=
  match qpObject d with
  | none => s.fail d .badDescriptor
  | some q =>
    let p := s.qp q
    if p.draining.isSome then s.fail d .reconfigBusy
    else if !p.enabled then s.complete d .done (s.dispatchedAt d) [0, 0]
    else s.startDrain q (s.dispatchedAt d) queued (some d)
def execHiuQpDisable (d : Desc) (queued : List Desc) (s : State) : Host.Outcome State Fault Refusal :=
  s.cmd d (whenOn 7 (hiuQpDisable d queued))

/-- HIU_QP_STATUS. -/
def hiuQpStatus (d : Desc) (s : Dev) : Dev :=
  match qpObject d with
  | none => s.fail d .badDescriptor
  | some q =>
    let p := s.qp q
    s.complete d .done (s.dispatchedAt d) [wordN (b2n p.enabled + 2 * b2n p.draining.isSome), wordN p.sqHead, wordN p.sqTail, wordN p.cqTail,
      wordN p.eqTail, wordN p.reserved]
def execHiuQpStatus (d : Desc) (s : State) : Host.Outcome State Fault Refusal := s.cmd d (whenOn 7 (hiuQpStatus d))

/-! ## Aborts (R345, R346) -/

/-- The first of several ways to abort that applies. -/
def firstAbort (l : List (Option Dev)) : Option Dev := (l.find? (·.isSome)).bind id

/-- An update that has not yet committed is aborted (18 R409). -/
def Dev.updAbort (s : Dev) (d : Desc) : Option Dev :=
  match s.upd.op with
  | some o =>
    if (o.desc.map (·.same d)).getD false && o.commit.isNone then
      let s := s.setTlg (fun x => { x with
        tasks := x.tasks.filter (fun y => match y.1 with | .update _ => false | _ => true),
        pending := match x.pending with
          | some c => (match c.task with | .update _ => none | _ => some c)
          | none => none })
      let s := if o.target = 4 then { s with grp := { s.grp with leaving := none, back := false } } else s
      let ts := if o.cause = 1 then kmod .reset s.upd.targets o.target (fun (t : UpdTarget) => { t with back := 0 }) else s.upd.targets
      some (({ s with upd := { s.upd with op := none, targets := ts } }).fail d .aborted)
    else none
  | none => none

/-- Commands that wait for a car or door at rest, or for the next period or check, stop waiting; what they have
changed stands. -/
def Dev.waitAbort (s : Dev) (d : Desc) : Option Dev :=
  let has (l : List Desc) : Bool := l.any (·.same d)
  let without (l : List Desc) : List Desc := l.filter (fun e => !e.same d)
  let is (e : Option Desc) : Bool := (e.map (·.same d)).getD false
  if has s.hoist.stops || has s.hoist.disables then
    some ((s.setHoist (fun h => { h with stops := without h.stops, disables := without h.disables })).complete d .aborted s.dt [1])
  else if has s.cpf.waitLoad || has s.cpf.waitCommit then
    some ((s.setCpf (fun c => { c with waitLoad := without c.waitLoad, waitCommit := without c.waitCommit })).fail d .aborted)
  else
    match (List.range 5).find? (fun n => let x := s.axis n
        has x.stopDescs || has x.disabling || is x.enabling) with
    | some n =>
      let x := s.axis n
      if is x.enabling then some ((s.endEnable n .aborted 1).disableAtRest n)
      else
        let s := s.modAxis n (fun x => { x with stopDescs := without x.stopDescs, disabling := without x.disabling })
        some ((s.disableGone n).complete d .aborted s.dt [1])
    | none =>
      match (List.range 15).find? (fun i => is (s.camSlot (i / 3) (i % 3)).loading) with
      | some i =>
        some ((s.setCamSlot (i / 3) (i % 3) { s.camSlot (i / 3) (i % 3) with staged := [], loading := none }).complete
          d .aborted s.dt [1])
      | none =>
        match s.chry.run with
        | some r =>
          if has r.descs then
            some (({ s with chry := { s.chry with run := some { r with descs := without r.descs } } }).fail d .aborted)
          else none
        | none => none

/-- A command to Cocoon that no frame has carried is ABORTED at once, and whether it is decided; one on its way is
made void wherever it is still to arrive, and Cocoon's acknowledge tells whether it had taken effect (16 R379). -/
def Dev.cocAbort (s : Dev) (d a : Desc) : Option (Dev × Bool) :=
  let later (s : Dev) : Dev := s.setCoc (fun c => { c with aborts := c.aborts ++ [(d, a, s.dt)] })
  let onWire (s : Dev) (f : DownFrame → DownFrame) : Dev := s.setCoc (fun c => { c with down := c.down.map f })
  match s.coc.waits.find? (fun w => w.desc.same d), s.coc.outs.find? (fun o => o.desc.same d) with
  | some w, _ =>
    let wipe (l : List (Nat × DownRec)) : List (Nat × DownRec) := l.map (fun x => if x.1 = w.rseq then (x.1, .void) else x)
    let t := s.coc.tx
    let x := s.setCoc (fun c => { c with tx := { c.tx with queue := wipe c.tx.queue, sent := c.tx.sent.map wipe } })
    if t.unsent w.rseq then
      some ((x.setCoc (fun c => { c with waits := c.waits.filter (fun w => !w.desc.same d) })).fail d .aborted, true)
    else some (later (onWire x (fun f => { f with records := wipe f.records })), false)
  | none, some o =>
    if o.sent then
      some (later (onWire (s.setCoc (fun c => { c with
          outs := c.outs.map (fun x => if x.no = o.no then { x with void := true } else x) }))
        (fun f => { f with outs := f.outs.map (fun x => if x.no = o.no then { x with void := true } else x) })), false)
    else some ((s.setCoc (fun c => { c with outs := c.outs.filter (fun x => x.no != o.no) })).fail d .aborted, true)
  | none, none => none

/-- A command whose commit instant has passed and that has not completed. -/
def Dev.committed (s : Dev) (d : Desc) : Bool :=
  let is (e : Option Desc) : Bool := (e.map (·.same d)).getD false
  s.hiu.qps.any (fun x => is (x.2.draining.bind (·.desc))) || is s.hwk.lockDesc || is (s.tlg.pending.bind (·.desc))
    || is (s.upd.op.bind (·.desc)) || s.mon.calls.any (fun c => c.desc.same d) || s.mon.cancels.any (fun c => c.1.same d)
    || is s.grp.joinDesc || is s.grp.leaveDesc || (List.range 4).any (fun n => (s.can n).tx.any (·.desc.same d)) || s.pmu.resetAt.isSome && d.opcode == 0x0D02

/-- The abort of a dispatched command: the block after it, and whether it is decided now; none: too late
(R345). A command whose own operation has not begun stops without effect; those of the HIU itself commit at their
dispatch (R346). -/
def Dev.abortTarget (s : Dev) (t a : Desc) : Option (Dev × Bool) :=
  if t.opcode / 256 = 1 then none
  else if s.hoistDefers t then some (s.hoistDefer t a, false)
  else match firstAbort [s.cpfAbort t, s.hoistAbort t, s.drvAbort t, s.doorAbort t, s.lpeAbort t, s.stlAbort t, s.spiAbort t,
      s.tlgAbort t, s.engAbort t, s.updAbort t, s.waitAbort t] with
  | some x => some (x, true)
  | none =>
    match s.cocAbort t a, s.monAbort t a, s.canAbort t a with
    | some x, _, _ => some x
    | none, some x, _ => some x
    | none, none, some x => some x
    | none, none, none => if s.committed t then none else some (s.fail t .aborted, true)

/-- The abort of a dispatched target, decided at the acceptance instant `t`. -/
def Dev.abortDispatched (s : Dev) (target d : Desc) (t : Nat) : Dev :=
  match { s with dt := t }.abortTarget target d with
  | some (x, true) => { x.complete d .abortApplied t [0, 8] with dt := s.dt }
  | some (x, false) => { x with dt := s.dt }
  | none => s.complete d .abortTooLate t [0, 0xFFFFFFFF]

/-- An abort of a tag that waits in its ring is kept; a second one of the same tag adds nothing. -/
def Dev.keepAbort (s : Dev) (a : EarlyAbort) : Dev :=
  if s.hiu.earlyAborts.any (fun e => e.qp == a.qp && e.tag == a.tag) then s
  else s.setHiu (fun h => { h with earlyAborts := h.earlyAborts ++ [a] })

/-- HIU_ABORT. What its acceptance instant brought comes first: the target's completion at that instant wins (R345), so
the row acts from the next instant on (log entry 35). -/
def hiuAbort (d : Desc) (queued : List Desc) (s : Dev) : Dev :=
  let q := bitsOf (d.w 3) 6 0
  let tag := d.w 4
  let t := s.dispatchedAt d
  let fate := s.fateOf d
  if s.dt ≤ t then s else
  let s := s.dropFate d
  if d.object ≠ 0 ∨ bitsOf (d.w 3) 31 7 ≠ 0 ∨ 95 < q then s.fail d .badDescriptor
  else match s.hiu.inFlight.find? (fun e => e.desc.qp == q && e.desc.tag == tag), fate with
    | some e, _ =>
      if e.desc.opcode = 0x0106 then s.fail d .badDescriptor else (s.abortDispatched e.desc d t).dropFate d
    | none, some st => s.complete d .abortTooLate t [0, wordN st.code]
    | none, none =>
      let p := s.qp q
      let n := if p.enabled then (p.sqTail + p.sqSize - p.sqHead) % p.sqSize else 0
      match ((s.queuedOf q queued).take n).find? (fun e => e.tag == tag), p.flushedTags.find? (fun f => f.1 == tag && decide (f.2 ≤ t)) with
      | some e, _ =>
        if e.opcode = 0x0106 then s.fail d .badDescriptor
        else (s.keepAbort ⟨q, tag, t⟩).complete d .abortApplied t [0, 8]
      | none, some _ => s.complete d .abortTooLate t [0, 0x0B]
      | none, none => s.complete d .abortTooLate t [1, 0xFFFFFFFF]
def execHiuAbort (d : Desc) (queued : List Desc) (s : State) : Host.Outcome State Fault Refusal :=
  s.cmd d (whenOn 7 (hiuAbort d queued))

end Sys2Proof.Machine
end

