-- ==== Sys2Proof/Machine/Chrysalis.lean ====
section
/-! DEFINITION. Chrysalis, the lifetime record: its layout, commits, the mount and the read command
(18 R398-R406, R413). -/
namespace Sys2Proof.Machine

def Dev.setChry (s : Dev) (f : Chry → Chry) : Dev := { s with chry := f s.chry }

/-! ## The record (R399-R401) -/

/-- The sections of record format 3 with their counter counts (Table 18-1). -/
def chrSections : List (Nat × Nat) :=
  [(1, 16), (2, 18), (3, 771), (4, 263), (5, 30), (6, 22), (7, 147), (8, 54), (9, 98), (10, 256)]

/-- The counters of a section, 8 bytes each, little-endian. -/
def sectionBytes (m : KMap Nat) (sec n : Nat) : List Byte :=
  (List.range n).flatMap (fun i => leBytes 8 (kget 0 m (1024 * sec + i)))

/-- The directory: section, counter count and offset of each section in 4-byte words from the start of the body
(log entry 37). -/
def directoryBytes : Nat → List (Nat × Nat) → List Byte
  | _, [] => []
  | off, (sec, n) :: t => leBytes 2 sec ++ leBytes 2 n ++ leBytes 4 off ++ directoryBytes (off + 2 * n) t

/-- The body of a record of the counters `m`. -/
def bodyOf (m : KMap Nat) : List Byte :=
  directoryBytes (2 * chrSections.length) chrSections ++ chrSections.flatMap (fun x => sectionBytes m x.1 x.2)

/-- Header bytes 0-59 (R401). -/
def ChrRecord.head (r : ChrRecord) : List Byte :=
  leBytes 4 0x59524843 ++ leBytes 2 r.format ++ leBytes 2 r.compat ++ leBytes 8 r.gen ++ leBytes 8 r.at_
    ++ leBytes 4 r.body.length ++ leBytes 8 r.serial ++ leBytes 24 0

/-- The whole image: header with its CRC-32, and body. -/
def ChrRecord.image (r : ChrRecord) : List Byte :=
  r.head ++ leBytes 4 (crc32 (r.head ++ r.body)).toNat ++ r.body

/-- The entries of a body's directory: section, count, word offset. -/
def ChrRecord.directory (r : ChrRecord) : List (Nat × Nat × Nat) :=
  (List.range (leAt r.body 4 4 / 2)).map (fun i => (leAt r.body (8 * i) 2, leAt r.body (8 * i + 2) 2, leAt r.body (8 * i + 4) 4))

/-- The counters this package knows, read by the prefix of each section; absent ones are 0 (R401, R406). -/
def ChrRecord.counters (r : ChrRecord) : KMap Nat :=
  r.directory.foldl (fun m e =>
    match chrSections.find? (fun x => x.1 == e.1) with
    | some (sec, n) =>
      (List.range (min n e.2.1)).foldl (fun m i => kput 0 m (1024 * sec + i) (leAt r.body (4 * e.2.2 + 8 * i) 8)) m
    | none => m) []

/-- A section of a record as CHR_READ returns it; 0: all of the record. -/
def ChrRecord.part (r : ChrRecord) (sec : Nat) : Option (List Byte) :=
  if sec = 0 then some r.image
  else (r.directory.find? (fun e => e.1 == sec)).map (fun e => (r.body.drop (4 * e.2.2)).take (8 * e.2.1))

/-- The record format a package writes: 2 for 2.x, 3 for 3.x (R399, R411). -/
def formatOf (pkg : Nat) : Nat := if pkg / 2 ^ 16 = 2 then 2 else 3

/-- Module serial number, 0 while the fuses cannot be read (02 R27, 19 Table 19-2). -/
def Dev.serial (s : Dev) : Nat :=
  if s.fuseOk then join64 (regReset Reg.hiuSerialLo) (regReset Reg.hiuSerialHi) else 0

def Dev.record (s : Dev) (m : KMap Nat) (gen at_ : Nat) : ChrRecord :=
  ⟨s.chry.format, 2, gen, at_, s.serial, bodyOf m⟩

/-! ## Commits (R403-R405) -/

/-- The slots; `true`: B. -/
def Chry.slot (c : Chry) (b : Bool) : Option ChrRecord := if b then c.slotB else c.slotA
def Chry.setSlot (c : Chry) (b : Bool) (r : Option ChrRecord) : Chry := if b then { c with slotB := r } else { c with slotA := r }

/-- A commit begins: the slot that is not current is written over. For a power failure, and as for one at an entry
into STEEP or BEAN, PD10 is powered when it is off (R405, 17 R388). -/
def Dev.beginCommit (s : Dev) (cause : Nat) (descs : List Desc) : Dev :=
  let s := if cause = 2 ∨ cause = 3 then { s with pmu := { s.pmu with pwr := putBit s.pmu.pwr 10 true } } else s
  s.setChry (fun c => { c.setSlot (!c.cur) none with run := some ⟨cause, descs, c.gen + 1, s.dt, s.chr⟩ })

/-- A commit falls due (R404): it starts, is served by the one that runs, or, at a power failure, takes the place
of one that is not for a power failure. -/
def Dev.commitRecord (s : Dev) (cause : Nat) (d : Option Desc) : Dev :=
  if !s.chry.mounted then s
  else match s.chry.run with
    | none => s.beginCommit cause d.toList
    | some r =>
      if cause = 2 && r.cause != 2 then s.beginCommit 2 r.descs
      else s.setChry (fun c => { c with run := some { r with descs := r.descs ++ d.toList } })

/-- A counter as a commit captured it: at its line's write, between the start of the commit and its end. -/
def Dev.captureCounter (s : Dev) (start : KMap Nat) (k now : Nat) : Nat × Dev :=
  let was := kget 0 start k
  if now = was then (now, s) else (was + s.free % (now - was + 1), s.drawn)

/-- The counters a commit captured. -/
def Dev.capture (s : Dev) (start : KMap Nat) : KMap Nat × Dev :=
  s.chr.foldl (fun (x : KMap Nat × Dev) (e : Nat × Nat) =>
    let (v, t) := x.2.captureCounter start e.1 e.2
    (kput 0 x.1 e.1 v, t)) ([], s)

/-- CHR_CFG.PERIOD, min; it applies from a commit on (R412). -/
def Dev.chrPeriod (s : Dev) : Nat := max 1 (s.fld Reg.chrCfg 7 0)

/-- CHR_COMMITTED: the stored position record, when it is a new one, and the landing table have been written (R403),
then the header, and the slot is current from now on. -/
def chrCommitted (s : Dev) : Dev :=
  match s.chry.run with
  | none => s
  | some r =>
    let (m, s) := s.savePosition.saveTable.capture r.start
    let x := s.record m r.gen r.at_
    let s := s.setChry (fun c => { c.setSlot (!c.cur) (some x) with
      cur := !c.cur, gen := r.gen, last := s.dt, since := s.dt, period := s.chrPeriod, run := none, lost := none })
    let s := if (r.cause = 2 ∨ r.cause = 3) ∧ 3 ≤ s.pmu.state then
        { s with pmu := { s.pmu with pwr := putBit s.pmu.pwr 10 false } }
      else s
    let s := s.event 14 1 1 0xFF s.dt [r.gen, r.cause]
    r.descs.foldl (fun s d => s.complete d .done s.dt [lo64 r.gen, hi64 r.gen]) s
def execChrCommitted (s : State) : Host.Outcome State Fault Refusal := s.upd (whenOn 10 chrCommitted)

/-- CHR_PERIOD_EXPIRY. -/
def chrPeriodExpiry (s : Dev) : Dev :=
  if s.chry.run.isNone && decide (s.chry.since + s.chry.period * 60000000000 ≤ s.dt) then s.commitRecord 1 none else s
def execChrPeriodExpiry (s : State) : Host.Outcome State Fault Refusal := s.upd (whenOn 10 chrPeriodExpiry)

/-- A reset tears the commit that runs: the slot it wrote stays without a header, and how far its steps 1 and 3 had
come is a free value (R403, log entry 37). -/
def Dev.tornCommit (s : Dev) : Dev :=
  if s.chry.run.isSome then
    let k := s.free % 3
    let s := s.drawn
    let s := if 1 ≤ k then s.savePosition else s
    if k = 2 then s.saveTable else s
  else s

/-! ## The mount (R406) -/

/-- The current slot among those whose MAGIC and CRC are valid. -/
def Chry.current (c : Chry) (badA badB : Bool) : Option (Bool × ChrRecord) :=
  let a := if badA then none else c.slotA
  let b := if badB then none else c.slotB
  match a, b with
  | some x, some y => if x.gen < y.gen then some (true, y) else some (false, x)
  | some x, none => some (false, x)
  | none, some y => some (true, y)
  | none, none => none

/-- The outcome of a mount under a package's format: 1 loaded, 2 converted, 3 prefix read, 4 archived, 5 fresh. -/
def mountOutcome (format : Nat) : Option (Bool × ChrRecord) → Nat
  | none => 5
  | some (_, r) =>
    if r.format = format then 1 else if r.format < format then 2 else if r.compat ≤ format then 3 else 4

/-- Counters loaded, and what was counted since the reset. -/
def mergeCounters (loaded now : KMap Nat) : KMap Nat :=
  now.foldl (fun m e => kmod 0 m e.1 (fun x => satAdd 64 x e.2)) loaded

/-- CHR_MOUNT: the record, the landing table and the stored position record come from their current copies; `corrected` and `uncorr` errors found by the scrub; the slots that fail MAGIC or CRC. -/
def chrMount (corrected uncorr : Nat) (badA badB : Bool) (s : Dev) : Dev :=
  if !s.pmu.locked || s.chry.mounted then s
  else
    let t := kget UpdTarget.reset s.upd.targets 0
    let format := formatOf (if t.active then t.pkgB else t.pkgA)
    let found := s.chry.current badA badB
    let o := mountOutcome format found
    let gen := match found with | some (_, r) => r.gen | none => 1
    let keep := match found with | some (_, r) => if o = 3 ∨ o = 4 then [r] else [] | none => []
    let loaded := match found with | some (_, r) => if o ≤ 3 then r.counters else [] | none => []
    let s := { s with chr := mergeCounters loaded s.chr }
    let s := (s.chrAdd 9 89 corrected).chrAdd 9 94 uncorr
    let lost := s.chry.lost
    let s := s.setChry (fun c => { c with
      mounted := true, fresh := o == 5, archived := !keep.isEmpty, format := format, gen := gen,
      cur := (found.map (·.1)).getD true, slotA := if badA then none else c.slotA, slotB := if badB then none else c.slotB,
      archive := (c.archive ++ keep).take 29, since := s.dt, period := s.chrPeriod, lost := none })
    let s := s.setCpf (fun c => { c with table := newer (·.gen) s.chry.tabA s.chry.tabB,
                                         stored := newer (·.serial) s.chry.posA s.chry.posB })
    let s := s.bootStage 4
    let s := s.event 14 (if 3 ≤ o then 6 else 2) 2 0xFF s.dt [o, (found.map (·.2.format)).getD 0, gen]
    match lost with
    | some g => s.event 14 6 3 0xFF s.dt [g]
    | none => s
def execChrMount (corrected uncorr : Nat) (badA badB : Bool) (s : State) : Host.Outcome State Fault Refusal :=
  s.upd (whenOn 10 (chrMount corrected uncorr badA badB))

/-! ## Commands (R413) -/

/-- The record CHR_READ names. -/
def Dev.readRecord (s : Dev) (src idx : Nat) : Option ChrRecord :=
  match src with
  | 0 => some (s.record s.chr s.chry.gen s.dt)
  | 1 => s.chry.slot s.chry.cur
  | 2 => s.chry.archive[idx]?
  | _ => none

/-- CHR_READ: what lies in MRAM is read only while PD10 is on. -/
def chrRead (d : Desc) (s : Dev) : Dev :=
  let w := d.w 3
  let n := (d.w 6).toNat
  if bitsOf w 1 0 ≠ 0 ∧ s.powered 10 = false then s
  else if d.object ≠ 0 ∨ bitsOf w 15 8 ≠ 0 ∨ !s.addrOk d (d.w64 4) n then s.fail d .badDescriptor
  else match s.readRecord (bitsOf w 1 0) (bitsOf w 7 2) with
    | none => s.fail d .badDescriptor
    | some r =>
      match r.part (bitsOf w 31 16) with
      | none => s.fail d .badDescriptor
      | some b =>
        let b := b.take n
        (s.hostWrite d (d.w64 4) b).complete d .done s.dt [wordN b.length, wordN r.format, lo64 r.gen]
def execChrRead (d : Desc) (s : State) : Host.Outcome State Fault Refusal := s.cmd d (whenOn 0 (chrRead d))

/-- CHR_COMMIT: completes with the commit that serves it. -/
def chrCommit (d : Desc) (s : Dev) : Dev :=
  if d.object ≠ 0 then s.fail d .badDescriptor
  else if !s.chry.mounted then s
  else s.commitRecord 4 (some d)
def execChrCommit (d : Desc) (s : State) : Host.Outcome State Fault Refusal := s.cmd d (whenOn 10 (chrCommit d))

end Sys2Proof.Machine
end

