-- ==== Sys2Proof/Machine/Power.lean ====
section
/-! DEFINITION. Resets, start-up, power failure and the power states (17). -/
namespace Sys2Proof.Machine

def Dev.setPmu (s : Dev) (f : Pmu → Pmu) : Dev := { s with pmu := f s.pmu }

/-! ## Reset of the logic die (R394) -/

/-- The record slots, archive and update record that MRAM keeps; a power-fail commit in progress is lost (18 R405). -/
def Chry.kept (c : Chry) : Chry :=
  { Chry.reset with
    slotA := c.slotA, slotB := c.slotB, archive := c.archive, cur := c.cur,
    tabA := c.tabA, tabB := c.tabB, posA := c.posA, posB := c.posB,
    lost := match c.run with
      | some r => if r.cause = 2 then some r.gen else c.lost
      | none => c.lost }

def UpdTarget.kept (t : UpdTarget) : UpdTarget :=
  { UpdTarget.reset with active := t.active, trial := t.trial, tslot := t.tslot, pkgA := t.pkgA, pkgB := t.pkgB, verA := t.verA, verB := t.verB }

/-- The levels of the encoder pins, which a reset does not touch. -/
def Chan.kept (c : Chan) : Chan :=
  { Chan.reset with qa := c.qa, qb := c.qb, qz := c.qz, pinA := c.pinA, pinB := c.pinB, pinZ := c.pinZ,
                    runA := c.runA, runB := c.runB, runZ := c.runZ, idxActive := c.idxActive }

/-- A table under the images of its values. -/
def keepTable {α : Type} [DecidableEq α] (d : α) (m : KMap α) (f : α → α) : KMap α :=
  m.foldl (fun m x => kput d m x.1 (f x.2)) []

def Pfi.kept (p : Pfi) : Pfi := { Pfi.reset with chans := keepTable .reset p.chans Chan.kept }

/-- CPF after PD6 has been off: UNREFERENCED, with what the low SRAM bank keeps: the landing tables and the stored
position record (04 R77, R83, R86). -/
def Cpf.kept (c : Cpf) : Cpf :=
  { Cpf.reset with table := c.table, replaced := c.replaced, staged := c.staged, stored := c.stored, inForce := c.inForce }

/-- The logic die resets with cause bit `cause` of Table 17-7; `held`: what holds it in reset. -/
def Dev.resetLogic (s : Dev) (cause held : Nat) : Dev :=
  let s := if s.pmu.ready then s.emit (.pin .devReady false) else s
  let s := s.fieldUnarm.tornCommit
  s.ptPins { Dev.reset with
    part := s.part, fuseOk := s.fuseOk, eccCorr := s.eccCorr, time := s.time, freeCtr := s.freeCtr, out := s.out,
    pfi := s.pfi.kept,
    hwk := { HwkLogic.reset with osc := s.hwk.osc, qa := s.hwk.qa, qb := s.hwk.qb }, hwkF := s.hwkF,
    coc := { Coc.reset with field := s.coc.field },
    chry := s.chry.kept,
    upd := { Upd.reset with targets := keepTable .reset s.upd.targets UpdTarget.kept, flash := s.upd.flash },
    pmu := { Pmu.reset with held := held, rstCause := 2 ^ cause, vddLow := s.pmu.vddLow, pfN := s.pmu.pfN, pfArmed := s.pmu.pfArmed } }

/-- PD0 comes up: the fuses are loaded, the RC oscillator is trimmed, and a TRIAL flag found set is cleared
(R392, 18 R408, 02 R26). The reset and a corrected fuse word are counted (18 R399). -/
def Dev.startUp (s : Dev) (fuseOk corrected : Bool) : Dev :=
  let s := { s with fuseOk := fuseOk, eccCorr := corrected, hwk := { s.hwk with osc := true },
                    upd := { s.upd with targets := keepTable .reset s.upd.targets (fun (t : UpdTarget) => { t with trial := false }) } }
  let s := s.setPmu (fun p => { p with stage := 1 })
  let s := s.chrInc 1 (if s.pmu.rstCause = 1 then 0 else if s.pmu.rstCause = 2 then 1 else if s.pmu.rstCause = 4 then 2 else 3)
  if corrected && fuseOk then s.chrInc 1 7 else s

/-- One of what holds the logic die in reset lets go; the start-up begins when nothing does. -/
def Dev.letGo (s : Dev) (bit : Nat) (fuseOk corrected : Bool) : Dev :=
  if tbit s.pmu.held bit then
    let s := s.setPmu (fun p => { p with held := putBit p.held bit false })
    if s.pmu.held = 0 then s.startUp fuseOk corrected else s
  else s

/-- PORST_N_LOW. -/
def porstNLow (s : Dev) : Dev := s.resetLogic 0 (putBit s.pmu.held 0 true)
def execPorstNLow (s : State) : Host.Outcome State Fault Refusal := s.upd porstNLow

/-- PORST_N_RELEASE: the fuse array has been read with `fuseOk`, and a word was `corrected` (02 R27). -/
def porstNRelease (fuseOk corrected : Bool) (s : Dev) : Dev := s.letGo 0 fuseOk corrected
def execPorstNRelease (fuseOk corrected : Bool) (s : State) : Host.Outcome State Fault Refusal := s.upd (porstNRelease fuseOk corrected)

/-- SUPPLY_RESET: supply `i` of Table 17-1 falls below its reset threshold. -/
def supplyReset (i : Nat) (s : Dev) : Dev := s.resetLogic 1 (putBit s.pmu.held (i + 1) true)
def execSupplyReset (i : Fin 4) (s : State) : Host.Outcome State Fault Refusal := s.upd (supplyReset i)

/-- SUPPLY_MONITOR_RELEASE. -/
def supplyMonitorRelease (i : Nat) (fuseOk corrected : Bool) (s : Dev) : Dev := s.letGo (i + 1) fuseOk corrected
def execSupplyMonitorRelease (i : Fin 4) (fuseOk corrected : Bool) (s : State) : Host.Outcome State Fault Refusal :=
  s.upd (supplyMonitorRelease i fuseOk corrected)

/-- PLL_LOCK_LOST: the clocks stop and the logic die resets (R385). -/
def pllLockLost (s : Dev) : Dev := if s.pmu.locked then s.resetLogic 2 (putBit s.pmu.held 5 true) else s
def execPllLockLost (s : State) : Host.Outcome State Fault Refusal := s.upd pllLockLost

/-- PLL_RELOCK_RELEASE: the PLL has held lock for 1 ms. -/
def pllRelockRelease (fuseOk corrected : Bool) (s : Dev) : Dev := s.letGo 5 fuseOk corrected
def execPllRelockRelease (fuseOk corrected : Bool) (s : State) : Host.Outcome State Fault Refusal :=
  s.upd (pllRelockRelease fuseOk corrected)

/-! ## Domains (R386) -/

/-- Bits 1-4 of a mask of clusters. -/
def clusterBits (m : Nat) : Nat := m % 16 * 2

/-- The domains on in a state, for the clusters up and the setting of PMU_CFG.DBGEN (Table 17-2). -/
def domainsOn (state clusters : Nat) (dbg : Bool) : Nat :=
  if state ≤ 2 then 1 + clusterBits clusters + 0x7E0 + 0x800 * b2n dbg
  else if state = 3 then 0x181 else 1

/-- The domains in retention. -/
def Dev.retMask (s : Dev) : Nat := ((List.range 4).filter s.retained).foldl (fun a c => a + 2 ^ (1 + c)) 0

/-- The W1C and other status bits of the registers of a range take their reset values; setup fields stay (19 R423). -/
def Dev.clearStatus (s : Dev) (lo hi : Nat) : Dev :=
  s.cfg.foldl (fun s x =>
    if lo ≤ x.1 ∧ x.1 < hi then
      match regDef? x.1 with
      | some r => s.setReg x.1 (keepBits x.2 (regReset x.1) r.rw)
      | none => s
    else s) s

/-- What the low SRAM bank keeps of the doors while PD6 is off: the cam tables (06 R122, R386). -/
def Door.kept (d : Door) : Door :=
  { Door.reset with cams := d.cams.foldl (fun m c => kput .reset m c.1 { c.2 with staged := [], loading := none }) [] }

/-- PD6 goes off: feedback, fusion, motion and loops lose their contents (03 R58, 04 R83, 07 R173). The groups the
ledger has admitted and the frame number stay. -/
def Dev.pd6Off (s : Dev) : Dev :=
  let s := { s with pfi := s.pfi.kept, cpf := s.cpf.kept, hoist := .reset, drv := s.drv.stopped, door := s.door.kept,
                    lpe := { Lpe.reset with frame := s.lpe.frame, frames := s.lpe.frames, phaseAt := s.lpe.phaseAt, groups := s.lpe.groups } }
  s.clearStatus 0x3000 0x6000

/-- What PD5 keeps of group replication while it is off: the node has left its view. -/
def Grp.kept (g : Grp) : Grp :=
  { g with member := false, joining := false, leaving := none, view := 0, change := none, triggers := [],
           flushes := [], later := [], install := none, installed := false, back := g.back || g.en }

/-- PD5 goes off: the trip store and the car records are lost (09 R222), and the node has left its view (10 R243). The
local epoch of a Solo part stands (10 R246). -/
def Dev.pd5Off (s : Dev) : Dev :=
  let s := { s with
    mon := { s.mon with trips := [], cars := [], committed := [], jobs := [], running := none, own := none },
    grp := if s.hasGrp then s.grp.kept else s.grp }
  (s.setPmu (fun p => { p with pwr := putBit p.pwr 5 false })).clearStatus 0x8000 0x9000

/-- PD5 comes on: a node that took part in its group joins again (10 R243). -/
def Dev.pd5On (s : Dev) : Dev :=
  let s := s.setPmu (fun p => { p with pwr := putBit p.pwr 5 true })
  if s.grp.back then
    let s := { s with grp := { s.grp with en := true, back := false } }
    if s.stl.sync then s.rejoin else s
  else s

/-- PD8 goes off: the network and bus blocks lose their contents. -/
def Dev.pd8Off (s : Dev) : Dev :=
  ({ s with stl := .reset, canCtl := [], spiPort := [], drv := .reset } : Dev).clearStatus 0x9000 0x9800 |>.clearStatus 0xA000 0xB000

/-- PD7 goes off: the link is lost, the host side resets, and LOCAL queue pairs are lost (R391). -/
def Dev.pd7Off (s : Dev) : Dev :=
  let s := hostSideReset s
  (s.setHiu (fun h => { Hiu.reset with
    qps := h.qps.foldl (fun m x => kput QPair.reset m x.1 { QPair.reset with era := x.2.era + 1 }) [],
    orphans := h.orphans ++ h.inFlight })).clearStatus 0 0x1000

/-- The engines lose their memories and registers with their domains; what the ledger admitted stays (R386, R387). -/
def Dev.enginesOff (s : Dev) : Dev :=
  { s with eng := { s.eng with engines := [], pwr := 0 } }

/-- The high SRAM bank loses its contents. -/
def Dev.pd9Off (s : Dev) : Dev :=
  { s with sram := s.sram.filter (fun x => decide (x.1 < 0x10800000 / 4)) }

/-- Step 4 of R388. -/
def Dev.domainsOff (s : Dev) (dest : Nat) : Dev :=
  let up := if s.pmu.state < 3 then s.eng.pwr else s.pmu.parked
  let t := (s.pd9Off.pd6Off.pd5Off).enginesOff
  let t := if dest = 4 then t.pd8Off.pd7Off else t
  s.ptPins (t.setPmu (fun p => { p with parked := up, pwr := domainsOn dest 0 false }))

/-- The state area of every copy of a kernel duty, filled as at its admission: local memories are zero-filled when
their domain comes on (log entry 36). -/
def Dev.refill (s : Dev) : Dev :=
  (dutyList s.tlg.duties).foldl (fun s d => (s.initArea d false).initArea d true) s

/-- Domains, engines and firmware come back at the end of an exit from STEEP or BEAN (R386, R388). -/
def Dev.domainsBack (s : Dev) : Dev :=
  let s := (List.range 4).foldl (fun s c => if tbit s.pmu.parked c then s.clusterOn c else s) s
  let s := s.ptPins (s.setPmu (fun p => { p with pwr := domainsOn 0 s.pmu.parked (s.bit Reg.pmuCfg 4), suspended := false }))
  s.refill.pd5On

/-! ## The target (R387) -/

def Dev.anyAxisEnabled (s : Dev) : Bool := s.hoist.enabled || (List.range 5).any (fun n => s.axisEnabled n)
/-- S has read 0 for at least 1 s: 10,000 speed updates. -/
def Dev.stoodStill (s : Dev) : Bool := decide (10000 ≤ s.hwk.zeroRow)
def Dev.tripAboard (s : Dev) : Bool := (s.carTrips s.grp.node).any Trip.aboard
def Dev.pcieActive (s : Dev) : Bool := s.hiu.linkUp && !s.hiu.d3hot

/-- PMU_STAT.BLOCK. -/
def Dev.pmuBlock (s : Dev) : Nat :=
  b2n s.anyAxisEnabled + 2 * b2n (!s.locksClosed) + 4 * b2n (!s.stoodStill) + 8 * b2n (!s.pmu.posStored)
    + 16 * b2n s.tripAboard + 32 * b2n s.pcieActive

/-- The car is parked and no trip of it is in PICKUP or RIDING. -/
def Dev.steepFit (s : Dev) : Bool := s.pmuBlock % 32 == 0
def Dev.beanFit (s : Dev) : Bool := (s.steepFit || s.bit Reg.pmuCfg 3) && !s.pcieActive
def Dev.dripFit (s : Dev) : Bool := (List.range s.clusters).any (fun c => c != 0 && !s.clusterDuty c)

/-- The tolerance in force, µs; none: unbounded (15 R348). -/
def Dev.tolerance (s : Dev) : Option Nat :=
  match (s.reg Reg.hiuLatTol).toNat, s.hiu.ltrMax with
  | 0, 0 => none
  | a, 0 => some a
  | 0, b => some b
  | a, b => some (min a b)

/-- Exit latency of a state, µs (Table 17-3). -/
def exitLatency : Nat → Nat
  | 0 => 0
  | 1 => 5
  | 2 => 150
  | 3 => 1500
  | _ => 30000

def Dev.maxState (s : Dev) : Nat := min 4 (s.fld Reg.pmuCfg 2 0)

/-- Entry delay of a state, ns. -/
def Dev.entryDelay (s : Dev) (k : Nat) : Nat :=
  if k ≤ 1 then 0
  else if k = 2 then max 1 (s.fld Reg.pmuCfg 15 8) * 1000000
  else max 1 (s.fld Reg.pmuCfg 23 16) * 1000000000

def Pmu.since (p : Pmu) (k : Nat) : Option Nat :=
  if k ≤ 1 then some 0 else if k = 2 then p.dripSince else if k = 3 then p.steepSince else p.beanSince

/-- The entry conditions of a state have held for its entry delay. -/
def Dev.heldLong (s : Dev) (k : Nat) : Bool :=
  match s.pmu.since k with
  | some t => decide (t + s.entryDelay k ≤ s.dt)
  | none => false

/-- A state qualifies; one the module is in, or enters, needs no delay again. -/
def Dev.qualifies (s : Dev) (k : Nat) : Bool :=
  (match s.tolerance with | some t => decide (exitLatency k ≤ t) | none => true)
    && decide (k ≤ s.maxState) && s.heldLong k

/-- The deepest state that qualifies with every shallower one. -/
def Dev.deepest (s : Dev) : Nat :=
  if s.qualifies 1 then
    if s.qualifies 2 then
      if s.qualifies 3 then
        if s.qualifies 4 then 4 else 3
      else 2
    else 1
  else 0

/-- Since when each state's entry conditions hold. -/
def Dev.noteConditions (s : Dev) : Dev :=
  let upd (fit : Bool) (t : Option Nat) : Option Nat := if fit then some (t.getD s.dt) else none
  s.setPmu (fun p => { p with dripSince := upd s.dripFit p.dripSince, steepSince := upd s.steepFit p.steepSince,
                              beanSince := upd s.beanFit p.beanSince })

/-! ## Entry and exit (R388) -/

/-- The LEAVING heartbeats of step 1 have been sent, or need not be. -/
def Dev.leftGroup (s : Dev) : Bool :=
  match s.grp.leaving with
  | some n => decide (3 ≤ n)
  | none => true

/-- Step 2 of an entry, once step 1 is done: the commit, and CPF's stored record. -/
def Dev.entryStore (s : Dev) : Dev :=
  if s.leftGroup && !s.pmu.stored then ((s.setPmu (fun p => { p with stored := true })).commitRecord 3 none).storePosition else s

/-- An entry starts; for STEEP and BEAN with step 1, the LEAVING heartbeats, and where it is empty with step 2. -/
def Dev.startEntry (s : Dev) (dest : Nat) : Dev :=
  let s := s.setPmu (fun p => { p with phase := .entering dest, stored := false })
  if dest < 3 then s
  else
    let s := if s.grp.en && (s.grp.member || s.grp.joining) && s.grp.leaving.isNone then
        { s with grp := { s.grp with leaving := some 0, back := true } }
      else s
    s.entryStore

/-- A frame boundary: step 2 of an entry begins after step 1, step 3 suspends the duties after step 2, and duties
suspended for an entry that was cancelled resume. -/
def Dev.frameBoundary (s : Dev) : Dev :=
  match s.pmu.phase with
  | .entering k =>
    if k < 3 then s
    else if s.pmu.stored && s.chry.run.isNone then s.setPmu (fun p => { p with suspended := true })
    else s.entryStore
  | _ => if s.pmu.state < 3 then s.setPmu (fun p => { p with suspended := false }) else s

def execFramePhaseZero (s : State) : Host.Outcome State Fault Refusal :=
  s.upd (whenOn 6 (fun s => framePhaseZero s.frameBoundary))

/-- An entry is cancelled before its commit instant: what it began is undone. -/
def Dev.cancelEntry (s : Dev) : Dev :=
  let s := s.setPmu (fun p => { p with phase := .settled, stored := false })
  if s.grp.back then
    let s := { s with grp := { s.grp with en := true, back := false, leaving := none } }
    if s.stl.sync then s.rejoin else s
  else s

/-- From a settled state towards the target. -/
def Dev.followTarget (s : Dev) : Dev :=
  if s.pmu.state < s.pmu.target then s.startEntry s.pmu.target
  else if s.pmu.target < s.pmu.state then
    let s := if 4 = s.pmu.state then (s.emit (.pin .peWakeN false)).setPmu (fun p => { p with peWake := true }) else s
    s.setPmu (fun p => { p with phase := .leaving p.target })
  else s

/-- Take a target: it starts, cancels or turns round a transition. -/
def Dev.takeTarget (s : Dev) (t : Nat) : Dev :=
  let s := s.setPmu (fun p => { p with target := t })
  match s.pmu.phase with
  | .settled => s.followTarget
  | .entering k => if t = k then s else s.cancelEntry.followTarget
  | .isolated _ | .leaving _ => s

/-- POWER_ENTRY_DELAY_EXPIRY: the conditions of state `k` have held for its delay. -/
def powerEntryDelayExpiry (k : Nat) (s : Dev) : Dev :=
  let s := s.noteConditions
  if 2 ≤ k ∧ s.heldLong k = true then s.takeTarget s.deepest else s
def execPowerEntryDelayExpiry (k : Fin 5) (s : State) : Host.Outcome State Fault Refusal := s.upd (whenOn 0 (powerEntryDelayExpiry k))

/-- POWER_STATE_ENTRY: the commit instant of an entry into STEEP or BEAN, and step 4, after steps 1 to 3; from STEEP no
duty is left to suspend. -/
def powerStateEntry (s : Dev) : Dev :=
  match s.pmu.phase with
  | .entering k =>
    if 3 ≤ k ∧ (s.pmu.suspended || 3 ≤ s.pmu.state && s.pmu.stored && s.chry.run.isNone) = true then
      let s := s.domainsOff k
      s.setPmu (fun p => { p with phase := .isolated k, entryAt := s.dt })
    else s
  | _ => s
def execPowerStateEntry (s : State) : Host.Outcome State Fault Refusal := s.upd (whenOn 0 powerStateEntry)

/-- A transition ends in state `k`: an entry into STEEP or BEAN is counted (R397), PMU_STATE is raised, and the next one begins if the target is elsewhere. -/
def Dev.settleIn (s : Dev) (k : Nat) : Dev :=
  let old := s.pmu.state
  let s := s.setPmu (fun p => { p with state := k, phase := .settled })
  let s := if k ≤ old then s else if k = 3 then s.chrInc 1 5 else if k = 4 then s.chrInc 1 6 else s
  (s.event 13 1 1 0 s.dt [old, k, s.pmuBlock]).followTarget

/-- PMU_STATE: the end of an entry or exit. -/
def pmuState (s : Dev) : Dev :=
  match s.pmu.phase with
  | .entering k => if k < 3 then s.settleIn k else s
  | .isolated k => s.settleIn k
  | .leaving k =>
    let was := s.pmu.state
    let s := if 3 ≤ was ∧ k < 3 then s.domainsBack
      else if was = 4 then s.setPmu (fun p => { p with pwr := domainsOn k 0 false })
      else s
    s.settleIn k
  | .settled => s
def execPmuState (s : State) : Host.Outcome State Fault Refusal := s.upd (whenOn 0 pmuState)

/-! ## Wake (R389) -/

/-- STEEP or BEAN, or the entry into it, that a wake would end: the state left and the states it acts in. -/
def Dev.sleepState (s : Dev) : Option Nat :=
  match s.pmu.phase with
  | .entering k => if 3 ≤ k then some k else none
  | .isolated k => some k
  | .settled => if 3 ≤ s.pmu.state then some s.pmu.state else none
  | .leaving _ => none

/-- A wake source is enabled and acts in the state. -/
def Dev.wakes (s : Dev) (source object state : Nat) : Bool :=
  decide (1 ≤ source ∧ source ≤ 10) && (decide (source ≤ 4) || s.bit Reg.pmuWake source)
    && !((source == 3 || source == 8 || source == 9) && state != 3)
    && (source != 5 || (if object < 32 then s.bit Reg.pmuWakein0 object else decide (object < 48) && s.bit Reg.pmuWakein1 (object - 32)))

/-- A wake takes effect: the entry delays start anew, so that the target is a state outside STEEP and BEAN; source 2
is itself a change of what R387 weighs. -/
def Dev.wake (s : Dev) (source object : Nat) : Dev :=
  match s.sleepState with
  | none => s
  | some k =>
    if s.wakes source object k then
      let from_ := match s.pmu.phase with | .entering _ => s.pmu.state | _ => k
      let keep (t : Option Nat) : Option Nat := if source = 2 then t else none
      let s := s.setPmu (fun p =>
        { p with lastWake := wordN (source * 2 ^ 24 + object % 2 ^ 24), steepSince := keep p.steepSince, beanSince := keep p.beanSince })
      let s := s.event 13 2 2 0 s.dt [source, object, from_]
      let s := s.noteConditions
      s.takeTarget s.deepest
    else s

/-- POWER_TARGET_CHANGE: a shallower target in STEEP or BEAN is the wake of source 2 (R389). -/
def powerTargetChange (s : Dev) : Dev :=
  let s := s.noteConditions
  match s.pmu.phase, s.sleepState with
  | .settled, some k | .isolated _, some k => if s.deepest < k ∧ k ≤ s.pmu.target then s.wake 2 0 else s.takeTarget s.deepest
  | _, _ => s.takeTarget s.deepest
def execPowerTargetChange (s : State) : Host.Outcome State Fault Refusal := s.upd (whenOn 0 powerTargetChange)

/-- PMU_WAKE. -/
def execPmuWake (source object : Nat) (s : State) : Host.Outcome State Fault Refusal :=
  s.upd (whenOn 0 (fun x => x.wake source object))

/-- PMU_TIMER_EXPIRY: source 10, PMU_TIMER ms after the entry's commit instant. -/
def pmuTimerExpiry (s : Dev) : Dev :=
  let t := (s.reg Reg.pmuTimer).toNat
  match s.pmu.phase with
  | .entering _ => s
  | _ => if t ≠ 0 ∧ s.pmu.entryAt + t * 1000000 ≤ s.dt then s.wake 10 0 else s
def execPmuTimerExpiry (s : State) : Host.Outcome State Fault Refusal := s.upd (whenOn 0 pmuTimerExpiry)

/-! ## Power failure (R383) -/

/-- PMU_POWER_FAIL: by PF_N low, by VDD_33 declared low, or both, with VDD_33 in 10 mV. -/
def pmuPowerFail (pfLow vddLow : Bool) (vdd : Nat) (s : Dev) : Dev :=
  if !pfLow && !vddLow then s
  else
    let s := s.setPmu (fun p => { p with pfN := p.pfN && !pfLow, vddLow := p.vddLow || vddLow })
    if s.pmu.pfArmed then
      let s := (s.setPmu (fun p => { p with pfArmed := false })).setBit Reg.pmuPf 2 true
      let s := (s.event 13 8 3 0 s.dt [b2n pfLow + 2 * b2n vddLow, vdd]).chrInc 1 4
      (s.commitRecord 2 none).storePosition
    else s
def execPmuPowerFail (pfLow vddLow : Bool) (vdd : Nat) (s : State) : Host.Outcome State Fault Refusal :=
  s.upd (whenOn 0 (pmuPowerFail pfLow vddLow vdd))

/-- PMU_POWER_OK: PF_N has read high and VDD_33 been declared at or above 3.10 V for 10 ms. -/
def pmuPowerOk (vdd : Nat) (s : Dev) : Dev :=
  let armed := s.pmu.pfArmed
  let s := s.setPmu (fun p => { p with pfN := true, vddLow := false, pfArmed := true })
  if armed then s else s.event 13 2 4 0 s.dt [vdd]
def execPmuPowerOk (vdd : Nat) (s : State) : Host.Outcome State Fault Refusal := s.upd (whenOn 0 (pmuPowerOk vdd))

/-! ## Start-up (R392, R393) -/

/-- ROOT_PLL_LOCK: device time starts at 0, the domains come on with zero-filled memories, and link training
begins. -/
def rootPllLock (s : Dev) : Dev :=
  if s.pmu.held ≠ 0 ∨ s.pmu.locked then s
  else
    { s with dt := 0, sram := [], coc := { s.coc with training := true },
             pmu := { s.pmu with locked := true, stage := 2, pwr := domainsOn 0 (2 ^ s.clusters - 1) (s.bit Reg.pmuCfg 4) } }
def execRootPllLock (s : State) : Host.Outcome State Fault Refusal := s.upd rootPllLock

/-- The slot a target's image loads from: its ACTIVE slot, or the other one once when its signature fails; none:
both fail (R393). -/
def loadSlot (active okA okB : Bool) : Option Bool :=
  if (if active then okB else okA) then some active
  else if (if active then okA else okB) then some (!active)
  else none

/-- One target loads its image: `pkg` is the version its header names. -/
def Dev.loadTarget (s : Dev) (okA okB : Nat) (pkg : List Nat) (t : Nat) : Dev :=
  let x := kget UpdTarget.reset s.upd.targets t
  match loadSlot x.active (tbit okA t) (tbit okB t) with
  | none => s.setPmu (fun p => { p with bootErr := if p.bootErr = 0 then t + 1 else p.bootErr })
  | some b =>
    let v := pkg.getD t 0 % 2 ^ 24
    let x := { x with run := b, runPkg := v, pkgA := if b then x.pkgA else v, pkgB := if b then v else x.pkgB }
    let s := { s with upd := { s.upd with targets := kput .reset s.upd.targets t x } }
    let s := s.setPmu (fun p => { p with bootSlots := putBit p.bootSlots t b })
    if t < 4 then s.clusterOn t else s

/-- FIRMWARE_LOAD_COMPLETE: bit t of `okA` and `okB` says that target t's image in slot A or B passes its signature
check. The firmware starts when every present image has loaded. -/
def firmwareLoadComplete (okA okB : Nat) (pkg : List Nat) (s : Dev) : Dev :=
  if !s.pmu.locked || !s.chry.mounted || s.pmu.loaded then s
  else
    let s := (List.range s.clusters ++ [4]).foldl (fun (s : Dev) t => s.loadTarget okA okB pkg t) s
    let s := s.setPmu (fun p => { p with loaded := true, stage := if p.bootErr = 0 then 8 else 7, cocAbsent := !s.coc.link.up })
    if s.pmu.bootErr = 0 then s.admitFirmware else s
def execFirmwareLoadComplete (okA okB : Nat) (pkg : List Nat) (s : State) : Host.Outcome State Fault Refusal :=
  s.upd (whenOn 0 (firmwareLoadComplete okA okB pkg))

/-- A present image has started on every target, the fuses read, and calibration has ended or had no link. -/
def Dev.readyConditions (s : Dev) : Bool :=
  s.fuseOk && s.pmu.loaded && s.pmu.bootErr == 0 && (s.pmu.cocAbsent || s.coc.calFail || (s.coc.mirror.map (·.calOk)).getD false)

/-- DEV_READY. -/
def devReady (s : Dev) : Dev :=
  if !s.pmu.ready && s.readyConditions then
    (s.setPmu (fun p => { p with ready := true, stage := 9 })).emit (.pin .devReady true)
  else s
def execDevReady (s : State) : Host.Outcome State Fault Refusal := s.upd (whenOn 0 devReady)

/-! ## Registers and commands (R395, R396) -/

def Dev.inTransit (s : Dev) : Bool := s.pmu.phase != .settled

/-- PMU_STAT. -/
def Dev.pmuStatWord (s : Dev) : Word :=
  wordN (65536 * s.pmuBlock + 128 * b2n s.inTransit + 16 * s.pmu.target + s.pmu.state)
def Dev.pmuTolWord (s : Dev) : Word := wordN (s.tolerance.getD 0xFFFFFFFF)
def Dev.pmuDomWord (s : Dev) : Word := wordN (65536 * s.retMask + (s.pmu.pwr - s.retMask))
/-- PMU_BOOT. -/
def Dev.pmuBootWord (s : Dev) : Word :=
  let run (t : Nat) : Nat := b2n (tbit s.pmu.bootSlots t)
  wordN (2 ^ 24 * s.pmu.stage + 65536 * s.pmu.bootErr + 256 * b2n s.coc.calFail + 128 * b2n s.pmu.cocAbsent + 64 * run 4
    + 8 * run 3 + 4 * run 2 + 2 * run 1 + run 0)
def Dev.pmuPfWord (s : Dev) : Word := wordN (4 * b2n (s.bit Reg.pmuPf 2) + 2 * b2n s.pmu.vddLow + b2n s.pmu.pfN)

/-- PMU_STATUS. -/
def pmuStatus (d : Desc) (s : Dev) : Dev :=
  if d.object ≠ 0 then s.fail d .badDescriptor
  else s.complete d .done (s.dispatchedAt d) [s.pmuStatWord, s.pmuTolWord, s.pmuDomWord, s.pmu.lastWake]
def execPmuStatus (d : Desc) (s : State) : Host.Outcome State Fault Refusal := s.cmd d (whenOn 0 (pmuStatus d))

/-- PMU_RESET: the reset comes 1 ms after the dispatch; no completion is written. -/
def pmuReset (d : Desc) (s : Dev) : Dev :=
  if d.object ≠ 0 ∨ bitsOf (d.w 3) 15 0 ≠ 0xC0FE then s.fail d .badDescriptor
  else s.setPmu (fun p => { p with resetAt := some (p.resetAt.getD (s.dispatchedAt d + 1000000)) })
def execPmuReset (d : Desc) (s : State) : Host.Outcome State Fault Refusal := s.cmd d (whenOn 0 (pmuReset d))

/-- PMU_RESET_DELAY_EXPIRY. -/
def pmuResetDelayExpiry (fuseOk corrected : Bool) (s : Dev) : Dev :=
  match s.pmu.resetAt with
  | some t => if t ≤ s.dt then (s.resetLogic 3 0).startUp fuseOk corrected else s
  | none => s
def execPmuResetDelayExpiry (fuseOk corrected : Bool) (s : State) : Host.Outcome State Fault Refusal :=
  s.upd (whenOn 0 (pmuResetDelayExpiry fuseOk corrected))

end Sys2Proof.Machine
end

