-- ==== Sys2Proof/Machine/Update.lean ====
section
/-! DEFINITION. Signed images, slots and firmware update in service (18 R407-R414). -/
namespace Sys2Proof.Machine

def Dev.target (s : Dev) (t : Nat) : UpdTarget := kget .reset s.upd.targets t
def Dev.setTarget (s : Dev) (t : Nat) (x : UpdTarget) : Dev :=
  { s with upd := { s.upd with targets := kput .reset s.upd.targets t x } }
def Dev.setUpdOp (s : Dev) (o : Option UpdOp) : Dev := { s with upd := { s.upd with op := o } }

/-! ## The external flash (R407) -/

/-- Flash offset of slot `b` of target `t`. -/
def slotBase (t : Nat) (b : Bool) : Nat := 0x100000 * (2 * t + b2n b + 1)

def Dev.flashByte (s : Dev) (a : Nat) : Byte := BitVec.ofNat 8 ((kget (0 : Word) s.upd.flash (a / 4)).toNat / 2 ^ (8 * (a % 4)))
def Dev.flashBytes (s : Dev) (a n : Nat) : List Byte := (List.range n).map (fun i => s.flashByte (a + i))

def Dev.setFlashByte (s : Dev) (a : Nat) (b : Byte) : Dev :=
  { s with upd := { s.upd with flash := kmod 0 s.upd.flash (a / 4) (fun w => setBitsOf w (8 * (a % 4) + 7) (8 * (a % 4)) b.toNat) } }
def Dev.setFlashBytes (s : Dev) (a : Nat) : List Byte → Dev
  | [] => s
  | b :: t => (s.setFlashByte a b).setFlashBytes (a + 1) t

/-- The slots' package versions and VERIFIED flags. -/
def UpdTarget.pkgOf (t : UpdTarget) (b : Bool) : Nat := if b then t.pkgB else t.pkgA
def UpdTarget.verified (t : UpdTarget) (b : Bool) : Bool := if b then t.verB else t.verA
def UpdTarget.setVerified (t : UpdTarget) (b v : Bool) : UpdTarget := if b then { t with verB := v } else { t with verA := v }
def UpdTarget.setPkg (t : UpdTarget) (b : Bool) (v : Nat) : UpdTarget := if b then { t with pkgB := v } else { t with pkgA := v }

/-- Why an image fails its check, in the order of R413; 0 none (Table 18-4). `sigOk`: the signature verifies. -/
def Dev.imageFault (s : Dev) (t : Nat) (b sigOk : Bool) : Nat :=
  let a := slotBase t b
  let h := s.flashBytes a 64
  let len := leAt h 12 4
  if leAt h 0 4 ≠ 0x57504C50 ∨ leAt h 4 2 ≠ 1 ∨ leAt h 7 1 ≠ 0 ∨ leAt h 48 16 ≠ 0 then 1
  else if leAt h 6 1 ≠ (if t = 4 then 1 else 0) then 2
  else if (if t = 4 then 262144 else 524288) < len then 3
  else if (h.drop 16).take 32 ≠ sha256Bytes (s.flashBytes (a + 64) len) then 4
  else if sigOk then 0 else 5

/-! ## Ends of updates and trials (R409, R411) -/

/-- A trial ends in confirmation: the trial slot becomes ACTIVE. -/
def Dev.confirmTrial (s : Dev) (t : Nat) (byCommand : Bool) : Dev :=
  let x := s.target t
  let s := s.setTarget t { x with active := x.tslot, trial := false, back := 0 }
  s.event 14 2 0x0102 t s.dt [x.runPkg, b2n byCommand]

/-- The target runs the image of the slot the update loads. -/
def Dev.runImage (s : Dev) (o : UpdOp) : Dev :=
  let x := s.target o.target
  let x := { x with run := o.slot, runPkg := x.pkgOf o.slot }
  let x := if o.cause = 0 then
      { x with trial := true, tslot := o.slot, trialAt := s.dt, trialFor := max 1 (s.fld Reg.updCfg 15 0) * 1000000000, back := 0 }
    else { x with active := o.slot, trial := false, back := 0 }
  let s := s.setTarget o.target x
  if 3 ≤ s.pmu.state then
    if o.target < 4 then s.setPmu (fun p => { p with parked := putBit p.parked o.target true }) else s
  else if o.target < 4 then (s.clusterOn o.target).setTlg (fun y => { y with replace := true })
  else (s.pd5Off).pd5On

/-- The update's target is down, so that its image can be loaded. -/
def Dev.updateReady (s : Dev) (o : UpdOp) : Bool :=
  o.commit.isSome && (o.target == 4 || (!s.clusterUp o.target && s.eng.falling.isNone))

/-- UPD_ACTIVATED: the image is loaded and runs; an activation puts the target on trial, a rollback ends it. -/
def updActivated (s : Dev) : Dev :=
  match s.upd.op with
  | some o =>
    if s.updateReady o then
      let s := (s.runImage o).setUpdOp none
      let pkg := (s.target o.target).runPkg
      let at_ := o.commit.getD s.dt
      if o.cause = 0 then
        (s.event 14 2 0x0101 o.target s.dt [pkg, b2n o.slot]).completeOpt o.desc .done at_ [wordN pkg]
      else
        (s.event 14 6 0x0103 o.target s.dt [o.cause, pkg]).completeOpt o.desc .done at_ [wordN (b2n o.slot)]
    else s
  | none => s
def execUpdActivated (s : State) : Host.Outcome State Fault Refusal := s.upd (whenOn 0 updActivated)

/-- TRIAL_TIMEOUT: the trial is confirmed, unless a fault has asked for a rollback. -/
def trialTimeout (t : Nat) (s : Dev) : Dev :=
  let x := s.target t
  if x.trial && x.back == 0 && decide (x.trialAt + x.trialFor ≤ s.dt) && !(s.upd.op.any (fun o => o.target == t)) then s.confirmTrial t false
  else s
def execTrialTimeout (t : Fin 5) (s : State) : Host.Outcome State Fault Refusal := s.upd (whenOn 0 (trialTimeout t))

/-! ## Commands (R413) -/

/-- What stops a UPD command before its own checks. -/
def Dev.updCheck (s : Dev) (d : Desc) : Option Status :=
  let t := bitsOf d.object 2 0
  if t < 4 ∧ s.clusters ≤ t then some .notInVariant
  else if 4 < t ∨ bitsOf d.object 31 3 ≠ 0 then some .badDescriptor
  else none

/-- UPD_WRITE: into the slot that is neither ACTIVE nor on trial; its VERIFIED clears. -/
def updWrite (d : Desc) (img : HostBytes) (s : Dev) : Dev :=
  let t := bitsOf d.object 2 0
  let x := s.target t
  let n := (d.w 6).toNat
  let off := (d.w 3).toNat
  match s.updCheck d with
  | some st => s.fail d st
  | none =>
    if x.trial ∨ 65536 < n ∨ 0x100000 < off + n ∨ !s.addrOk d (d.w64 4) n then s.fail d .badDescriptor
    else if s.upd.op.any (fun o => o.target == t) then s.fail d .reconfigBusy
    else
      let b := (s.fetch d (d.w64 4) img).take n
      let s := (s.setFlashBytes (slotBase t (!x.active) + off) b).setTarget t (x.setVerified (!x.active) false)
      s.complete d .done s.dt [wordN b.length]
def execUpdWrite (d : Desc) (img : HostBytes) (s : State) : Host.Outcome State Fault Refusal := s.updIn d img (whenOn 0 (updWrite d img))

/-- UPD_VERIFY. -/
def updVerify (d : Desc) (sigOk : Bool) (s : Dev) : Dev :=
  let t := bitsOf d.object 2 0
  let x := s.target t
  match s.updCheck d with
  | some st => s.fail d st
  | none =>
    let pkg := leAt (s.flashBytes (slotBase t (!x.active)) 64) 8 4 % 2 ^ 24
    let f := s.imageFault t (!x.active) sigOk
    if f = 0 then
      (s.setTarget t ((x.setVerified (!x.active) true).setPkg (!x.active) pkg)).complete d .done s.dt [0, wordN pkg]
    else s.complete d .badDescriptor s.dt [wordN f, wordN pkg]
def execUpdVerify (d : Desc) (sigOk : Bool) (s : State) : Host.Outcome State Fault Refusal := s.cmd d (whenOn 0 (updVerify d sigOk))

/-- An update of a cluster begins: the ledger is asked for the migration; a cluster that is down has none. -/
def Dev.updateCluster (s : Dev) (o : UpdOp) : Dev :=
  if s.clusterUp o.target then
    (s.setUpdOp (some o)).setTlg (fun y => { y with tasks := y.tasks ++ [(.update o.target, none)] })
  else s.setUpdOp (some { o with commit := some s.dt })

/-- An update of Monarch begins: a member leaves its group first, as for GRP_LEAVE. -/
def Dev.updateMonarch (s : Dev) (o : UpdOp) : Dev :=
  if s.grp.member && s.grp.leaving.isNone then
    { s.setUpdOp (some o) with grp := { s.grp with leaving := some 0, back := true } }
  else s.setUpdOp (some { o with commit := some s.dt })

/-- Loading slot `b` of target `t` begins, or is refused. -/
def Dev.startUpdate (s : Dev) (d : Desc) (t : Nat) (b : Bool) (cause : Nat) : Dev :=
  let o : UpdOp := ⟨t, b, cause, some d, none⟩
  if s.upd.op.isSome then s.fail d .reconfigBusy
  else if t = 4 then
    if s.hasGrp ∧ s.tripAboard then s.fail d .refusedInterlock else s.updateMonarch o
  else if s.clusterUp t && decide (t < 2) && !s.clusterUp (1 - t) then s.fail d .refusedLedger
  else if s.clusterUp t && (s.tlgBusy || s.eng.falling.isSome) then s.fail d .reconfigBusy
  else s.updateCluster o

/-- UPD_ACTIVATE. -/
def updActivate (d : Desc) (s : Dev) : Dev :=
  let t := bitsOf d.object 2 0
  let x := s.target t
  match s.updCheck d with
  | some st => s.fail d st
  | none => if !x.verified (!x.active) then s.fail d .badDescriptor else s.startUpdate d t (!x.active) 0
def execUpdActivate (d : Desc) (s : State) : Host.Outcome State Fault Refusal := s.cmd d (whenOn 0 (updActivate d))

/-- UPD_CONFIRM. -/
def updConfirm (d : Desc) (s : Dev) : Dev :=
  let t := bitsOf d.object 2 0
  let x := s.target t
  match s.updCheck d with
  | some st => s.fail d st
  | none =>
    if !x.trial then s.fail d .badDescriptor
    else if x.back ≠ 0 ∨ s.upd.op.any (fun o => o.target == t) = true then s.fail d .reconfigBusy
    else (s.confirmTrial t true).complete d .done s.dt [wordN (b2n x.tslot)]
def execUpdConfirm (d : Desc) (s : State) : Host.Outcome State Fault Refusal := s.cmd d (whenOn 0 (updConfirm d))

/-- UPD_ROLLBACK: a trial returns to the ACTIVE slot, and is asked for again when the ledger refuses it; a confirmed
target swaps to its other slot when that is VERIFIED. -/
def updRollback (d : Desc) (s : Dev) : Dev :=
  let t := bitsOf d.object 2 0
  let x := s.target t
  match s.updCheck d with
  | some st => s.fail d st
  | none =>
    if x.trial then
      let busy := s.upd.op.isSome || (s.clusterUp t && (s.tlgBusy || s.eng.falling.isSome))
      let s := if !busy && decide (t < 4) then s.setTarget t { x with back := max 1 x.back } else s
      s.startUpdate d t x.active 1
    else if x.verified (!x.active) then s.startUpdate d t (!x.active) 1
    else s.fail d .badDescriptor
def execUpdRollback (d : Desc) (s : State) : Host.Outcome State Fault Refusal := s.cmd d (whenOn 0 (updRollback d))

/-! ## Registers (R412) -/

def Dev.updStatWord (s : Dev) : Word :=
  match s.upd.op with
  | some o => wordN (32 * o.target + 16)
  | none => 0

/-- UPD_SLOTt. -/
def Dev.updSlotWord (s : Dev) (t : Nat) : Word :=
  let x := s.target t
  wordN (x.pkgA / 2 ^ 16 * 2 ^ 24 + x.pkgB / 2 ^ 16 * 2 ^ 16 + 16 * b2n x.verB + 8 * b2n x.verA + 4 * b2n x.trial + 2 * b2n x.tslot
    + b2n x.active)

def Dev.chrStatWord (s : Dev) : Word :=
  let c := s.chry
  wordN (65536 * c.format + 8 * b2n c.archived + 4 * b2n c.fresh + 2 * b2n c.run.isSome + b2n c.mounted)

end Sys2Proof.Machine
end

