-- ==== Sys2Proof/Machine/Registers.lean ====
section
/-! DEFINITION. The setup register map: what every BAR0 register reads, and what a write does (19 R415-R424). -/
namespace Sys2Proof.Machine

/-! ## Windows, domains and fused-off registers (R415, R418, R423) -/

/-- The power domain of a BAR0 offset (Table 19-1). -/
def windowDomain (off : Nat) : Nat :=
  match off / 0x1000 with
  | 0x0 => if off < 0x40 then 0 else 7
  | 0x3 | 0x4 | 0x5 => 6
  | 0x8 => 5
  | 0x9 => if off < 0x9800 then 8 else 5
  | 0xA => 8
  | _ => 0

/-- The place of an offset in a row of like registers. -/
def RegDef.place (r : RegDef) (off : Nat) : Nat := if r.count = 1 then 0 else (off - r.base) / r.stride

/-- The register belongs to a fused-off resource (02 R21, 06 R147). -/
def Dev.regAbsent (s : Dev) (off : Nat) : Bool :=
  match off / 0x1000 with
  | 0x2 => decide (0x2020 ≤ off) && decide (s.engines ≤ (off - 0x2020) / 4)
  | 0x3 =>
    if off < 0x3200 then decide (s.quads ≤ (off - 0x3000) / 0x40)
    else if off < 0x3280 then decide (s.ssis ≤ (off - 0x3200) / 0x40)
    else false
  | 0x4 =>
    if 0x4400 ≤ off then !s.bridgeGeneral ((off - 0x4400) / 4)
    else if 0x4100 ≤ off then !s.hasAxis ((off - 0x4100) / 0x80)
    else false
  | 0x7 =>
    if 0x7400 ≤ off then !s.hasBridge ((off - 0x7400) / 4)
    else if 0x7300 ≤ off then !s.hasBridge ((off - 0x7300) / 8)
    else if 0x7200 ≤ off then decide (s.fios ≤ (off - 0x7200) / 4)
    else if 0x7100 ≤ off then decide (s.fios ≤ (off - 0x7100) / 4)
    else false
  | 0x9 => decide (0x9800 ≤ off) && !s.hasGrp
  | 0xA => decide (off < 0xA600) && decide (s.cans ≤ (off - 0xA000) / 0x180)
  | 0xC => decide (0xC110 ≤ off) && decide (off < 0xC120) && decide (s.clusters ≤ (off - 0xC110) / 4)
  | _ => false

/-- Every aligned word that an access of `size` bytes touches belongs to a fused-off resource. -/
def Dev.allAbsent (s : Dev) (off size : Nat) : Bool :=
  (List.range ((off + size - 1) / 4 - off / 4 + 1)).all (fun i => s.regAbsent (off / 4 * 4 + 4 * i))

/-! ## Identity and capability (R419, R420, 02 R26) -/

/-- CAP_PART.PART: 0x5600 with the tier and door digits. -/
def Dev.partCode (s : Dev) : Nat := 0x5600 + 16 * s.partHeld.tier + s.doorAxes

/-- The mask of the numbers below `n` that satisfy `p`. -/
def bitMask (n : Nat) (p : Nat → Bool) : Nat := (List.range n).foldl (fun a i => a + (if p i then 2 ^ i else 0)) 0

/-- The words of Tables 2-3 and 2-4 by offset from 0xD000. -/
def Dev.capWord (s : Dev) (off : Nat) : Word :=
  match off with
  | 0x00 => wordN (65536 * s.partCode + 256 * b2n s.partHeld.pkgF + 16 * s.doorAxes + s.partHeld.tier)
  | 0x04 => wordN (256 * s.engines + (2 ^ s.clusters - 1))
  | 0x08 => wordN (32 * b2n (s.hasAxis 4) + 2 * bitMask 4 s.hasAxis + 1)
  | 0x0C => wordN (256 * (2 ^ s.ssis - 1) + (2 ^ s.quads - 1))
  | 0x10 => wordN (256 * bitMask 16 s.hasBridge + s.fios)
  | 0x14 => wordN (128 + 64 * b2n s.hasGrp + 16 * s.lanes + (2 ^ s.cans - 1))
  | 0x18 => wordN (65536 * s.tripCtx + s.maxCars)
  | 0x1C => wordN (bitMask 4 (fun c => decide (s.clusters ≤ c)) * 2)
  | 0x20 => wordN (2 * b2n s.eccCorr + b2n s.fuseOk)
  | _ => 0

/-- HIU_VER_IMPL: the Drive Port and host interface versions of the hardware, and the ranges the node advertises. -/
def Dev.verImpl (s : Dev) : Word :=
  wordN (0x2132 + (if s.pmu.loaded then
    2 ^ 28 * s.protoMax + 2 ^ 24 * protoMin + 2 ^ 20 * s.costMax + 2 ^ 16 * costMin else 0))

/-- The words of Table 19-2 by offset; HIU_DT as it stands now. -/
def Dev.idWord (s : Dev) (off : Nat) : Word :=
  match off with
  | 0x00 => 0x434C3536
  | 0x04 => wordN (65536 * s.partCode + 256 * 0x11 + (if s.coc.fresh then 0 else (Config.cocoonStep 0).toNat))
  | 0x08 => if s.pmu.loaded then wordN (s.target 0).runPkg else 0
  | 0x0C => if s.pmu.loaded then wordN s.pkgMin else 0
  | 0x10 => lo64 s.serial
  | 0x14 => hi64 s.serial
  | 0x18 => wordN (2 ^ 24 * s.drv.version + 65536 * s.costInForce + 256 * s.protoInForce + s.hiu.ifver)
  | 0x1C => s.verImpl
  | 0x20 => wordN (65536 * s.chry.format + 0x0101)
  | 0x24 => lo64 s.dt
  | 0x28 => hi64 s.dt
  | 0x2C => wordN (4 * b2n s.hwk.lockErr + 2 * b2n (s.hwk.armed && s.hwk.fieldArmed) + b2n s.hwk.locked)
  | _ => 0

/-! ## What the registers read -/

/-- PFI_QSTAT. -/
def Dev.qstatWord (s : Dev) (n : Nat) : Word :=
  let c := s.chan n
  let r := s.reg (Reg.pfiQstat n)
  wordN (b2n (bitOf r 0) + 2 * b2n (bitOf r 1) + 4 * b2n (s.limLo n) + 8 * b2n (s.limHi n) + 16 * b2n c.dirNeg + 32 * b2n (s.winMode n)
    + 64 * b2n (bitOf r 6) + 128 * b2n (!s.limitsOk n || !s.thresholdsOk n) + 256 * b2n (bitOf r 8) + 512 * b2n c.idxSeen)

/-- PFI_SSTAT. -/
def Dev.sstatWord (s : Dev) (m : Nat) : Word :=
  let r := s.reg (Reg.pfiSstat m)
  wordN (b2n (bitOf r 0) + 2 * b2n (s.ssi m).stale + 4 * b2n (s.ssi m).fail + 8 * b2n (bitOf r 3))

/-- CPF_STAT. -/
def Dev.cpfStatWord (s : Dev) : Word :=
  let c := s.cpf
  wordN (c.state.code + 16 * refCode c.reference + 64 * exclMask c + 512 * b2n c.record.isSome
    + 1024 * bitsOf (s.reg Reg.cpfStat) 12 10)

/-- CPF_TABINFO. -/
def Dev.tabInfoWord (s : Dev) : Word :=
  match s.cpf.table with
  | some t => wordN (65536 * (t.gen % 65536) + t.entries.length % 512)
  | none => 0

def Dev.pfiWord (s : Dev) (r : RegDef) (off : Nat) : Word :=
  if r.base = 0x3020 then s.qstatWord (r.place off)
  else if r.base = 0x3210 then s.sstatWord (r.place off)
  else if off = Reg.cpfStat then s.cpfStatWord
  else if off = Reg.cpfTabinfo then s.tabInfoWord
  else s.reg off

def Dev.msqWord (s : Dev) (r : RegDef) (off : Nat) : Word :=
  if off = Reg.msqHstat then wordN s.hstat
  else if r.base = 0x4100 then setBitsOf (s.reg off) 0 0 (b2n ((s.axis (r.place off)).state != .disabled))
  else if r.base = 0x4158 then wordN (s.dstat (r.place off))
  else s.reg off

/-- LPE_TRIG0 shows the MSQ's hand-over while the hoist is enabled, LPE_TRIG1 reads 0 (07 R173). -/
def Dev.trigWord (s : Dev) (n : Nat) : Word :=
  if n = 0 then (if s.hoist.enabled then 0x80000001 else 0)
  else if n = 1 then 0
  else s.reg (Reg.lpeTrig n)

def Dev.lpeWord (s : Dev) (r : RegDef) (off : Nat) : Word :=
  if off = Reg.lpeFrame then wordN s.lpe.frame
  else if off = Reg.lpeStat then setBitsOf (s.reg off) 0 0 1
  else if off = Reg.lpeSlots then wordN (65536 * peakSlots (groupList s.lpe.groups) + 0x100)
  else if r.base = 0x5010 then s.trigWord (r.place off)
  else if r.base = 0x5100 then wordN (s.lstat (r.place off))
  else s.reg off

def Dev.hwkWord (s : Dev) (off : Nat) : Word :=
  if off = Reg.hwkStat then s.hwkStatWord
  else if off = Reg.hwkCause then s.hwkCauseWord
  else if off = Reg.hwkPos then wordI s.hwk.h
  else if off = Reg.hwkSpeed then wordI s.hwk.s
  else s.reg off

def Dev.cocWord (s : Dev) (r : RegDef) (off : Nat) : Word :=
  if off = Reg.cocStat then s.cocStatWord
  else if off = Reg.cocVmon then s.cocVmonWord
  else if off = Reg.cocVmon2 then s.cocVmon2Word
  else if off = Reg.cocTapstat then s.cocTapWord
  else if off = Reg.cocLinkcnt then s.cocLinkWord
  else if r.base = 0x7100 then s.cocChWord (r.place off)
  else if r.base = 0x7200 then s.cocChstatWord (r.place off)
  else if r.base = 0x7400 then s.cocBrstatWord (r.place off)
  else s.reg off

/-- The upper half a pair captured last (R421). -/
def Dev.captured (s : Dev) (hi : Nat) : Word := kget 0 s.hiu.capture hi

def Dev.monWord (s : Dev) (off : Nat) : Word :=
  let m := s.mon
  if off = Reg.monStat then
    wordN (256 * (s.qdepth % 256) + 4 * (bitsOf (s.reg off) 4 2) + 2 * b2n (!m.offered.isEmpty) + b2n (!m.cfg.isEmpty))
  else if off = Reg.monVer then wordN (65536 * s.costMax + 256 * costMin + s.costInForce)
  else if off = Reg.monTrips then wordN (65536 * s.tripCap + s.tripList.length)
  else if off = Reg.monTokens then wordN m.tok
  else if off = Reg.monEvalt then wordN m.lastEval
  else if off = Reg.monEvalmax then wordN m.maxEval
  else if off = Reg.monLatecnt then wordN m.lateCnt
  else if off = Reg.monDigestLo then lo64 m.digest
  else if off = Reg.monSdigestLo then lo64 m.sdigest
  else if off = Reg.monDigestHi ∨ off = Reg.monSdigestHi then s.captured off
  else s.reg off

def Dev.grpWord (s : Dev) (off : Nat) : Word :=
  let g := s.grp
  if off = Reg.grpCfg then wordN (65536 * g.capacity + 2048 * g.members + 128 * g.node + b2n g.en)
  else if off = Reg.grpId then wordN g.groupId
  else if off = Reg.grpStat then s.grpStatWord
  else if off = Reg.grpEpoch then wordN g.epoch
  else if off = Reg.grpView then wordN g.view
  else if off = Reg.grpFrontLo then lo64 g.frontier
  else if off = Reg.grpFrontHi then s.captured off
  else if off = Reg.grpCnt then wordN (65536 * g.merges + g.changes)
  else s.reg off

def Dev.stlWord (s : Dev) (off : Nat) : Word :=
  let t := s.stl
  if off = Reg.stlStat then s.stlStatWord
  else if off = Reg.stlPathfail then s.pathFailWord
  else if off = Reg.stlCnt0 then wordN (65536 * t.mismatch + t.late)
  else if off = Reg.stlCnt1 then wordN (65536 * t.seqErr + t.pcrcErr)
  else if off = Reg.stlOffset then wordI t.offset
  else s.reg off

def Dev.busWord (s : Dev) (r : RegDef) (off : Nat) : Word :=
  if r.base = 0xA00C then s.canStatWord (r.place off)
  else if r.base = 0xA010 then wordN (s.can (r.place off)).dropped
  else if r.base = 0xA604 then setBitsOf (s.reg off) 0 0 (b2n (s.spi (r.place off)).run)
  else if off = Reg.drvStat then wordN s.drvStatWord
  else if off = Reg.drvCnt then wordN (65536 * s.drv.missing + s.drv.bad)
  else s.reg off

def Dev.krnWord (s : Dev) (off : Nat) : Word :=
  if off = Reg.krnStat then wordN (2 ^ 24 + 256 * (bitMask 64 (fun h => (s.kernel h).isSome) |> popcount 64) + 0x40)
  else if off = Reg.krnLasterr then s.krn.lastErr
  else if off = Reg.krnUsedLo then lo64 (bitMask 64 (fun h => (s.kernel h).isSome))
  else if off = Reg.krnUsedHi then hi64 (bitMask 64 (fun h => (s.kernel h).isSome))
  else s.engReg (off - 0xB000)

def Dev.hiuWord (s : Dev) (off : Nat) : Word :=
  let h := s.hiu
  if off = Reg.hiuDtHi then s.captured off
  else if off < 0x40 then s.idWord off
  else if off = Reg.hiuStatus then
    wordN (65536 * h.ifver + 4096 * h.linkWidth + 256 * h.linkRate + 8 * bitsOf (s.reg off) 4 3 + 4 * b2n (s.qp 0).active
      + 2 * b2n h.linkUp + b2n s.pmu.ready)
  else if off = Reg.hiuLtr then wordN h.ltrMax
  else if off = Reg.hiuCnt then wordN (65536 * h.lostCpl + h.evDrop)
  else if off = Reg.hiuDlmiss then wordN h.dlMiss
  else s.reg off

def Dev.pmuWord (s : Dev) (off : Nat) : Word :=
  if off = Reg.pmuStat then s.pmuStatWord
  else if off = Reg.pmuTol then s.pmuTolWord
  else if off = Reg.pmuDom then s.pmuDomWord
  else if off = Reg.pmuBoot then s.pmuBootWord
  else if off = Reg.pmuLastwake then s.pmu.lastWake
  else if off = Reg.pmuRstcause then wordN s.pmu.rstCause
  else if off = Reg.pmuPf then s.pmuPfWord
  else s.reg off

def Dev.chrWord (s : Dev) (r : RegDef) (off : Nat) : Word :=
  if off = Reg.chrStat then s.chrStatWord
  else if off = Reg.chrGenLo then lo64 s.chry.gen
  else if off = Reg.chrLastLo then lo64 s.chry.last
  else if off = Reg.chrGenHi ∨ off = Reg.chrLastHi then s.captured off
  else if off = Reg.updStat then s.updStatWord
  else if r.base = 0xC110 then s.updSlotWord (r.place off)
  else s.reg off

/-- What a present register of a block that is on reads. -/
def Dev.liveWord (s : Dev) (r : RegDef) (off : Nat) : Word :=
  match off / 0x1000 with
  | 0x0 => s.hiuWord off
  | 0x1 => s.pmuWord off
  | 0x2 => s.tlgReg (off - 0x2000)
  | 0x3 => s.pfiWord r off
  | 0x4 => s.msqWord r off
  | 0x5 => s.lpeWord r off
  | 0x6 => s.hwkWord off
  | 0x7 => s.cocWord r off
  | 0x8 => s.monWord off
  | 0x9 => if off < 0x9800 then s.stlWord off else s.grpWord off
  | 0xA => s.busWord r off
  | 0xB => s.krnWord off
  | 0xC => s.chrWord r off
  | 0xD => s.capWord (off - 0xD000)
  | _ => 0

/-- What an aligned 32-bit read of a BAR0 offset returns: reserved space and registers of fused-off resources read
zero; while the block's domain is off, setup fields read the retained store and the others their reset values
(R415, R418, R423). -/
def Dev.readReg (s : Dev) (off : Nat) : Word :=
  match regDef? off with
  | none => 0
  | some r =>
    if s.regAbsent off then 0
    else if s.powered (windowDomain off) then s.liveWord r off
    else keepBits (s.reg off) (regReset off) r.rw

/-! ## Writes (R416-R418, R422) -/

/-- Values outside a field's range read back clamped, as the tables of the chapters say. -/
def clampWrite (base : Nat) (w : Word) : Word :=
  let cl (hi lo a b : Nat) (w : Word) : Word := setBitsOf w hi lo (clampN a b (bitsOf w hi lo))
  match base with
  | 0x300C => cl 23 0 64 0xFFFFFF w
  | 0x301C => cl 15 8 1 255 (cl 7 0 1 40 w)
  | 0x3850 => cl 7 0 1 255 w
  | 0x4018 => cl 15 0 200 65535 w
  | 0xA800 => cl 7 4 1 15 w
  | 0xA804 => cl 7 0 205 245 w
  | 0x4128 => cl 15 8 100 200 w
  | 0x4130 => cl 15 8 1 255 w
  | 0x9808 => cl 9 0 50 900 w
  | 0x900C => cl 4 0 2 20 w
  | 0x9014 => cl 23 16 1 255 w
  | 0x0400 => cl 7 0 1 255 w
  | 0x7004 => setBitsOf w 8 0 (max 120 (min (bitsOf w 8 0) (bitsOf w 24 16 - 1)))
  | 0x7008 => cl 16 0 50 100000 w
  | 0x1000 => cl 23 16 1 255 (cl 15 8 1 255 (setBitsOf w 2 0 (min 4 (bitsOf w 2 0))))
  | 0xC004 => cl 7 0 1 255 w
  | 0xC104 => cl 15 0 1 65535 w
  | _ => w

/-- The bits of a register that are locked now, and the register and bit of the CFGIGN flag, if the chapter names
one: 04 R86, 05 R113, 06 R146 and R147, 07 R173, 10 R249, 11 R270, 16 R363 and R378. -/
def Dev.lockOf (s : Dev) (base n : Nat) (w : Word) : Option (Nat × Option (Nat × Nat)) :=
  let lk (c : Bool) (mask reg bit : Nat) : Option (Nat × Option (Nat × Nat)) := if c then some (mask, some (reg, bit)) else none
  match base with
  | 0x3804 | 0x3808 | 0x380C => lk s.cpfEnabled 0xFFFFFFFF Reg.cpfStat 12
  | 0xA800 | 0xA804 | 0xA808 => lk s.hoist.enabled 0xFFFFFFFF Reg.drvStat 7
  | 0x4100 | 0x4104 | 0x4108 | 0x410C | 0x4120 | 0x4124 | 0x4128 | 0x412C =>
    lk ((s.axis n).state != .disabled) 0xFFFFFFFF (Reg.msqDstat n) 15
  | 0x4400 => if s.bit (Reg.msqBcfg n) 0 then some (0xFFFF0000, none) else none
  | 0x5010 => lk (decide (n < 2) || decide (bitsOf w 13 8 < 16)) 0xFFFFFFFF Reg.lpeStat 1
  | 0x7004 | 0x7008 | 0x700C => lk s.hwk.locked 0xFFFFFFFF Reg.cocStat 8
  | 0x7300 | 0x7304 => lk (s.bridgeSet n).enabled 0xFFFFFFFF Reg.cocStat 8
  | 0x9004 | 0x9008 => lk (s.bit Reg.stlCfg 0) 0xFFFFFFFF Reg.stlStat 15
  | 0x9808 => lk s.grp.en 0xFFFFFFFF Reg.grpStat 5
  | 0xA004 | 0xA008 => lk (s.bit (Reg.canCfg n) 0) 0xFFFFFFFF (Reg.canStat n) 21
  | _ => none

/-- What goes before a write of a register: a threshold leaves the estimator mode in force as it is (03 R41). -/
def Dev.beforeWrite (s : Dev) (base n : Nat) : Dev := if base = 0x3014 ∨ base = 0x3018 then s.settleMode n else s

/-- What follows a write that has taken effect: `old` is the state before it. -/
def Dev.afterWrite (s : Dev) (base n : Nat) (old : Dev) : Dev :=
  if base = 0x3300 then
    let div := old.ptDivision
    let s := if s.bit Reg.pfiPtcfg 0 then
        { s with pfi := { s.pfi with ptOld :=
          (if old.bit Reg.pfiPtcfg 0 && div != s.fld Reg.pfiPtcfg 7 4 + 1 then some div else none) } }
      else { s with pfi := { s.pfi with ptCount := 0, ptOld := none } }
    old.ptPins s
  else if base = 0x3014 ∨ base = 0x3018 then s.settleMode n
  else if base = 0x1000 ∧ s.pmu.state ≤ 2 then
    { s with pmu := { s.pmu with pwr := putBit s.pmu.pwr 11 (s.bit Reg.pmuCfg 4) } }
  else if base = 0x7004 ∨ base = 0x7008 ∨ base = 0x700C then s.feedKey (64 + (base - 0x7004) / 4)
  else if base = 0x7300 ∨ base = 0x7304 then s.feedKey (48 + n)
  else s

/-- A write of a register without a rule of its own (R417): RW fields take the value unless locked, W1C bits written
1 clear while the block is on, and CFGIGN is set when a locked field would have changed. -/
def Dev.plainWrite (s : Dev) (r : RegDef) (off : Nat) (v : Word) : Dev :=
  let live := s.powered (windowDomain off)
  let n := r.place off
  let old := if r.base = 0x5010 then s.trigWord n else s.reg off
  let w := clampWrite r.base (writeBits old v r.rw (if live then r.w1c else 0))
  match s.lockOf r.base n w with
  | none => ((s.beforeWrite r.base n).setReg off w).afterWrite r.base n s
  | some (mask, flag) =>
    let k := keepBits old w mask
    let t := match flag with
      | some (reg, bit) => if live && k != w then s.setBit reg bit true else s
      | none => s
    if r.base = 0x5010 then t else t.setReg off k

/-- A 32-bit write of a BAR0 offset. -/
def Dev.writeReg (s : Dev) (off : Nat) (v : Word) (queued : List Desc) : Dev :=
  match regDef? off with
  | none => s
  | some r =>
    if s.regAbsent off then s
    else match r.base with
    | 0x3000 => pfiQcfgWrite (r.place off) v s
    | 0x3200 => pfiScfgWrite (r.place off) v s
    | 0x3800 => cpfCfgWrite v s
    | 0x6000 => hwkLock v s
    | 0x9000 => stlCfgWrite v s
    | 0xA000 => canCfgWrite (r.place off) v s
    | 0xA600 => spiCfgWrite (r.place off) v s
    | 0x0048 => hiuAqCtrlWrite v queued s
    | _ =>
      if r.wl ≠ 0 then s.hwkRuleWrite off v
      else if 0x50 ≤ off ∧ off ≤ 0x68 then hiuAqFieldWrite off r.rw v s
      else s.plainWrite r off v

/-- REGISTER_WRITE (R416): an aligned 32-bit write; a 64-bit write at a multiple of 4, as two of them, the lower
first; any other write is ignored and sets HIU_STATUS.CFGIGN, unless all it touches is fused off, which comes before
(R418). -/
def registerWrite (off size : Nat) (v : BitVec 64) (queued : List Desc) (s : Dev) : Dev :=
  if off % 4 = 0 ∧ size = 4 then s.writeReg off (lo64 v.toNat) queued
  else if off % 4 = 0 ∧ size = 8 then
    (s.writeReg off (lo64 v.toNat) queued).writeReg (off + 4) (hi64 v.toNat) queued
  else if s.allAbsent off size then s
  else s.configIgnored

/-! ## Configuration space (15 R330, R348) -/

/-- A dword of the configuration space. The spec gives the Device ID, the class code, BAR4 and BAR5, and the three LTR
fields, whose places are the model's (DESIGN CHOICE, log entry 42); the others are open. -/
def Dev.configRead (s : Dev) (off : Nat) : Word :=
  match off with
  | 0x00 => wordN (65536 * s.partCode + bitsOf (Config.configWord 0) 15 0)
  | 0x08 => wordN (256 * 0x088000 + bitsOf (Config.configWord 8) 7 0)
  | 0x20 | 0x24 => 0
  | 0xA8 => setBitsOf (Config.configWord 0xA8) 10 10 (b2n s.hiu.ltrOn)
  | 0x104 => lo64 s.serial
  | 0x108 => hi64 s.serial
  | 0x114 => wordN (65536 * s.hiu.ltrNoSnoop + s.hiu.ltrSnoop)
  | _ => Config.configWord off

/-- A dword write of the configuration space: the LTR Mechanism Enable bit and the two maximum latencies take it. -/
def configWrite (off : Nat) (v : Word) (s : Dev) : Dev :=
  match off with
  | 0xA8 => s.setHiu (fun h => { h with ltrOn := bitOf v 10 })
  | 0x114 => s.setHiu (fun h => { h with ltrSnoop := bitsOf v 12 0, ltrNoSnoop := bitsOf v 28 16 })
  | _ => s

/-! ## What the host reads and writes -/

/-- Where the host's other spaces lie in the offsets of REGISTER_WRITE and LO_REGISTER_CAPTURE: BAR2, then the
configuration space (the model's own, log entry 42). -/
def bar2At : Nat := 0x10000
def configAt : Nat := 0x20000

/-- A write by the host. -/
def hostSpaceWrite (off size : Nat) (v : BitVec 64) (queued : List Desc) : Dev → Dev :=
  if off < bar2At then whenBar (registerWrite off size v queued)
  else if off < configAt then whenBar (bar2Write (off - bar2At) size v)
  else whenOn 7 (if off % 4 = 0 ∧ size = 4 then configWrite (off - configAt) (lo64 v.toNat) else id)

def execRegisterWrite (off size : Nat) (v : BitVec 64) (queued : List Desc) (s : State) :
    Host.Outcome State Fault Refusal :=
  s.upd (hostSpaceWrite off size v queued)

/-! ## Sixty-four-bit pairs (R421) -/

/-- The value of the pair whose _LO register lies at an offset. -/
def Dev.pairValue (s : Dev) (off : Nat) : Option Nat :=
  if off = Reg.hiuDtLo then some s.dt
  else if off = Reg.grpFrontLo then (if s.hasGrp then some s.grp.frontier else none)
  else if off = Reg.monDigestLo then some s.mon.digest
  else if off = Reg.monSdigestLo then some s.mon.sdigest
  else if off = Reg.chrGenLo then some s.chry.gen
  else if off = Reg.chrLastLo then some s.chry.last
  else none

/-- An aligned 32-bit read of BAR0: what it returns, and what it leaves. The read of a _LO register returns the lower
half, and the upper half is kept for a read of the _HI register; a block that is off gives its reset value, 0. -/
def Dev.bar0Word (s : Dev) (off : Nat) : Word × Dev :=
  match s.pairValue off with
  | none => (s.readReg off, s)
  | some x =>
    let x := if s.powered (windowDomain off) then x else 0
    (lo64 x, { s with hiu := { s.hiu with capture := kput 0 s.hiu.capture (off + 4) (hi64 x) } })

/-- The byte lanes of a word that a read of `size` bytes at `off` addresses. -/
def lanesOf (off size : Nat) (w : Word) : Word := wordN (w.toNat / 2 ^ (8 * (off % 4)) % 2 ^ (8 * size))

/-- LO_REGISTER_CAPTURE and every other read of BAR0 (R416): a 64-bit read at a multiple of 4 is two, the lower first; a
narrow one returns its byte lanes, with the effects of a full read; a misaligned one returns zero. -/
def loRegisterCapture (a : BarAccess) (s : Dev) : Dev :=
  if a.off % 4 = 0 ∧ a.size = 8 then
    let (v, s) := s.bar0Word a.off
    let (w, s) := s.bar0Word (a.off + 4)
    (s.emit (.barRead a.off v)).emit (.barRead (a.off + 4) w)
  else if a.off % 4 + a.size ≤ 4 then
    let (v, s) := s.bar0Word (a.off / 4 * 4)
    s.emit (.barRead a.off (lanesOf a.off a.size v))
  else s.emit (.barRead a.off 0)

/-- A read by the host. In BAR2 only aligned 32-bit reads are answered (15 R339). -/
def hostSpaceRead (a : BarAccess) : Dev → Dev :=
  if a.off < bar2At then whenBar (loRegisterCapture a)
  else if a.off < configAt then
    whenBar (fun s => s.emit (.barRead a.off (if a.off % 4 = 0 ∧ a.size = 4 then s.readBar2 (a.off - bar2At) else 0)))
  else whenOn 7 (fun s => s.emit (.barRead a.off (lanesOf a.off a.size (s.configRead ((a.off - configAt) / 4 * 4)))))

def execLoRegisterCapture (a : BarAccess) (s : State) : Host.Outcome State Fault Refusal := s.upd (hostSpaceRead a)

/-! ## HIU_IDENTIFY (R350, R421, 02 R27) -/

/-- The identity block on one edge, then the capability block. -/
def Dev.identityBytes (s : Dev) : List Byte :=
  (List.range 16).flatMap (fun i => leBytes 4 (s.idWord (4 * i)).toNat)
    ++ (List.range 9).flatMap (fun i => leBytes 4 (s.capWord (4 * i)).toNat)

/-- HIU_IDENTIFY. -/
def hiuIdentify (d : Desc) (s : Dev) : Dev :=
  if d.object ≠ 0 ∨ d.qp ≠ 0 then s.fail d .badDescriptor
  else (s.hostWrite d (d.w64 3) s.identityBytes).complete d .done (s.dispatchedAt d) [100]

def execHiuIdentify (d : Desc) (s : State) : Host.Outcome State Fault Refusal := s.cmd d (whenOn 7 (hiuIdentify d))

end Sys2Proof.Machine
end

