-- ==== Sys2Proof/Machine/Dispatch.lean ====
section
/-! DEFINITION. One arm for each command: one direct call of its meaning. -/
namespace Sys2Proof.Machine

def exec (i : Instr) (s : State) : Host.Outcome State Fault Refusal :=
  match i with
  | .registerWrite off size v queued => Sys2Proof.Machine.execRegisterWrite off size v queued s
  | .loRegisterCapture a => Sys2Proof.Machine.execLoRegisterCapture a s
  | .ssiFrameComplete m idleHigh start pos stat par => Sys2Proof.Machine.execSsiFrameComplete m idleHigh start pos stat par s
  | .count n a b => Sys2Proof.Machine.execCount n a b s
  | .indexCheck n => Sys2Proof.Machine.execIndexCheck n s
  | .indexGoesActive n => Sys2Proof.Machine.execIndexGoesActive n s
  | .zeroSpeedTimeout n => Sys2Proof.Machine.execZeroSpeedTimeout n s
  | .pfiQcfgWrite n v => Sys2Proof.Machine.execPfiQcfgWrite n v s
  | .pfiScfgWrite m v => Sys2Proof.Machine.execPfiScfgWrite m v s
  | .pfiRead d => Sys2Proof.Machine.execPfiRead d s
  | .pfiSetPos d => Sys2Proof.Machine.execPfiSetPos d s
  | .pfiCmpArm d => Sys2Proof.Machine.execPfiCmpArm d s
  | .pfiCmpDisarm d => Sys2Proof.Machine.execPfiCmpDisarm d s
  | .pfiClear d => Sys2Proof.Machine.execPfiClear d s
  | .pfiLatch d => Sys2Proof.Machine.execPfiLatch d s
  | .cpfPeriod => Sys2Proof.Machine.execCpfPeriod s
  | .trackReadmitted => Sys2Proof.Machine.execTrackReadmitted s
  | .revalidation => Sys2Proof.Machine.execRevalidation s
  | .autoCorrectionStart => Sys2Proof.Machine.execAutoCorrectionStart s
  | .learnRunComplete => Sys2Proof.Machine.execLearnRunComplete s
  | .learnPassTimeout => Sys2Proof.Machine.execLearnPassTimeout s
  | .correctionRunComplete => Sys2Proof.Machine.execCorrectionRunComplete s
  | .cpfCfgWrite v => Sys2Proof.Machine.execCpfCfgWrite v s
  | .cpfRead d => Sys2Proof.Machine.execCpfRead d s
  | .cpfSetLoad d => Sys2Proof.Machine.execCpfSetLoad d s
  | .cpfLearn d => Sys2Proof.Machine.execCpfLearn d s
  | .cpfCorrect d => Sys2Proof.Machine.execCpfCorrect d s
  | .cpfTableRead d => Sys2Proof.Machine.execCpfTableRead d s
  | .cpfTableWrite d img => Sys2Proof.Machine.execCpfTableWrite d img s
  | .cpfTableCommit d => Sys2Proof.Machine.execCpfTableCommit d s
  | .msqProfileStep => Sys2Proof.Machine.execMsqProfileStep s
  | .hoistDwellEnd => Sys2Proof.Machine.execHoistDwellEnd s
  | .hoistStartTimeout => Sys2Proof.Machine.execHoistStartTimeout s
  | .hoistStopTimeout => Sys2Proof.Machine.execHoistStopTimeout s
  | .relevelStart => Sys2Proof.Machine.execRelevelStart s
  | .drvSetpointFrame => Sys2Proof.Machine.execDrvSetpointFrame s
  | .drvStatusFrame stopOk bytes => Sys2Proof.Machine.execDrvStatusFrame stopOk bytes s
  | .drvStatusWindowExpiry => Sys2Proof.Machine.execDrvStatusWindowExpiry s
  | .drvHelloAck stopOk bytes => Sys2Proof.Machine.execDrvHelloAck stopOk bytes s
  | .drvNegotiationTimeout => Sys2Proof.Machine.execDrvNegotiationTimeout s
  | .drvEnableTimeout => Sys2Proof.Machine.execDrvEnableTimeout s
  | .drvFaultResetTimeout => Sys2Proof.Machine.execDrvFaultResetTimeout s
  | .msqHEnable d => Sys2Proof.Machine.execMsqHEnable d s
  | .msqHDisable d => Sys2Proof.Machine.execMsqHDisable d s
  | .msqHGoto d => Sys2Proof.Machine.execMsqHGoto d s
  | .msqHSpeed d => Sys2Proof.Machine.execMsqHSpeed d s
  | .msqHStop d => Sys2Proof.Machine.execMsqHStop d s
  | .msqHRead d => Sys2Proof.Machine.execMsqHRead d s
  | .drvFaultReset d => Sys2Proof.Machine.execDrvFaultReset d s
  | .drvRead d => Sys2Proof.Machine.execDrvRead d s
  | .msqDoorStep => Sys2Proof.Machine.execMsqDoorStep s
  | .commutationStep n => Sys2Proof.Machine.execCommutationStep n s
  | .doorLimiterEvaluation n => Sys2Proof.Machine.execDoorLimiterEvaluation n s
  | .quietModeEntry n => Sys2Proof.Machine.execQuietModeEntry n s
  | .homeReferenceDone n => Sys2Proof.Machine.execHomeReferenceDone n s
  | .alignDone n => Sys2Proof.Machine.execAlignDone n s
  | .doorMotionTimeout n => Sys2Proof.Machine.execDoorMotionTimeout n s
  | .camCheckComplete n slot => Sys2Proof.Machine.execCamCheckComplete n slot s
  | .msqDEnable d => Sys2Proof.Machine.execMsqDEnable d s
  | .msqDDisable d => Sys2Proof.Machine.execMsqDDisable d s
  | .msqDOpen d => Sys2Proof.Machine.execMsqDOpen d s
  | .msqDClose d => Sys2Proof.Machine.execMsqDClose d s
  | .msqDGoto d => Sys2Proof.Machine.execMsqDGoto d s
  | .msqDStop d => Sys2Proof.Machine.execMsqDStop d s
  | .msqDCamLoad d img => Sys2Proof.Machine.execMsqDCamLoad d img s
  | .msqDSineLoad d img => Sys2Proof.Machine.execMsqDSineLoad d img s
  | .msqDRead d => Sys2Proof.Machine.execMsqDRead d s
  | .msqBSet d => Sys2Proof.Machine.execMsqBSet d s
  | .framePhaseZero => Sys2Proof.Machine.execFramePhaseZero s
  | .lpeParamWrite d img => Sys2Proof.Machine.execLpeParamWrite d img s
  | .lpeCommit d => Sys2Proof.Machine.execLpeCommit d s
  | .lpeHandover d => Sys2Proof.Machine.execLpeHandover d s
  | .lpeRead d => Sys2Proof.Machine.execLpeRead d s
  | .lpeTableLoad d img => Sys2Proof.Machine.execLpeTableLoad d img s
  | .hwkEvaluation => Sys2Proof.Machine.execHwkEvaluation s
  | .hwkCocoonEvaluation => Sys2Proof.Machine.execHwkCocoonEvaluation s
  | .hwkSpeedUpdate => Sys2Proof.Machine.execHwkSpeedUpdate s
  | .hwkQ1Count a b => Sys2Proof.Machine.execHwkQ1Count a b s
  | .hwkClockCheck n => Sys2Proof.Machine.execHwkClockCheck n s
  | .hwkSpeedCauseRelease => Sys2Proof.Machine.execHwkSpeedCauseRelease s
  | .hwkParkStart => Sys2Proof.Machine.execHwkParkStart s
  | .enableTimebaseEdge => Sys2Proof.Machine.execEnableTimebaseEdge s
  | .enableReadback m d => Sys2Proof.Machine.execEnableReadback m d s
  | .hwkLock v => Sys2Proof.Machine.execHwkLock v s
  | .hwkRecordDelivery => Sys2Proof.Machine.execHwkRecordDelivery s
  | .hawkmothOscillatorStop cocoonHalf => Sys2Proof.Machine.execHawkmothOscillatorStop cocoonHalf s
  | .hwkRulesLoad d img => Sys2Proof.Machine.execHwkRulesLoad d img s
  | .hwkStatus d => Sys2Proof.Machine.execHwkStatus d s
  | .hwkRulesRead d => Sys2Proof.Machine.execHwkRulesRead d s
  | .monApplyCall => Sys2Proof.Machine.execMonApplyCall s
  | .monApplyCancel => Sys2Proof.Machine.execMonApplyCancel s
  | .monApplyCarStatus => Sys2Proof.Machine.execMonApplyCarStatus s
  | .monApplyTick => Sys2Proof.Machine.execMonApplyTick s
  | .monEvaluationComplete => Sys2Proof.Machine.execMonEvaluationComplete s
  | .monCall d => Sys2Proof.Machine.execMonCall d s
  | .monCancel d => Sys2Proof.Machine.execMonCancel d s
  | .monCarMode d => Sys2Proof.Machine.execMonCarMode d s
  | .monTripRead d => Sys2Proof.Machine.execMonTripRead d s
  | .monCarRead d => Sys2Proof.Machine.execMonCarRead d s
  | .monFttLoad d img => Sys2Proof.Machine.execMonFttLoad d img s
  | .monConfigLoad d img => Sys2Proof.Machine.execMonConfigLoad d img s
  | .monConfigCommit d => Sys2Proof.Machine.execMonConfigCommit d s
  | .monCarDoors d => Sys2Proof.Machine.execMonCarDoors d s
  | .heartbeatSend => Sys2Proof.Machine.execHeartbeatSend s
  | .heartbeatReceived => Sys2Proof.Machine.execHeartbeatReceived s
  | .eventRecordReceived => Sys2Proof.Machine.execEventRecordReceived s
  | .gapRetx n => Sys2Proof.Machine.execGapRetx n s
  | .retxReceived => Sys2Proof.Machine.execRetxReceived s
  | .grpPeerLost n => Sys2Proof.Machine.execGrpPeerLost n s
  | .flushReceived => Sys2Proof.Machine.execFlushReceived s
  | .flushWaitExpiry => Sys2Proof.Machine.execFlushWaitExpiry s
  | .epochStartReceived => Sys2Proof.Machine.execEpochStartReceived s
  | .epochStartApply => Sys2Proof.Machine.execEpochStartApply s
  | .epochStartTimeout => Sys2Proof.Machine.execEpochStartTimeout s
  | .cutTimeout => Sys2Proof.Machine.execCutTimeout s
  | .snapReceived => Sys2Proof.Machine.execSnapReceived s
  | .grpSnapshotDone => Sys2Proof.Machine.execGrpSnapshotDone s
  | .installTimeout => Sys2Proof.Machine.execInstallTimeout s
  | .groupFormation => Sys2Proof.Machine.execGroupFormation s
  | .localCommit => Sys2Proof.Machine.execLocalCommit s
  | .grpConfig d => Sys2Proof.Machine.execGrpConfig d s
  | .grpJoin d => Sys2Proof.Machine.execGrpJoin d s
  | .grpLeave d => Sys2Proof.Machine.execGrpLeave d s
  | .grpStatus d => Sys2Proof.Machine.execGrpStatus d s
  | .grpSnapshotRead d => Sys2Proof.Machine.execGrpSnapshotRead d s
  | .portLinkChange portB up full speed => Sys2Proof.Machine.execPortLinkChange portB up full speed s
  | .portRecovery portB => Sys2Proof.Machine.execPortRecovery portB s
  | .groupFrameCopyReceived portB fcsOk bytes => Sys2Proof.Machine.execGroupFrameCopyReceived portB fcsOk bytes s
  | .skewWindowClose n => Sys2Proof.Machine.execSkewWindowClose n s
  | .senderForget n => Sys2Proof.Machine.execSenderForget n s
  | .ptpMessageReceived portB domain seq twoStep body sfd => Sys2Proof.Machine.execPtpMessageReceived portB domain seq twoStep body sfd s
  | .ptpSyncSend => Sys2Proof.Machine.execPtpSyncSend s
  | .hostFrameReceived portB bytes sfd => Sys2Proof.Machine.execHostFrameReceived portB bytes sfd s
  | .hostFrameStart => Sys2Proof.Machine.execHostFrameStart s
  | .canFrameReceived n f t rec => Sys2Proof.Machine.execCanFrameReceived n f t rec s
  | .canTxAttemptEnd n ok tec rec => Sys2Proof.Machine.execCanTxAttemptEnd n ok tec rec s
  | .canBusoffRecovery n => Sys2Proof.Machine.execCanBusoffRecovery n s
  | .spiPeriod m => Sys2Proof.Machine.execSpiPeriod m s
  | .spiTransactionsComplete m bytes => Sys2Proof.Machine.execSpiTransactionsComplete m bytes s
  | .stlCfgWrite v => Sys2Proof.Machine.execStlCfgWrite v s
  | .canCfgWrite n v => Sys2Proof.Machine.execCanCfgWrite n v s
  | .spiCfgWrite m v => Sys2Proof.Machine.execSpiCfgWrite m v s
  | .stlTx d frame => Sys2Proof.Machine.execStlTx d frame s
  | .stlRx d => Sys2Proof.Machine.execStlRx d s
  | .stlStatus d => Sys2Proof.Machine.execStlStatus d s
  | .canTx d img => Sys2Proof.Machine.execCanTx d img s
  | .canRx d => Sys2Proof.Machine.execCanRx d s
  | .canRecover d => Sys2Proof.Machine.execCanRecover d s
  | .spiProg d img => Sys2Proof.Machine.execSpiProg d img s
  | .spiRead d => Sys2Proof.Machine.execSpiRead d s
  | .dutyRelease id => Sys2Proof.Machine.execDutyRelease id s
  | .arbiterCopyCommit => Sys2Proof.Machine.execArbiterCopyCommit s
  | .dutyDeadline id => Sys2Proof.Machine.execDutyDeadline id s
  | .reexecutionComplete id out state => Sys2Proof.Machine.execReexecutionComplete id out state s
  | .engFault e cause addr => Sys2Proof.Machine.execEngFault e cause addr s
  | .tlgOverrun e level => Sys2Proof.Machine.execTlgOverrun e level s
  | .clusterUpComplete c => Sys2Proof.Machine.execClusterUpComplete c s
  | .engStatus d => Sys2Proof.Machine.execEngStatus d s
  | .engClusterDown d => Sys2Proof.Machine.execEngClusterDown d s
  | .engClusterUp d => Sys2Proof.Machine.execEngClusterUp d s
  | .engRestart d test => Sys2Proof.Machine.execEngRestart d test s
  | .vNop e => Sys2Proof.Machine.execVNop e s
  | .vLoop e k len n => Sys2Proof.Machine.execVLoop e k len n s
  | .vEnd e => Sys2Proof.Machine.execVEnd e s
  | .vLdi e d imm => Sys2Proof.Machine.execVLdi e d imm s
  | .vLdih e d imm => Sys2Proof.Machine.execVLdih e d imm s
  | .vLda e c j rel imm => Sys2Proof.Machine.execVLda e c j rel imm s
  | .vMva e c j toD d => Sys2Proof.Machine.execVMva e c j toD d s
  | .vMov e d x => Sys2Proof.Machine.execVMov e d x s
  | .vSel e d x t cond => Sys2Proof.Machine.execVSel e d x t cond s
  | .vLd e d am => Sys2Proof.Machine.execVLd e d am s
  | .vSt e d am => Sys2Proof.Machine.execVSt e d am s
  | .vLd2 e d d2 am1 am2 => Sys2Proof.Machine.execVLd2 e d d2 am1 am2 s
  | .vSta e a r am => Sys2Proof.Machine.execVSta e a r am s
  | .vAdd e d x t sat => Sys2Proof.Machine.execVAdd e d x t sat s
  | .vSub e d x t sat => Sys2Proof.Machine.execVSub e d x t sat s
  | .vNeg e d x sat => Sys2Proof.Machine.execVNeg e d x sat s
  | .vAbs e d x sat => Sys2Proof.Machine.execVAbs e d x sat s
  | .vAnd e d x t => Sys2Proof.Machine.execVAnd e d x t s
  | .vOr e d x t => Sys2Proof.Machine.execVOr e d x t s
  | .vXor e d x t => Sys2Proof.Machine.execVXor e d x t s
  | .vShl e d x sat k => Sys2Proof.Machine.execVShl e d x sat k s
  | .vShr e d x k => Sys2Proof.Machine.execVShr e d x k s
  | .vCmp e x t => Sys2Proof.Machine.execVCmp e x t s
  | .vMin e d x t => Sys2Proof.Machine.execVMin e d x t s
  | .vMax e d x t => Sys2Proof.Machine.execVMax e d x t s
  | .vAddi e d x sat imm => Sys2Proof.Machine.execVAddi e d x sat imm s
  | .vMac e a sub clr x t => Sys2Proof.Machine.execVMac e a sub clr x t s
  | .vMac2 e a sub clr x t u v => Sys2Proof.Machine.execVMac2 e a sub clr x t u v s
  | .vDmac e a b x t u v subA subB => Sys2Proof.Machine.execVDmac e a b x t u v subA subB s
  | .vMacm e a sub clr x am => Sys2Proof.Machine.execVMacm e a sub clr x am s
  | .vTapx e a sub move pc pd dm dk xm dir => Sys2Proof.Machine.execVTapx e a sub move pc pd dm dk xm dir s
  | .vAdda e a b sub => Sys2Proof.Machine.execVAdda e a b sub s
  | .vAccld e a x pos => Sys2Proof.Machine.execVAccld e a x pos s
  | .vAsh e a k => Sys2Proof.Machine.execVAsh e a k s
  | .vRda e a r view d => Sys2Proof.Machine.execVRda e a r view d s
  | .vRdesr e d => Sys2Proof.Machine.execVRdesr e d s
  | .vWresr e clear mask val => Sys2Proof.Machine.execVWresr e clear mask val s
  | .krnLoad d img => Sys2Proof.Machine.execKrnLoad d img s
  | .krnUnload d => Sys2Proof.Machine.execKrnUnload d s
  | .krnRead d => Sys2Proof.Machine.execKrnRead d s
  | .ledgerAnalysisComplete => Sys2Proof.Machine.execLedgerAnalysisComplete s
  | .tlgCommit => Sys2Proof.Machine.execTlgCommit s
  | .tlgConfig d img => Sys2Proof.Machine.execTlgConfig d img s
  | .tlgCheck d img => Sys2Proof.Machine.execTlgCheck d img s
  | .tlgRead d => Sys2Proof.Machine.execTlgRead d s
  | .tlgMigrate d => Sys2Proof.Machine.execTlgMigrate d s
  | .tlgList d => Sys2Proof.Machine.execTlgList d s
  | .descriptorDispatch heads => Sys2Proof.Machine.execDescriptorDispatch heads s
  | .sqTail q v => Sys2Proof.Machine.execSqTail q v s
  | .cqHead q v => Sys2Proof.Machine.execCqHead q v s
  | .eqHead q v => Sys2Proof.Machine.execEqHead q v s
  | .msixModerationTimeout v => Sys2Proof.Machine.execMsixModerationTimeout v s
  | .msixUnmask v addr data => Sys2Proof.Machine.execMsixUnmask v addr data s
  | .hiuCreditRelease q => Sys2Proof.Machine.execHiuCreditRelease q s
  | .hiuAqCtrlWrite v queued => Sys2Proof.Machine.execHiuAqCtrlWrite v queued s
  | .qpDrainComplete q => Sys2Proof.Machine.execQpDrainComplete q s
  | .hostSideReset => Sys2Proof.Machine.execHostSideReset s
  | .hiuLink up width rate => Sys2Proof.Machine.execHiuLink up width rate s
  | .pcieDStateChange d3hot => Sys2Proof.Machine.execPcieDStateChange d3hot s
  | .hiuHello d => Sys2Proof.Machine.execHiuHello d s
  | .hiuIdentify d => Sys2Proof.Machine.execHiuIdentify d s
  | .hiuQpConfig d => Sys2Proof.Machine.execHiuQpConfig d s
  | .hiuQpEnable d => Sys2Proof.Machine.execHiuQpEnable d s
  | .hiuQpDisable d queued => Sys2Proof.Machine.execHiuQpDisable d queued s
  | .hiuAbort d queued => Sys2Proof.Machine.execHiuAbort d queued s
  | .hiuQpStatus d => Sys2Proof.Machine.execHiuQpStatus d s
  | .fieldInputSample n mv10 watch ilim => Sys2Proof.Machine.execFieldInputSample n mv10 watch ilim s
  | .outputThermalShutdown n ma => Sys2Proof.Machine.execOutputThermalShutdown n ma s
  | .groupOvercurrent g ma => Sys2Proof.Machine.execGroupOvercurrent g ma s
  | .channelTurningEnd n => Sys2Proof.Machine.execChannelTurningEnd n s
  | .cocWatchdog => Sys2Proof.Machine.execCocWatchdog s
  | .vfieldMeasurement mv10 => Sys2Proof.Machine.execVfieldMeasurement mv10 s
  | .bridgeSupplyMeasurement vbridge vgate boot => Sys2Proof.Machine.execBridgeSupplyMeasurement vbridge vgate boot s
  | .cocoonPowerLoss => Sys2Proof.Machine.execCocoonPowerLoss s
  | .cocoonStart => Sys2Proof.Machine.execCocoonStart s
  | .cocCalib item object => Sys2Proof.Machine.execCocCalib item object s
  | .tapSample j ua => Sys2Proof.Machine.execTapSample j ua s
  | .tapDcWindowEnd j => Sys2Proof.Machine.execTapDcWindowEnd j s
  | .tapAcTimeout j => Sys2Proof.Machine.execTapAcTimeout j s
  | .currentCellDecision b own => Sys2Proof.Machine.execCurrentCellDecision b own s
  | .blindPhaseTimeout b => Sys2Proof.Machine.execBlindPhaseTimeout b s
  | .linkSlotStart own temp => Sys2Proof.Machine.execLinkSlotStart own temp s
  | .cocoonDownstreamFrameAccepted => Sys2Proof.Machine.execCocoonDownstreamFrameAccepted s
  | .cocoonUpstreamFrameAccepted => Sys2Proof.Machine.execCocoonUpstreamFrameAccepted s
  | .linkSlotMissed cocoon => Sys2Proof.Machine.execLinkSlotMissed cocoon s
  | .linkTrainingStart => Sys2Proof.Machine.execLinkTrainingStart s
  | .linkTrainingComplete => Sys2Proof.Machine.execLinkTrainingComplete s
  | .cocChConfig d => Sys2Proof.Machine.execCocChConfig d s
  | .cocOutSet d => Sys2Proof.Machine.execCocOutSet d s
  | .cocClear d => Sys2Proof.Machine.execCocClear d s
  | .cocRelease d => Sys2Proof.Machine.execCocRelease d s
  | .cocRead d => Sys2Proof.Machine.execCocRead d s
  | .porstNLow => Sys2Proof.Machine.execPorstNLow s
  | .porstNRelease fuseOk corrected => Sys2Proof.Machine.execPorstNRelease fuseOk corrected s
  | .supplyReset j => Sys2Proof.Machine.execSupplyReset j s
  | .supplyMonitorRelease j fuseOk corrected => Sys2Proof.Machine.execSupplyMonitorRelease j fuseOk corrected s
  | .pmuPowerFail pfLow vddLow vdd => Sys2Proof.Machine.execPmuPowerFail pfLow vddLow vdd s
  | .pmuPowerOk vdd => Sys2Proof.Machine.execPmuPowerOk vdd s
  | .pllLockLost => Sys2Proof.Machine.execPllLockLost s
  | .pllRelockRelease fuseOk corrected => Sys2Proof.Machine.execPllRelockRelease fuseOk corrected s
  | .rootPllLock => Sys2Proof.Machine.execRootPllLock s
  | .powerTargetChange => Sys2Proof.Machine.execPowerTargetChange s
  | .powerEntryDelayExpiry k => Sys2Proof.Machine.execPowerEntryDelayExpiry k s
  | .powerStateEntry => Sys2Proof.Machine.execPowerStateEntry s
  | .pmuState => Sys2Proof.Machine.execPmuState s
  | .pmuWake source object => Sys2Proof.Machine.execPmuWake source object s
  | .pmuTimerExpiry => Sys2Proof.Machine.execPmuTimerExpiry s
  | .firmwareLoadComplete okA okB pkg => Sys2Proof.Machine.execFirmwareLoadComplete okA okB pkg s
  | .devReady => Sys2Proof.Machine.execDevReady s
  | .pmuReset d => Sys2Proof.Machine.execPmuReset d s
  | .pmuResetDelayExpiry fuseOk corrected => Sys2Proof.Machine.execPmuResetDelayExpiry fuseOk corrected s
  | .pmuStatus d => Sys2Proof.Machine.execPmuStatus d s
  | .chrMount corrected uncorr badA badB => Sys2Proof.Machine.execChrMount corrected uncorr badA badB s
  | .chrPeriodExpiry => Sys2Proof.Machine.execChrPeriodExpiry s
  | .chrCommitted => Sys2Proof.Machine.execChrCommitted s
  | .updActivated => Sys2Proof.Machine.execUpdActivated s
  | .trialTimeout t => Sys2Proof.Machine.execTrialTimeout t s
  | .chrRead d => Sys2Proof.Machine.execChrRead d s
  | .chrCommit d => Sys2Proof.Machine.execChrCommit d s
  | .updWrite d img => Sys2Proof.Machine.execUpdWrite d img s
  | .updVerify d sigOk => Sys2Proof.Machine.execUpdVerify d sigOk s
  | .updActivate d => Sys2Proof.Machine.execUpdActivate d s
  | .updConfirm d => Sys2Proof.Machine.execUpdConfirm d s
  | .updRollback d => Sys2Proof.Machine.execUpdRollback d s

end Sys2Proof.Machine
end

