-- ==== Sys2Proof/Machine/Tick.lean ====
section
/-! DEFINITION. The passage of one nanosecond, which is what the block does on an empty queue (log entry 1): the
model's own time and device time count, and with device time the uptime and the timed histograms (17 R384,
18 R399, R400). -/
namespace Sys2Proof.Machine

/-- The histogram duty runs while the working record is mounted and a cluster is up. -/
def Dev.histograms (s : Dev) : Bool := s.chry.mounted && s.eng.pwr % 16 != 0

/-- Every 100 ms of movement: the speed histogram. -/
def Dev.countSpeed (s : Dev) : Dev :=
  if s.cpf.v ≠ 0 then s.chrInc 10 (32 + histBin s.cpf.v.natAbs 0 (s.fld Reg.msqHvmax 31 0 / 32 : Nat)) else s

/-- Every minute: the temperature histograms; the temperature of the logic die is an open value (log entry 37). -/
def Dev.countTemps (s : Dev) : Dev :=
  let t := wrapS 8 s.free
  let s := s.drawn.chrInc 10 (64 + histBin t (-40) 5)
  s.chrInc 10 (96 + histBin (wrapS 8 (bitsOf s.cocVmon2Word 23 16)) (-40) 5)

/-- The clocks count one nanosecond: of device time while it counts. The root clock's nanoseconds go with it at the rate
correction in force, in ppm of device time over root time (11 R263), and one for one while device time stands. -/
def Dev.countNs (s : Dev) : Dev :=
  if s.pmu.locked && s.pmu.held == 0 then
    let one := (1000000 + s.stl.rate).toNat
    let part := s.timePart + 1000000
    let s := { s with time := s.time + part / max 1 one, timePart := part % max 1 one }
    let s := { s with dt := (s.dt + 1) % 2 ^ 64 }
    let s := if s.dt % 1000000000 = 0 then s.chrInc 1 9 else s
    let s := if s.histograms && s.dt % 100000000 == 0 then s.countSpeed else s
    if s.histograms && s.dt % 60000000000 == 0 then s.countTemps else s
  else { s with time := s.time + 1 }

/-- While a cluster has power an error of one bit may be corrected in any nanosecond: in instruction or data memory, or in
the low or high shared bank. What was read and written back is right, and the correction counts; when one happens is
open (12 R276, log entry 34). -/
def Dev.eccTick (s : Dev) : Dev :=
  if s.eng.pwr % 16 = 0 then s
  else
    let n := s.free % 8
    let s := s.drawn
    if n < 4 then ({ s with eng := { s.eng with corr := satInc 16 s.eng.corr } }).chrInc 9 (85 + n) else s

/-- One nanosecond passes, with the corrections that fall in it, and Swallowtail's messages of a second are sent when it
is due (11 R262). -/
def Dev.nanosecond (s : Dev) : Dev := s.countNs.eccTick.ptpTick

end Sys2Proof.Machine
end

