-- ==== Sys2Proof/Safety.lean ====
section
/-! DEFINITION. The words the statements use: a state with another block, a run that ends in a state, a block that
never stops. -/
namespace Sys2Proof

/-- `s` with the block `t`; the queue stays. -/
abbrev Machine.State.withDev (s : Machine.State) (t : Machine.Dev) : Machine.State := { s with dev := t }

/-- A run of `k` steps from `s` ends in a state: no step on the way stops. -/
def Runs (k : Nat) (s : Machine.State) : Prop := ∃ t, core.run k s = .next t

/-- From `s` the block never stops, whatever waits in its queue. -/
def Safe (s : Machine.State) : Prop := ∀ k, Runs k s

end Sys2Proof
end

