-- ==== Sys2Proof/Laws/Answer.lean ====
section
/-! SUPPORT. What answering a command comes to: the gates of the power domains and of BAR0 (01 R9, 15 R330). -/
namespace Sys2Proof.Machine

/-- Answering changes the block by the function given. -/
theorem State.upd_eq (s : State) (f : Dev → Dev) : s.upd f = .next (s.withDev (f s.dev)) := rfl

/-- A block that is on takes its command. -/
theorem whenOn_on {pd : Nat} {s : Dev} (h : s.powered pd = true) (f : Dev → Dev) : whenOn pd f s = f s := by
  simp [whenOn, h]

/-- A block that is off does nothing (01 R9). -/
theorem whenOn_off {pd : Nat} {s : Dev} (h : s.powered pd = false) (f : Dev → Dev) : whenOn pd f s = s := by
  simp [whenOn, h]

theorem State.upd_on {pd : Nat} {s : State} (h : s.dev.powered pd = true) (f : Dev → Dev) :
    s.upd (whenOn pd f) = .next (s.withDev (f s.dev)) := by
  rw [State.upd_eq, whenOn_on h]

theorem State.upd_off {pd : Nat} {s : State} (h : s.dev.powered pd = false) (f : Dev → Dev) :
    s.upd (whenOn pd f) = .next s := by
  rw [State.upd_eq, whenOn_off h]

/-- BAR0 answers while PD7 is on and the function is in D0. -/
theorem State.upd_bar {s : State} (h : s.dev.powered 7 = true) (h0 : s.dev.hiu.d3hot = false) (f : Dev → Dev) :
    s.upd (whenBar f) = .next (s.withDev (f s.dev)) := by
  simp [State.upd_eq, whenBar, h, h0]

/-- CPF answers while its domain is on and a copy of it runs (04 R61). -/
theorem State.upd_cpf {s : State} (h : s.dev.powered 6 = true) (h0 : s.dev.cpfRuns = true) (f : Dev → Dev) :
    s.upd (whenCpf f) = .next (s.withDev (f s.dev)) := by
  simp [State.upd_eq, whenCpf, h, h0]

/-- Group replication answers while Monarch's domain is on and an engine runs its duties (01 R9). -/
theorem State.upd_grp {s : State} (h : s.dev.powered 5 = true) (h0 : s.dev.grpRuns = true) (f : Dev → Dev) :
    s.upd (whenGrp f) = .next (s.withDev (f s.dev)) := by
  simp [State.upd_eq, whenGrp, h, h0]

/-- A charge touches only the credit spent (15 R335). -/
theorem Dev.charge_powered (s : Dev) (q n pd : Nat) : (s.charge q n).powered pd = s.powered pd := by
  unfold Dev.charge
  split <;> rfl

theorem Dev.charge_cpfRuns (s : Dev) (q n : Nat) : (s.charge q n).cpfRuns = s.cpfRuns := by
  unfold Dev.charge
  split <;> rfl

/-- A command of a dispatched descriptor acts (15 R334). -/
theorem State.cmd_sent {s : State} {d : Desc} (hs : s.dev.isInFlight d = true) (f : Dev → Dev) : s.cmd d f = s.upd f := by
  simp [State.cmd, State.upd, whenSent, hs]

/-- One of a descriptor that is not dispatched, or has completed, does nothing. -/
theorem State.cmd_unsent {s : State} {d : Desc} (hs : s.dev.isInFlight d = false) (f : Dev → Dev) : s.cmd d f = .next s := by
  simp [State.cmd, State.upd, whenSent, hs]

theorem State.cmd_on {pd : Nat} {s : State} (h : s.dev.powered pd = true) {d : Desc} (hs : s.dev.isInFlight d = true)
    (f : Dev → Dev) : s.cmd d (whenOn pd f) = .next (s.withDev (f s.dev)) := by
  rw [State.cmd_sent hs, State.upd_on h]

theorem State.cmd_cpf {s : State} (h : s.dev.powered 6 = true) (h0 : s.dev.cpfRuns = true) {d : Desc}
    (hs : s.dev.isInFlight d = true) (f : Dev → Dev) : s.cmd d (whenCpf f) = .next (s.withDev (f s.dev)) := by
  rw [State.cmd_sent hs, State.upd_cpf h h0]

theorem State.cmd_grp {s : State} (h : s.dev.powered 5 = true) (h0 : s.dev.grpRuns = true) {d : Desc}
    (hs : s.dev.isInFlight d = true) (f : Dev → Dev) : s.cmd d (whenGrp f) = .next (s.withDev (f s.dev)) := by
  rw [State.cmd_sent hs, State.upd_grp h h0]

/-- A command that reads host memory while DMA runs is charged for it, then answered. -/
theorem State.updIn_sent {s : State} {d : Desc} (hs : s.dev.isInFlight d = true) (hd : s.dev.reads d = true)
    (img : HostBytes) (f : Dev → Dev) : s.updIn d img f = .next (s.withDev (f (s.dev.charge d.qp img.length))) := by
  rw [State.updIn, State.cmd_sent hs, State.upd_eq, if_pos hd]

theorem State.updIn_on {pd : Nat} {s : State} (h : s.dev.powered pd = true) {d : Desc} (hs : s.dev.isInFlight d = true)
    (hd : s.dev.reads d = true) (img : HostBytes) (f : Dev → Dev) :
    s.updIn d img (whenOn pd f) = .next (s.withDev (f (s.dev.charge d.qp img.length))) := by
  rw [State.updIn_sent hs hd, whenOn_on ((Dev.charge_powered ..).trans h)]

/-- The same of a command of CPF. -/
theorem State.updIn_cpf {s : State} (h : s.dev.powered 6 = true) (h0 : s.dev.cpfRuns = true) {d : Desc}
    (hs : s.dev.isInFlight d = true) (hd : s.dev.reads d = true) (img : HostBytes) (f : Dev → Dev) :
    s.updIn d img (whenCpf f) = .next (s.withDev (f (s.dev.charge d.qp img.length))) := by
  rw [State.updIn_sent hs hd]
  simp [whenCpf, Dev.charge_powered, Dev.charge_cpfRuns, h, h0]

end Sys2Proof.Machine
end

