-- ==== Sys2Proof/Laws/Bytes.lean ====
section
/-! SUPPORT. Little-endian bytes: what is written into an image reads back from it. -/
namespace Sys2Proof.Machine

@[simp] theorem leBytes_length (n v : Nat) : (leBytes n v).length = n := by
  induction n generalizing v with
  | zero => rfl
  | succ n ih => simp [leBytes, ih]

/-- The number of the n bytes of v is v modulo 256 ^ n. -/
theorem leNat_leBytes (n v : Nat) : leNat (leBytes n v) = v % 256 ^ n := by
  induction n generalizing v with
  | zero => simp [leBytes, leNat, Nat.mod_one]
  | succ n ih =>
    simp only [leBytes, leNat, ih, BitVec.toNat_ofNat, Nat.pow_succ']
    have := Nat.mod_mul (x := v) (a := 256) (b := 256 ^ n)
    omega

/-- A field placed after `h` reads back at the place where `h` ends. -/
theorem leAt_field (h t : List Byte) (n v : Nat) : leAt (h ++ (leBytes n v ++ t)) h.length n = v % 256 ^ n := by
  unfold leAt
  rw [List.drop_left, List.take_append_of_le_length (by simp)]
  rw [List.take_of_length_le (by simp), leNat_leBytes]

/-- A 32-bit word placed after `h` reads back whole. -/
theorem leAt_word (h t : List Byte) (w : BitVec 32) : leAt (h ++ (leBytes 4 w.toNat ++ t)) h.length 4 = w.toNat := by
  rw [leAt_field]
  exact Nat.mod_eq_of_lt w.isLt

end Sys2Proof.Machine
end

