-- ==== Sys2Proof/Certificates/Slice0/Obligations.lean ====
section
/-! DEFINITION. The statements for the provers. Each says what rows of the table do, from the numbered rules of spec/;
`exec c s = .next t` in a conclusion says that the command completes with exactly that effect: every part of the block
that `t` does not name keeps its value, and the queue of waiting commands is the one it was. -/
open Sys2Proof Sys2Proof.Machine

/-- COUNT (03 R34, R35, R43): the sample that completes FILT + 1 of new levels of an enabled channel, one quadrature
step from the accepted ones, moves the raw counter by one, up exactly when the step is forward and INV is 0 or
backward and INV is 1; the accepted levels and t_edge follow. -/
def Obligations.CountMovesRawByOne : Prop :=
  ∀ (n : Fin 8) (a b : Bool) (s : State), s.dev.powered 6 = true → s.dev.qEnabled n = true →
    quadStep (s.dev.chan n).qa (s.dev.chan n).qb a b ≠ 0 →
    ((s.dev.chan n).qa ≠ a → s.dev.filt n ≤ (s.dev.chan n).runA + 1) →
    ((s.dev.chan n).qb ≠ b → s.dev.filt n ≤ (s.dev.chan n).runB + 1) →
    ∃ t, exec (.count n a b) s = .next t ∧ t.pending = s.pending ∧
      (t.dev.chan n).qa = a ∧ (t.dev.chan n).qb = b ∧ (t.dev.chan n).tEdge = s.dev.dt ∧
      (t.dev.chan n).raw =
        (if (quadStep (s.dev.chan n).qa (s.dev.chan n).qb a b == 1) != s.dev.bit (Reg.pfiQcfg n) 1
         then (s.dev.chan n).raw + 1 else (s.dev.chan n).raw - 1)

/-- COUNT (03 R34, R48): accepted levels that both change are undetermined: PHASE_ERR is set, its Chrysalis counter
counts, the event comes at the first only, and the counter stays; only the levels of the channel change with them.
Where the spec leaves a reading open, the model's choice is that of log entry 8. -/
def Obligations.CountUndetermined : Prop :=
  ∀ (n : Fin 8) (a b : Bool) (s : State), s.dev.powered 6 = true → s.dev.qEnabled n = true →
    (s.dev.chan n).qa ≠ a → (s.dev.chan n).qb ≠ b →
    s.dev.filt n ≤ (s.dev.chan n).runA + 1 → s.dev.filt n ≤ (s.dev.chan n).runB + 1 →
    ∃ t, exec (.count n a b) s = .next t ∧ t.pending = s.pending ∧
      t.dev.bit (Reg.pfiQstat n) 0 = true ∧
      t.dev.chan n = { s.dev.chan n with qa := a, qb := b, pinA := a, pinB := b, runA := 0, runB := 0 } ∧
      (∀ m : Nat, m ≠ n → t.dev.chan m = s.dev.chan m) ∧ t.dev.pfi.slots = s.dev.pfi.slots

/-- The channel events of the Position Feedback Interface complete with their own effect (03 R39, R45, R46, R56):
INDEX_GOES_ACTIVE and INDEX_CHECK at the sample that the filter accepts, ZERO_SPEED_TIMEOUT at ZTO, and
SSI_FRAME_COMPLETE of a good read. PFI_QCFG_WRITE and PFI_SCFG_WRITE take effect on a channel with EN = 0 and a value
with EN = 0 and fields in range (03 R41, R55, R57): the writable bits take the value and nothing else changes but the
estimator mode that ESTFORCE leaves and, for an SSI channel, a read in progress. The PFI commands on an enabled Q
channel, and PFI_READ and PFI_CLEAR on an enabled SSI channel, act at the effect edge of their dispatch and complete
DONE with it, with the words of Table 3-9 (03 R59): PFI_READ (p, speed and t_edge), PFI_SET_POS (u becomes word 3,
every armed slot is judged anew), PFI_CMP_ARM, PFI_CMP_DISARM, PFI_CLEAR (the W1C bits of the mask), and PFI_LATCH.
Where the spec leaves a reading open, the model's choice is that of log entry 8. -/
def Obligations.PfiRowsComplete : Prop :=
  ((∀ (n : Fin 8) (z : Bool) (s : State), s.dev.powered 6 = true → z = s.dev.idxLevel n →
    (s.dev.chan n).qz ≠ z → s.dev.filt n ≤ (s.dev.chan n).runZ + 1 → (s.dev.chan n).idxActive = false →
    ∀ c, c = { s.dev.chan n with pinZ := z, qz := z, runZ := 0 } →
    exec (.indexGoesActive n) s = .next (s.withDev (s.dev.ptPins ((s.dev.setChan n c).setChan n
      { c with idxActive := true, idxTaken := s.dev.qEnabled n, idxX := (s.dev.chan n).u })))) ∧
  (∀ (n : Fin 8) (z : Bool) (s : State), s.dev.powered 6 = true → z = !s.dev.idxLevel n →
    (s.dev.chan n).qz ≠ z → s.dev.filt n ≤ (s.dev.chan n).runZ + 1 → (s.dev.chan n).idxActive = true →
    exec (.indexCheck n) s = .next (s.withDev ((s.dev.ptPins (s.dev.setChan n
      { s.dev.chan n with pinZ := z, qz := z, runZ := 0 })).indexOff n))) ∧
  (∀ (n : Fin 8) (s : State) (e : Nat × BitVec 48) (l : List (Nat × BitVec 48)), s.dev.powered 6 = true →
    (s.dev.chan n).edges = e :: l → s.dev.qEnabled n = true →
    s.dev.fld (Reg.pfiQest n) 15 8 * 1000000 ≤ s.dev.dt - e.1 →
    exec (.zeroSpeedTimeout n) s = .next (s.withDev (s.dev.setChan n { s.dev.chan n with timedOut := true }))) ∧
  (∀ (m : Fin 2) (idle start par : Bool) (pos stat ts : Nat) (s : State), s.dev.powered 6 = true →
    (s.dev.ssi m).reading = some ts → s.dev.ssiFailure m idle start pos stat par = none → (s.dev.ssi m).fail = false →
    exec (.ssiFrameComplete m idle start pos stat par) s = .next (s.withDev (s.dev.setSsi m
      { s.dev.ssi m with
        reading := none, prevRead := some (s.dev.ssiValue m pos), fails := 0, goods := (s.dev.ssi m).goods + 1,
        recent := (⟨s.dev.ssiValue m pos, ts⟩ :: (s.dev.ssi m).recent).take 8,
        prevGood := (s.dev.ssi m).good, good := some ⟨s.dev.ssiValue m pos, ts⟩, fail := false, stale := false })))) ∧
  ((∀ (n : Fin 8) (v : Word) (s : State), s.dev.powered 7 = true → s.dev.hiu.d3hot = false → (n : Nat) < s.dev.quads →
    s.dev.bit (Reg.pfiQcfg n) 0 = false → bitOf v 0 = false →
    bitsOf (writeBits (s.dev.reg (Reg.pfiQcfg n)) v 0x3F1FF7 0) 19 16 ≠ 0 →
    exec (.pfiQcfgWrite n v) s = .next (s.withDev (((s.dev.settleMode n).setReg (Reg.pfiQcfg n)
      (writeBits (s.dev.reg (Reg.pfiQcfg n)) v 0x3F1FF7 0)).settleMode n))) ∧
  (∀ (m : Fin 2) (v : Word) (s : State), s.dev.powered 7 = true → s.dev.hiu.d3hot = false → (m : Nat) < s.dev.ssis →
    s.dev.bit (Reg.pfiScfg m) 0 = false → bitOf v 0 = false →
    bitOf (writeBits (s.dev.reg (Reg.pfiScfg m)) v 0x3F1F03 0) 0 = false →
    7 ≤ bitsOf (writeBits (s.dev.reg (Reg.pfiScfg m)) v 0x3F1F03 0) 12 8 →
    bitsOf (writeBits (s.dev.reg (Reg.pfiScfg m)) v 0x3F1F03 0) 19 16 ≤ 4 →
    exec (.pfiScfgWrite m v) s = .next (s.withDev ((s.dev.setReg (Reg.pfiScfg m) (writeBits (s.dev.reg (Reg.pfiScfg m)) v 0x3F1F03 0)).setSsi m
        { (s.dev.setReg (Reg.pfiScfg m) (writeBits (s.dev.reg (Reg.pfiScfg m)) v 0x3F1F03 0)).ssi m with
          reading := none })))) ∧
  (∀ (d : Desc) (s : State), s.dev.powered 6 = true → s.dev.isInFlight d = true → s.dev.pfiEdge d ≤ s.dev.dt →
    (s.dev.pfiCheck d true = none → s.dev.pfiCheck d false = none → pfiCh d < 8 →
      exec (.pfiRead d) s = .next (s.withDev (s.dev.complete d .done (s.dev.pfiEdge d)
        [wordI (s.dev.pos (pfiCh d)), wordI (s.dev.chan (pfiCh d)).speed, lo64 (s.dev.chan (pfiCh d)).tEdge,
         hi64 (s.dev.chan (pfiCh d)).tEdge])) ∧
      exec (.pfiSetPos d) s = .next (s.withDev
        ((((s.dev.setChan (pfiCh d) { s.dev.chan (pfiCh d) with
            offset := sWord (d.w 3) - (s.dev.chan (pfiCh d)).raw.toInt,
            idxX := if (s.dev.chan (pfiCh d)).idxActive then min (s.dev.chan (pfiCh d)).idxX (sWord (d.w 3))
              else (s.dev.chan (pfiCh d)).idxX }).rejudge (pfiCh d) (s.dev.pfiEdge d)).limitEvents
            (pfiCh d) (s.dev.limLo (pfiCh d)) (s.dev.limHi (pfiCh d)) (s.dev.pfiEdge d)).complete d .done (s.dev.pfiEdge d) [])) ∧
      (∀ x, x = s.dev.slot (pfiCh d) (pfiSlot d) → pfiSlot d < slotCount (pfiCh d) →
        exec (.pfiCmpDisarm d) s = .next (s.withDev ((s.dev.setSlot (pfiCh d) (pfiSlot d) .reset).complete d .done (s.dev.pfiEdge d)
            [wordN (if x.armed then 0 else if x.fired then 2 else 1)]))) ∧
      exec (.pfiClear d) s = .next (s.withDev ((s.dev.setReg (Reg.pfiQstat (pfiCh d))
          (writeBits (s.dev.reg (Reg.pfiQstat (pfiCh d))) (d.w 3) 0 0x143)).complete d .done (s.dev.pfiEdge d) [])) ∧
      (s.dev.maskAbsent (bitsOf (d.w 4) 25 16) = false → pfiSlot d < slotCount (pfiCh d) → bitsOf (d.w 4) 1 0 ≠ 3 →
        Nat.land (d.w 4).toNat 0xFC00F080 = 0 → s.dev.armReserved d = false → (s.dev.chan (pfiCh d)).dirNeg = false →
        (s.dev.chan (pfiCh d)).u < sWord (d.w 3) →
        exec (.pfiCmpArm d) s = .next (s.withDev ((s.dev.setSlot (pfiCh d) (pfiSlot d) (armSlot d)).complete d .done (s.dev.pfiEdge d)
            [0, wordI (s.dev.chan (pfiCh d)).u])))) ∧
    (∀ (m : Fin 2) v y, pfiCh d = 0x10 + m → s.dev.pfiCheck d false = none → s.dev.ssiSpeed m = (v, y) →
      exec (.pfiRead d) s = .next (s.withDev (y.complete d .done (y.pfiEdge d)
        [wordI ((y.ssi m).good.getD ⟨0, 0⟩).pos, wordI v, lo64 ((y.ssi m).good.getD ⟨0, 0⟩).at_,
         hi64 ((y.ssi m).good.getD ⟨0, 0⟩).at_])) ∧
      exec (.pfiClear d) s = .next (s.withDev ((s.dev.setReg (Reg.pfiSstat m)
          (writeBits (s.dev.reg (Reg.pfiSstat m)) (d.w 3) 0 0x9)).complete d .done (s.dev.pfiEdge d) []))) ∧
    (s.dev.maskAbsent (bitsOf (d.w 3) 9 0) = false → d.object = 0 → bitsOf (d.w 3) 31 10 = 0 →
      exec (.pfiLatch d) s = .next (s.withDev
        ((s.dev.latch (bitsOf (d.w 3) 9 0) (s.dev.pfiEdge d)).complete d .done (s.dev.pfiEdge d) []))))

/-- CPF_PERIOD (04 R64-R76, R86): with no command waiting, no run and no zone edge, the setup values come into force,
and the period computes the tracks, judges their health and votes, estimates the position, reports the edges it
missed, moves the state, counts readmission, and publishes the estimate with the instant t_k, in that order. Where the
spec leaves a reading open, the model's choice is that of log entry 9. -/
def Obligations.CpfPeriodRuns : Prop :=
  ∀ (s : State) (t w : Dev) (v : Vote) (f : PeriodFlags), s.dev.powered 6 = true → s.dev.cpfRuns = true →
    s.dev.cpfEnabled = true → s.dev.cpf.waitLoad = [] → s.dev.cpf.waitCommit = [] → s.dev.cpf.waitCorrect = [] →
    s.dev.forceCpf.computeTracks.periodVote = (t, v) → t.cpf.zoneEdges = [] →
    t.estimate.cpf.run = none → t.estimate.missedEdges .none = (w, f) →
    exec .cpfPeriod s = .next (s.withDev
      ((w.periodState v f).countReadmission.runPeriod.publishUnc.setCpf (fun c => { c with pubTk := c.tk })).periodEnd)

/-- The events of car position fusion complete with their own effect (04 R74, R81, R83, R84): TRACK_READMITTED after
40 periods, REVALIDATION of a tape that stands within REVAL_LIMIT of the stored position, AUTO_CORRECTION_START,
LEARN_RUN_COMPLETE of a run levelled at its landing, LEARN_PASS_TIMEOUT, and CORRECTION_RUN_COMPLETE. The CPF commands
complete with their own effect when their checks pass (04 R78, R80, R81, R85, R86, R87): CPF_READ with the estimate at
its t_k, CPF_SET_LOAD and CPF_CORRECT and CPF_TABLE_COMMIT held for the next period, CPF_LEARN in its first pass
downward, CPF_TABLE_READ and CPF_TABLE_WRITE of the staged table; a write of CPF_CFG with EN = 0 while CPF is off
takes its fields. Where the spec leaves a reading open, the model's choice is that of log entry 9. -/
def Obligations.CpfRowsComplete : Prop :=
  (∀ (s : State), s.dev.powered 6 = true → s.dev.cpfRuns = true →
    (∀ y, y = s.dev.setCpf (fun c => { c with ts := { c.ts with excluded := false, healthy := true }, tsWithin := 0 }) →
      s.dev.cpf.ts.excluded = true → 40 ≤ s.dev.cpf.tsWithin →
      exec .trackReadmitted s = .next (s.withDev (y.event 3 2 0x0103 0 s.dev.cpf.tk [2, y.uncOf .ts]))) ∧
    (∀ p t y z, s.dev.cpfEnabled = true → s.dev.cpf.state = .unreferenced → s.dev.cpf.revalDone = false →
      s.dev.cpf.record = some p → s.dev.cpf.table = some t → p.gen = t.gen → s.dev.tape = true →
      3 ≤ (s.dev.ssi 0).goods → Machine.dist s.dev.tsNow p.x ≤ s.dev.cfld Reg.cpfReval 31 0 →
      y = s.dev.setCpf (fun c => { c with revalDone := true }) →
      z = (y.anchorAll s.dev.tsNow (s.dev.cfld Reg.cpfUnc 31 16)).cpfSet .valid 0x010B →
      exec .revalidation s = .next (s.withDev
        (z.event 3 2 0x010B 0 z.cpf.tk [1, wrapS 32 (s.dev.tsNow - p.x)]).publishUnc)) ∧
    (s.dev.cpfEnabled = true → s.dev.cpf.table.isSome = true → s.dev.cbit Reg.cpfCfg 5 = true → s.dev.atRest = true → s.dev.hoistBusy = false →
      s.dev.motionGranted = true → s.dev.locksClosed = true → (s.dev.cpf.state = .suspect ∨ s.dev.cpf.state = .lost) →
      exec .autoCorrectionStart s = .next (s.withDev (s.dev.startCorrection none false))) ∧
    (∀ r t g, s.dev.cpf.run = some r → r.learning = true → r.abort = none → r.step = 5 →
      s.dev.levelledAt s.dev.cpf.staged r.landing = true → s.dev.cpf.staged = some t →
      g = (t.gen + 1) % 2 ^ 32 →
      exec .learnRunComplete s = .next (s.withDev ((s.dev.commitTable t g s.dev.cpf.tk).endLearning r t g))) ∧
    (∀ r, s.dev.cpf.run = some r → r.learning = true → r.step ≤ 3 → r.passStart + s.dev.passLimit ≤ s.dev.dt →
      exec .learnPassTimeout s = .next (s.withDev (s.dev.endRunAborted r 8 s.dev.dt))) ∧
    (∀ r y z, s.dev.cpf.run = some r → r.learning = false → r.abort = none → r.step = 4 → r.accepted = true →
      s.dev.levelledAt s.dev.cpf.table r.landing = true →
      y = (s.dev.setCpf (fun c => { c with run := none, drive := 0, missedRow := 0, flawed := false })).event 3 2 0x010B 0
        s.dev.cpf.tk [r.phase + 2, wrapS 32 r.rv] →
      z = y.cpfSet (if y.vote = .agree then .valid else .degraded) 0x010B →
      exec .correctionRunComplete s = .next (s.withDev
        (z.publishUnc.completeOpt r.desc .done z.publishUnc.dt [0, wordN r.phase, wordI r.rv])))) ∧
  (∀ (d : Desc) (s : State), s.dev.powered 6 = true → s.dev.cpfRuns = true → s.dev.isInFlight d = true → d.object = 0 →
    (exec (.cpfRead d) s = .next (s.withDev (s.dev.complete d .done s.dev.cpf.pubTk
      [wordI s.dev.cpf.x, wordI s.dev.cpf.v, wordN s.dev.cpf.u,
       wordN (s.dev.cpf.state.code + 16 * refCode s.dev.cpf.reference + 64 * exclMask s.dev.cpf)]))) ∧
    (bitsOf (d.w 3) 31 16 = 0 → exec (.cpfSetLoad d) s = .next (s.withDev
      (s.dev.setCpf (fun c => { c with waitLoad := c.waitLoad ++ [d] })))) ∧
    (bitsOf (d.w 3) 31 1 = 0 → s.dev.cpfEnabled = true → exec (.cpfCorrect d) s = .next (s.withDev
      (s.dev.setCpf (fun c => { c with waitCorrect := c.waitCorrect ++ [d] })))) ∧
    (∀ t, s.dev.cpf.staged = some t → (d.w 3).toNat = t.gen → s.dev.atRest = true →
      exec (.cpfTableCommit d) s = .next (s.withDev
        (s.dev.setCpf (fun c => { c with waitCommit := c.waitCommit ++ [d] })))) ∧
    (1 ≤ bitsOf (d.w 3) 8 0 → bitsOf (d.w 3) 8 0 ≤ 256 → (d.w 3).toNat &&& 0xFFFEFE00 = 0 →
      s.dev.cpfEnabled = true → bitsOf (s.dev.creg Reg.cpfDzin) 7 0 ≠ 0xFF → bitsOf (s.dev.creg Reg.cpfDzin) 23 16 ≠ 0xFF →
      bitsOf (s.dev.creg Reg.cpfDzin) 31 24 ≠ 0xFF → 50000 ≤ s.dev.learnSpeed → s.dev.learnSpeed ≤ 1000000 →
      s.dev.atRest = true → s.dev.hoistBusy = false →
      (s.dev.cpf.state = .valid ∨ s.dev.cpf.state = .degraded ∨ s.dev.cpf.state = .unreferenced) →
      s.dev.motionGranted = true → s.dev.locksClosed = true →
      ∀ y, y = ((s.dev.cpfSet .learning 0).recordTape).anchorAll 0 (s.dev.cfld Reg.cpfUnc 15 0) →
      exec (.cpfLearn d) s = .next (s.withDev (y.learnStep { y.cpf.newRun true (some d) 1 with
        expected := bitsOf (d.w 3) 8 0, stageOnly := bitOf (d.w 3) 16 } 1 (-y.learnSpeed)))) ∧
    (∀ t, bitsOf (d.w 5) 31 1 = 0 → (if bitOf (d.w 5) 0 then s.dev.cpf.staged else s.dev.cpf.table) = some t →
      s.dev.addrOk d (d.w64 3) (tableImage t).length = true →
      exec (.cpfTableRead d) s = .next (s.withDev
        ((s.dev.hostWrite d (d.w64 3) (tableImage t)).complete d .done s.dev.dt [wordN t.gen, wordN t.entries.length]))) ∧
    (∀ img t y, s.dev.hiu.d3hot = false → y = s.dev.charge d.qp img.length → s.dev.isLocal d = false → parseTable img = some t →
      entriesOrdered t.entries = true → t.gen = (s.dev.cpf.table.map (·.gen)).getD 0 → y.isLocal d = false →
      y.cpf = s.dev.cpf →
      exec (.cpfTableWrite d img) s = .next (s.withDev
        ((y.setCpf (fun c => { c with staged := some { t with
        entries := markEdited ((s.dev.cpf.table.map (·.entries)).getD []) t.entries } })).complete d .done y.dt [wordN t.gen]))) ∧
    (∀ v : Word, s.dev.powered 7 = true → s.dev.hiu.d3hot = false → s.dev.cpfEnabled = false → bitOf v 0 = false →
      exec (.cpfCfgWrite v) s = .next (s.withDev
        (s.dev.setReg Reg.cpfCfg (writeBits (s.dev.reg Reg.cpfCfg) v 0x3F 0)))))

/-- MSQ_PROFILE_STEP of a goto under way (05 R89, R91): with nothing waiting, no change of the car position state, the
link up and the permit granted, the step takes up the registers written, takes the profile's sample at t_k + 250 µs
and changes nothing else but the travel and peak-acceleration tallies; the car's own record is then judged anew (09
R215). Where the spec leaves a reading open, the model's choice is that of log entries 10, 11, 13, 14, 15 and 39. -/
def Obligations.HoistStepTakesSample : Prop :=
  ∀ (s : State) (m : HMotion) (p : Plan) (x : Int), s.dev.powered 6 = true → s.dev.hoist.phase = .travel →
    s.dev.hoist.active = some m → m.kind = .goto → m.target = some x → s.dev.hoist.plan = some p →
    s.dev.invBit 3 = false → s.dev.drv.linkUp = true → s.dev.motionGranted = true →
    s.dev.hoist.lastCpf = s.dev.cpf.state → s.dev.cpf.run = none → s.dev.hoist.waiting = [] → s.dev.hoist.aborts = [] →
    s.dev.hoist.levelled = none → (p.at_ (s.dev.cpf.tk + 250000)).2 = false →
    exec .msqProfileStep s = .next (s.withDev ((s.dev.forceStep.setHoist (fun h => { h with
        prior := h.kin, kin := (p.at_ (s.dev.cpf.tk + 250000)).1, sampleAt := s.dev.cpf.tk + 250000,
        travelled := h.travelled + Machine.dist (p.at_ (s.dev.cpf.tk + 250000)).1.xUm h.kin.xUm,
        runTravel := h.runTravel + Machine.dist (p.at_ (s.dev.cpf.tk + 250000)).1.xUm h.kin.xUm,
        peakAcc := max h.peakAcc s.dev.cpf.a.natAbs })).setDrv (fun d => { d with fresh := false })).carStatus)

/-- The timed events of the hoist axis complete with their own effect (05 R95, R100, R102, R104): HOIST_DWELL_END
takes up the goto that waits, HOIST_START_TIMEOUT ends the command TIMEOUT with cause 0x0C, HOIST_STOP_TIMEOUT with
0x0D and sets the brake, RELEVEL_START hands L0 its re-levelling parameters and plans a run back to the landing. The
hoist commands are taken (05 R93, R111, R112, R114): a command that passes its checks waits for its decision instant;
there MSQ_H_READ answers with the sample, the status and the stopping point, and MSQ_H_ENABLE admits the hoist's
duties and starts the Drive Port. DRV_FAULT_RESET sends FAULT_RESET in four frames; DRV_READ answers with the last
status frame. Where the spec leaves a reading open, the model's choice is that of log entries 10, 11, 13, 14, 15 and
39. -/
def Obligations.HoistRowsComplete : Prop :=
  (∀ (s : State), s.dev.powered 6 = true →
    (s.dev.hoist.phase = .dwell → s.dev.hoist.since + s.dev.hDwell ≤ s.dev.dt →
      exec .hoistDwellEnd s = .next (s.withDev (s.dev.setHoist (fun h => { h with
        active := if h.next.isSome then h.next else h.active, next := none, phase := .waitBrake, since := s.dev.dt })))) ∧
    (∀ m, s.dev.hoist.active = some m → (s.dev.hoist.phase = .waitReady ∨ s.dev.hoist.phase = .waitBrake) →
      s.dev.hoist.since + s.dev.hStartTo ≤ s.dev.dt →
      exec .hoistStartTimeout s = .next (s.withDev (s.dev.hFinishActive .timeout 12 false s.dev.dt).cancelStart)) ∧
    (s.dev.hoist.phase = .settle → s.dev.hoist.since + s.dev.hStopTo ≤ s.dev.dt →
      exec .hoistStopTimeout s = .next (s.withDev (((s.dev.hFinishActive .timeout 13 false s.dev.dt).setHoist
        (fun h => { h with levelled := if h.active.map (·.kind) = some .relevel then h.levelled else none })).hSetBrake s.dev.dt))) ∧
    (∀ l deck x t, s.dev.hoist.levelled = some (l, deck, x) → s.dev.hoist.offSince = some t →
      bitOf (s.dev.hreg Reg.msqHcfg) 1 = true → s.dev.hoist.phase = .rest → s.dev.hoist.active = none →
      s.dev.hoist.faultHeld = false → t + s.dev.hfld Reg.msqHrelevt 15 0 * 1000000 ≤ s.dev.dt → s.dev.cpfFit = true →
      exec .relevelStart s = .next (s.withDev (((s.dev.event 4 2 5 0 s.dev.dt [l, s.dev.cpf.x - x]).handLoop 0 2).begin
        { interimMotion l deck x false with kind := .relevel })))) ∧
  (∀ (d : Desc) (s : State), s.dev.powered 6 = true → s.dev.powered 8 = true → s.dev.isInFlight d = true → d.object = 0 →
    (bitsOf (d.w 3) 31 1 = 0 → exec (.msqHDisable d) s = .next (s.withDev
      (s.dev.setHoist (fun h => { h with waiting := h.waiting ++ [(d, s.dev.dt)] })))) ∧
    (bitsOf (d.w 3) 31 18 = 0 →
      (bitsOf (d.w 3) 15 0 = 0xFFFF ∨ s.dev.landingTarget (bitsOf (d.w 3) 15 0) (bitsOf (d.w 3) 16 16) ≠ none) →
      (bitsOf (d.w 3) 16 16 = 1 → s.dev.cbit Reg.cpfCfg 2 = true) →
      exec (.msqHGoto d) s = .next (s.withDev
        (s.dev.setHoist (fun h => { h with waiting := h.waiting ++ [(d, s.dev.dt)] })))) ∧
    (bitsOf (d.w 4) 31 1 = 0 → exec (.msqHSpeed d) s = .next (s.withDev
      (s.dev.setHoist (fun h => { h with waiting := h.waiting ++ [(d, s.dev.dt)] })))) ∧
    (bitsOf (d.w 3) 31 1 = 0 → exec (.msqHStop d) s = .next (s.withDev
      (s.dev.setHoist (fun h => { h with waiting := h.waiting ++ [(d, s.dev.dt)] })))) ∧
    (exec (.msqHRead d) s = .next (s.withDev
      (s.dev.setHoist (fun h => { h with waiting := h.waiting ++ [(d, s.dev.dt)] })))) ∧
    (d.opcode = 0x0406 → ∀ z : Dev, z.decideHoist d = z.complete d .done z.dt
      [wordI z.hoist.kin.xUm, wordI z.hoist.kin.vUm, wordI z.hoist.kin.aUm, wordN z.hstat, wordI (z.stopOf z.hoist.kin)]) ∧
    (s.dev.cpfEnabled = true → exec (.msqHEnable d) s = .next (s.withDev
      (s.dev.setHoist (fun h => { h with waiting := h.waiting ++ [(d, s.dev.dt)] })))) ∧
    (d.opcode = 0x0401 → ∀ (z : Dev) (v : Nat), z.fld Reg.msqHvmax 31 0 ≠ 0 → z.hA ≠ 0 → z.hJ ≠ 0 → z.nextLo < z.nextHi →
      z.cpfEnabled = true → z.hoist.enabled = false → z.drv.running = false → z.hoistAdmissible = true →
      v = z.fld Reg.drvCfg 1 0 →
      z.decideHoist d = z.admitHoist.setDrv (fun r => { r with
        running := true, version := if v = 1 ∨ v = 2 then v else 0, hellos := if v = 1 ∨ v = 2 then none else some 0,
        settledFor := 0, sentFor := none, enableDesc := some d, awaiting := none, badRow := 0, goodRow := 0, linkUp := false,
        fresh := false, missing := 0, bad := 0 })) ∧
    (s.dev.drv.resetDesc = none → exec (.drvFaultReset d) s = .next (s.withDev
      (s.dev.setDrv (fun r => { r with faultReset := 4, resetDesc := some (d, r.last.faultCode, s.dev.dt) })))) ∧
    (∀ b, b = s.dev.drv.last.bytes.take 17 → exec (.drvRead d) s = .next (s.withDev (s.dev.complete d .done s.dev.dt
      [wordN (leAt b 4 4), wordN (leAt b 8 4), wordN (leAt b 12 4), wordN (leAt b 16 1), wordN s.dev.drvStatWord]))))

/-- The Drive Port's frames and timers complete with their own effect (05 R107, R108, R110, R111): a set-point frame
is sent and SEQ steps by one modulo 256; a HELLO is sent while negotiating; a good status frame that echoes SEQ is
taken and another one counts as bad; a window that ends without one counts as missing; a valid HELLO_ACK settles the
version, 20 HELLO frames without one settle version 1; the enable and the fault reset end in TIMEOUT at their time.
Where the spec leaves a reading open, the model's choice is that of log entries 10, 11, 13, 14, 15 and 39. -/
def Obligations.DriveFramesComplete : Prop :=
  ∀ (s : State), s.dev.powered 8 = true →
    (∀ b z y, s.dev.drv.running = true → s.dev.cpf.tk + clampN 205 245 (s.dev.fld Reg.drvTxph 7 0) * 1000 ≤ s.dev.dt →
      s.dev.drv.sentFor ≠ some s.dev.cpf.tk → s.dev.drv.hellos = none →
      z = s.dev.setDrv (fun d => { d with sentFor := some s.dev.cpf.tk }) → z.setpointFrame = (b, y) →
      exec .drvSetpointFrame s = .next (s.withDev ((y.emit (.drvFrame b)).setDrv (fun d => { d with
        awaiting := some d.seq, sentEnd := y.dt + frameTime b.length, seq := (d.seq + 1) % 256, settledFor := d.settledFor + 1,
        faultReset := d.faultReset - 1 })))) ∧
    (∀ n z, s.dev.drv.running = true → s.dev.cpf.tk + clampN 205 245 (s.dev.fld Reg.drvTxph 7 0) * 1000 ≤ s.dev.dt →
      s.dev.drv.sentFor ≠ some s.dev.cpf.tk → s.dev.drv.hellos = some n → n < 20 →
      z = s.dev.setDrv (fun d => { d with sentFor := some s.dev.cpf.tk }) →
      exec .drvSetpointFrame s = .next (s.withDev ((z.emit (.drvFrame z.helloFrame)).setDrv
        (fun d => { d with hellos := some (n + 1) })))) ∧
    (∀ ok b q st, s.dev.inWindow b.length = true → s.dev.drv.awaiting = some q → s.dev.parseStatus ok b = some (q, st) →
      exec (.drvStatusFrame ok b) s = .next (s.withDev (s.dev.drvGood st))) ∧
    (∀ ok b q r st, s.dev.inWindow b.length = true → s.dev.drv.awaiting = some q → s.dev.parseStatus ok b = some (r, st) → r ≠ q →
      exec (.drvStatusFrame ok b) s = .next (s.withDev
        ((s.dev.setBit Reg.drvStat 5 true).setDrv (fun d => { d with bad := satInc 16 d.bad })).drvMiss)) ∧
    (∀ q, s.dev.drv.awaiting = some q → s.dev.rxClose ≤ s.dev.dt → exec .drvStatusWindowExpiry s = .next (s.withDev
      (s.dev.setDrv (fun d => { d with missing := satInc 16 d.missing })).drvMiss)) ∧
    (∀ n b, s.dev.drv.hellos = some n → b.length = 12 → crcOk b = true → leAt b 0 2 = 0x00D5 → leAt b 2 1 = 0xFF →
      1 ≤ leAt b 4 1 → leAt b 4 1 ≤ 2 →
      exec (.drvHelloAck true b) s = .next (s.withDev (s.dev.setDrv (fun d => { d with
        version := leAt b 4 1, hellos := none, settledFor := 0 })))) ∧
    (∀ n, s.dev.drv.hellos = some n → 20 ≤ n →
      exec .drvNegotiationTimeout s = .next (s.withDev (s.dev.setDrv (fun d => { d with
        version := 1, hellos := none, settledFor := 0 })))) ∧
    (∀ d, s.dev.drv.enableDesc = some d → s.dev.drv.hellos = none → 20 ≤ s.dev.drv.settledFor →
      exec .drvEnableTimeout s = .next (s.withDev (s.dev.enableFails .timeout))) ∧
    (∀ d code t, s.dev.drv.resetDesc = some (d, code, t) → t + s.dev.hStartTo ≤ s.dev.dt →
      exec .drvFaultResetTimeout s = .next (s.withDev
        ((s.dev.setDrv (fun r => { r with resetDesc := none })).complete d .timeout s.dev.dt [wordN code])))

/-- MSQ_DOOR_STEP (06 R120, R128, R138): with no command waiting and every axis at rest and disabled, the step
advances the virtual master of each axis present, clears the goto marks and moves nothing; one command that waits is
decided in this step, before the axes move, and no longer waits. Where the spec leaves a reading open, the model's
choice is that of log entries 16 to 19. -/
def Obligations.DoorStepRuns : Prop :=
  ∀ (s : State), s.dev.powered 6 = true →
    (∀ n, n < 5 → (s.dev.axis n).live = false ∧ (s.dev.axis n).nudgeNext = none) →
    (s.dev.door.waiting = [] →
      exec .msqDoorStep s = .next (s.withDev (((List.range 5).filter s.dev.hasAxis).foldl (fun (t : Dev) n => t.virtStep n)
        { s.dev with door := { s.dev.door with gotoDone := false, gotoLost := false } }).carStatus)) ∧
    (∀ d a y, s.dev.door.waiting = [(d, a)] →
      y = Dev.decideDoor { s.dev with door := { s.dev.door with waiting := [], gotoDone := false, gotoLost := false } } d →
      exec .msqDoorStep s = .next (s.withDev (((List.range 5).filter s.dev.hasAxis).foldl (fun (t : Dev) n =>
          if !(t.axis n).live ∨ (t.axis n).state = .fault
            ∨ (t.axis n).aligning.isSome then t.virtStep n
          else ((t.virtStep n).genStep n).followStep n)
        y).carStatus))

/-- The limiter and commutation steps of an axis complete with their own effect (06 R129, R131, R132, R133-R136):
COMMUTATION_STEP sets the three phase currents from the limited torque current and the electrical angle and keeps the
shunt reading; QUIET_MODE_ENTRY leaves strong mode 50 ms after the current fell; DOOR_LIMITER_EVALUATION of an axis
that does not move keeps the energy and clears the counts. The timed events of an axis complete with their own effect
(06 R121, R126, R131, R139): HOME_REFERENCE_DONE takes the present position as the reference and ends the enable,
ALIGN_DONE writes DALIGN, DOOR_MOTION_TIMEOUT ends the motion TIMEOUT with cause 0x0C and stops the axis,
CAM_CHECK_COMPLETE makes a passed image current. Where the spec leaves a reading open, the model's choice is that of
log entries 16 to 19. -/
def Obligations.DoorAxisRowsComplete : Prop :=
  (∀ (n : Fin 5) (s : State), s.dev.powered 6 = true → s.dev.hasAxis n = true →
    (∀ iq y z x t sn cur, (s.dev.axis n).immediate = false → s.dev.axisIdle n = false → (s.dev.limitIq n) = (iq, y) →
      z = y.switchMode n iq → x = z.axis n → x.aligning = none → x.tripped = false →
      t = z.elecAngle n (z.pos (n + 2)) → sn = (phaseAngles t).map z.sineAt →
      cur = (List.range 3).map (fun i => z.phaseCurrent (firstBridge n + i)) →
      exec (.commutationStep n) s = .next (s.withDev (z.setAxis n { x with
        iq := iq, theta := t, setU := (sn.map (fun v => idiv (iq * v) 32768)).getD 0 0,
        setV := (sn.map (fun v => idiv (iq * v) 32768)).getD 1 0,
        setW := (sn.map (fun v => idiv (iq * v) 32768)).getD 2 0,
        shunts := (idiv (2 * ((cur.zip sn).map (fun (a, b) => a * b)).foldl (· + ·) 0) (3 * 32768) :: x.shunts).take 10 }))) ∧
    (∀ t, (s.dev.axis n).offSince = some t → (s.dev.axis n).strong = true →
      s.dev.fld (Reg.msqDcfg n) 3 2 ≠ 1 → s.dev.fld (Reg.msqDcfg n) 3 2 ≠ 2 → (s.dev.axis n).tripped = false →
      (s.dev.axis n).relief = false → t + 50000000 ≤ s.dev.dt →
      exec (.quietModeEntry n) s = .next (s.withDev
        ((s.dev.modAxis n (fun x => { x with strong := false })).dEvent 1 10 n s.dev.dt [0, (s.dev.axis n).iq]))) ∧
    (∀ vm e, s.dev.axisIdle n = false → (s.dev.axis n).state = .open_ → (s.dev.axis n).gen ≠ .home →
      vm = (s.dev.doorSpeed n).natAbs → e = s.dev.fld (Reg.msqDmass n) 31 0 * vm * vm / 2000000000 →
      e ≤ s.dev.eLim n * 10 * clampN 100 200 (s.dev.fld (Reg.msqDforce n) 15 8) →
      ∃ t, exec (.doorLimiterEvaluation n) s = .next (s.withDev t) ∧
        (t.axis n) = { s.dev.axis n with lastE := e, energyClamp := false, overRow := 0, clampSince := none } ∧
        t.out = s.dev.out)) ∧
  (∀ (n : Fin 5) (s : State), s.dev.powered 6 = true →
    (∀ t, (s.dev.axis n).clampSince = some t → (s.dev.axis n).enabling.isSome = true → (s.dev.axis n).gen = .home →
      t + 200000000 ≤ s.dev.dt →
      exec (.homeReferenceDone n) s = .next (s.withDev
        ((s.dev.modAxis n (fun x => { x with pRef := s.dev.pos (n + 2) })).enableDone n))) ∧
    (∀ t y, (s.dev.axis n).aligning = some t → t + 200000000 ≤ s.dev.dt →
      y = s.dev.setReg (Reg.msqDalign n) (wordI (s.dev.pos (n + 2))) →
      exec (.alignDone n) s = .next (s.withDev (if (s.dev.axis n).homing
        then y.modAxis n (fun x => { x with aligning := none, gen := .home }) else y.enableDone n))) ∧
    ((s.dev.axis n).state.moving = true → (s.dev.axis n).start + s.dev.dfld n (Reg.msqDmisc n) 31 16 * 1000000 ≤ s.dev.dt →
      exec (.doorMotionTimeout n) s = .next (s.withDev ((s.dev.axisDone n .timeout 12 false s.dev.dt).stopAxis n))) ∧
    (∀ (k : Fin 3) d, (s.dev.camSlot n k).loading = some d →
      s.dev.camFailure n k (s.dev.camSlot n k).staged = none →
      exec (.camCheckComplete n k) s = .next (s.withDev ((s.dev.setCamSlot n k
        { current := some (parseCam (s.dev.camSlot n k).staged), image := (s.dev.camSlot n k).staged, valid := true, staged := [], loading := none }).complete d
        .done s.dev.dt [0, wordN (leAt (s.dev.camSlot n k).staged 4 2)]))))

/-- The door and bridge commands are taken (06 R126, R130, R138, R145, R148): a command on an axis present that passes
its checks waits for the door step, MSQ_D_CAM_LOAD with its image staged and MSQ_D_SINE_LOAD with its table, which the
step puts in force with every axis disabled; MSQ_D_READ is decided in the door step with Table 6-8's words of that
step; MSQ_B_SET sets the duty of a general bridge. Where the spec leaves a reading open, the model's choice is that of
log entries 16 to 19. -/
def Obligations.DoorCommandsComplete : Prop :=
  ∀ (d : Desc) (s : State), s.dev.powered 6 = true → s.dev.isInFlight d = true →
    (s.dev.axisCheck d false = none →
      (bitsOf (d.w 3) 31 2 = 0 → exec (.msqDEnable d) s = .next (s.withDev (s.dev.doorWait d))) ∧
      (bitsOf (d.w 3) 31 1 = 0 → exec (.msqDDisable d) s = .next (s.withDev (s.dev.doorWait d))) ∧
      (0 ≤ sWord (d.w 3) → sWord (d.w 3) ≤ s.dev.nextStroke (bitsOf d.object 7 0) →
        exec (.msqDGoto d) s = .next (s.withDev (s.dev.doorWait d))) ∧
      (exec (.msqDStop d) s = .next (s.withDev (s.dev.doorWait d))) ∧
      (exec (.msqDRead d) s = .next (s.withDev (s.dev.doorWait d)) ∧
        ∀ (z : Dev) n, n = bitsOf d.object 7 0 → d.opcode = 0x0509 → z.decideDoor d = z.complete d .done z.dt
          [wordI (z.doorPos n), wordI (z.doorSpeed n), wordI (z.axis n).iq, wordN (z.dstat n), wordN (z.axis n).lastE]) ∧
      (∀ img y n k b, s.dev.hiu.d3hot = false → y = s.dev.charge d.qp img.length → n = bitsOf d.object 7 0 → k = bitsOf (d.w 3) 1 0 →
        b = y.fetch d (d.w64 4) img → bitsOf (d.w 3) 31 2 = 0 → k ≠ 3 → y.addrOk d (d.w64 4) b.length = true →
        (y.camSlot n k).loading = none → y.door.waiting = [] →
        exec (.msqDCamLoad d img) s = .next (s.withDev
          ((y.setCamSlot n k { y.camSlot n k with staged := b }).doorWait d)))) ∧
    (s.dev.axisCheck d true = none → s.dev.syncCheck d = none →
      exec (.msqDOpen d) s = .next (s.withDev (s.dev.doorWait d)) ∧
      exec (.msqDClose d) s = .next (s.withDev (s.dev.doorWait d))) ∧
    (∀ img y b, s.dev.hiu.d3hot = false → y = s.dev.charge d.qp img.length → y.axisCheck d false = none →
      b = y.fetch d (d.w64 3) img → y.addrOk d (d.w64 3) 2048 = true → 2048 ≤ b.length →
      exec (.msqDSineLoad d img) s = .next (s.withDev
        (Dev.doorWait { y with door := { y.door with sines := y.door.sines ++ [(d, parseSine 1024 b)] } } d))) ∧
    (∀ (z : Dev) t, d.opcode = 0x0508 → z.door.sines = [(d, t)] → t.all (fun v => v != -32768) = true →
      (List.range 5).any z.axisEnabled = false →
      z.decideDoor d = Dev.complete { z with door := { z.door with sines := [], sine := t } } d .done z.dt []) ∧
    (∀ b : Nat, b < 16 → bitsOf d.object 7 0 = b + 0x10 → bitsOf d.object 31 8 = 0 → s.dev.hasBridge b = true →
      s.dev.bridgeGeneral b = true → bitsOf (d.w 3) 10 0 ≤ 1024 → bitsOf (d.w 3) 31 11 = 0 →
      exec (.msqBSet d) s = .next (s.withDev ((s.dev.setBridge b { s.dev.bridge b with
        next := dutyApplied (bitsOf (d.w 3) 10 0) }).complete d .done s.dev.dt [])))

/-- FRAME_PHASE_ZERO (07 R152, R154): after what a power-state entry or exit does at the boundary, a frame with no
rate group, no commit and no staged table takes its number and instant, the next number is one more, every fifth frame
starts a CPF period (after closing car position fusion where it was disabled), and the positions latch and the SSI
reads and bridges begin; nothing is evaluated. The Loop Engine's commands complete with their own effect when their
checks pass (07 R163, R168, R171, R174, R175): LPE_PARAM_WRITE sets one shadow bank, LPE_COMMIT waits for its frame,
LPE_HANDOVER waits for the loop's sample, LPE_READ answers with the output, the integrator, the status and the last
frame, LPE_TABLE_LOAD stages the table. Where the spec leaves a reading open, the model's choice is that of log entry
20. -/
def Obligations.LoopEngineRowsComplete : Prop :=
  (∀ (s : State) (z : Dev), s.dev.powered 6 = true → z = s.dev.frameBoundary → z.lpe.commits = [] →
    (∀ (w y : Dev), w = { z with lpe := { z.lpe with frame := z.lpe.frames, frames := z.lpe.frames + 1, phaseAt := z.dt } } →
      y = Dev.frameStarts (Dev.phaseLatch
        (if z.lpe.frames % 5 = 0 then w.closeCpf.setCpf (fun c => { c with tk := z.dt }) else w) (z.lpe.frames % 5 == 0)) →
      y.lpe.commits = [] → (∀ t, t < 16 → kget none y.lpe.staged t = none) → groupList y.lpe.groups = [] →
      exec .framePhaseZero s = .next (s.withDev y))) ∧
  (∀ (d : Desc) (s : State), s.dev.powered 6 = true → s.dev.isInFlight d = true →
    (∀ img y b, s.dev.hiu.d3hot = false → y = s.dev.charge d.qp img.length → b = y.fetch d (d.w64 3) img → lpeObjectOk d = true →
      64 ≤ b.length → y.addrOk d (d.w64 3) 64 = true → (parseParams b).bad (decide (lpeLoop d < 16)) = false →
      y.commitPending (lpeLoop d) = false →
      exec (.lpeParamWrite d img) s = .next (s.withDev
        ((y.setBank (lpeLoop d) (4 + lpeMode d) ((parseParams b).owned (lpeLoop d))).complete d .done y.dt []))) ∧
    (lpeObjectOk d = true → bitsOf (d.w 5) 31 1 = 0 →
      exec (.lpeCommit d) s = .next (s.withDev { s.dev with lpe := { s.dev.lpe with
        commits := s.dev.lpe.commits ++ [⟨d.w64 3, bitOf (d.w 5) 0, s.dev.dispatchedAt d, d⟩] } })) ∧
    (lpeObjectOk d = true → bitsOf (d.w 3) 31 2 = 0 → 16 ≤ lpeLoop d →
      exec (.lpeHandover d) s = .next (s.withDev
        (s.dev.handAt (lpeLoop d) (bitsOf (d.w 3) 1 0) (s.dev.dispatchedAt d) (some d)))) ∧
    (lpeObjectOk d = true →
      exec (.lpeRead d) s = .next (s.withDev (s.dev.complete d .done s.dev.dt
        [wordI (s.dev.lpeOut (lpeLoop d)), wordI (idiv (s.dev.loop (lpeLoop d)).iacc 65536), wordN (s.dev.lstat (lpeLoop d)),
         wordN (s.dev.loop (lpeLoop d)).lastFrame]))) ∧
    (∀ img y b, s.dev.hiu.d3hot = false → y = s.dev.charge d.qp img.length → b = y.fetch d (d.w64 3) img → bitsOf d.object 31 4 = 0 →
      y.addrOk d (d.w64 3) b.length = true → kget none y.lpe.staged (bitsOf d.object 3 0) = none → ffCheck b = none →
      exec (.lpeTableLoad d img) s = .next (s.withDev { y with lpe := { y.lpe with
        staged := kput none y.lpe.staged (bitsOf d.object 3 0) (some ⟨parseFf b, y.dt, d⟩) } })))

/-- HWK_Q1_COUNT and HWK_SPEED_UPDATE (08 R183): one sample of QA1 and QB1 goes through the four-sample filter of each
line; accepted levels of which one changes move h by one and the count of the running speed update with it, levels
that both change set Q1_PHASE and move nothing; an update takes S from the counts of the last SPDWIN milliseconds (ten
updates each). Where the spec leaves a reading open, the model's choice is that of log entry 21. -/
def Obligations.HwkCountAndSpeed : Prop :=
  ∀ (s : State), s.dev.hwk.osc = true →
    (∀ a b fa fb, fa = filterStep 4 s.dev.hwk.qa s.dev.hwk.runA a → fb = filterStep 4 s.dev.hwk.qb s.dev.hwk.runB b →
      (¬ (s.dev.hwk.qa ≠ fa.1 ∧ s.dev.hwk.qb ≠ fb.1) →
        exec (.hwkQ1Count a b) s = .next (s.withDev (s.dev.setHwk (fun g => { g with
          runA := fa.2, runB := fb.2, qa := fa.1, qb := fb.1, h := wrapS 32 (g.h + hwkQuadStep g.qa g.qb fa.1 fb.1),
          net := g.net + hwkQuadStep g.qa g.qb fa.1 fb.1 })))) ∧
      (s.dev.hwk.qa ≠ fa.1 → s.dev.hwk.qb ≠ fb.1 →
        exec (.hwkQ1Count a b) s = .next (s.withDev (((s.dev.setHwk (fun g => { g with
          runA := fa.2, runB := fb.2 })).setBit Reg.hwkStat 12 true).setHwk (fun g => { g with
          qa := fa.1, qb := fb.1, h := wrapS 32 g.h }))))) ∧
    (∀ nets v, s.dev.hwk.armed = false → nets = (s.dev.hwk.net :: s.dev.hwk.nets).take 100 →
      v = wrapS 32 (idiv ((nets.take (10 * s.dev.spdWin)).foldl (· + ·) 0 * 1000) s.dev.spdWin) →
      exec .hwkSpeedUpdate s = .next (s.withDev (s.dev.setHwk (fun g => { g with
        net := 0, nets := nets, s := v, zeroRow := if v = 0 then g.zeroRow + 1 else 0, speedCauses := 0 })))) ∧
    (∀ nets v y, s.dev.hwk.armed = true → nets = (s.dev.hwk.net :: s.dev.hwk.nets).take 100 →
      v = wrapS 32 (idiv ((nets.take (10 * s.dev.spdWin)).foldl (· + ·) 0 * 1000) s.dev.spdWin) →
      y = s.dev.setHwk (fun g => { g with
        net := 0, nets := nets, s := v, zeroRow := if v = 0 then g.zeroRow + 1 else 0 }) →
      exec .hwkSpeedUpdate s = .next (s.withDev (y.setHwk (fun g => { g with speedCauses := y.speedCausesNow }))))

/-- HWK_EVALUATION (08 R178, R181, R188-R190, R195): before the lock NOT_ARMED is the one cause and no permit is
given; armed, the locks, anchors, mode inputs and UCM triggers are read and then the causes are taken and the permits
combined. Where the spec leaves a reading open, the model's choice is that of log entry 21. -/
def Obligations.HwkEvaluationRuns : Prop :=
  ∀ (s : State), s.dev.hwk.osc = true →
    (∀ t, s.dev.hwk.armed = false → t = s.dev.logicTake 1 →
      exec .hwkEvaluation s = .next (s.withDev (t.hwkCombine false s.dev.dt)) ∧
      t.hwk.permits = ⟨false, false, false⟩ ∧ tbit t.hwk.active 0 = true) ∧
    (∀ y z w, s.dev.hwk.armed = true →
      y = (((List.range 8).foldl (fun (t : Dev) i => t.lockStep i) s.dev).anchorClear 0).anchorClear 1 →
      z = y.setHwk (fun g => { g with insp := y.modeInput 14 g.insp, recallOn := y.modeInput 15 g.recallOn }) →
      w = z.ucmEvent (z.hwk.triggers ++ z.ucmTriggers) →
      exec .hwkEvaluation s = .next (s.withDev ((w.logicTake w.logicCauses).hwkCombine false w.dt)))

/-- The timers and checks of the logic half complete with their own effect (08 R179, R180, R189, R198): a record is
delivered while the ring has room and then the rest, none while it has not, held causes are released after 5,000
updates with S at 0, the park position is taken after 500,000 evaluations without the permit, and a clock check inside
the window counts a pass and one outside it fails. The Cocoon half's events complete with their own effect (08 R190,
R191): an evaluation takes its causes, latches causes 5 and 13 and drops the enables that are no longer granted; a
timebase edge turns the timebase and gates the granted outputs at the start of a period; a readback counts
disagreements; an oscillator stop withdraws what its half gates. Where the spec leaves a reading open, the model's
choice is that of log entry 21. -/
def Obligations.HwkRowsComplete : Prop :=
  (∀ (s : State),
    (∀ r t, s.dev.hwk.records = r :: t → s.dev.eqReady 7 = true →
      exec .hwkRecordDelivery s = .next (s.withDev (deliverRecords 63
        ((s.dev.setHwk (fun g => { g with records := t })).event 7 r.severity r.code 0 r.time r.payload)))) ∧
    (s.dev.eqReady 7 = false → exec .hwkRecordDelivery s = .next s) ∧
    (s.dev.hwk.osc = true → 5000 ≤ s.dev.hwk.zeroRow →
      exec .hwkSpeedCauseRelease s = .next (s.withDev (s.dev.setHwk (fun g => { g with
        held := g.held &&& g.cond, active := maskOff g.active (maskOff g.held g.cond) })))) ∧
    (s.dev.hwk.osc = true → s.dev.hwk.armed = true → s.dev.hwk.park = none → 500000 ≤ s.dev.hwk.parkRow →
      exec .hwkParkStart s = .next (s.withDev (s.dev.setHwk (fun g => { g with park := some g.h })))) ∧
    (∀ n : Nat, s.dev.hwk.osc = true → ((n : Int) - 100000).natAbs ≤ s.dev.fld Reg.hwkWin 11 8 * 1000 →
      exec (.hwkClockCheck n) s = .next (s.withDev (s.dev.setHwk (fun g => { g with
        clkPasses := g.clkPasses + 1, clkBad := g.clkBad && decide (g.clkPasses + 1 < 10) })))) ∧
    (∀ n : Nat, s.dev.hwk.osc = true → s.dev.fld Reg.hwkWin 11 8 * 1000 < ((n : Int) - 100000).natAbs →
      exec (.hwkClockCheck n) s = .next (s.withDev
        (((s.dev.setHwk (fun g => { g with clkBad := true, clkPasses := 0 })).chrInc 6 21).hwkEvent 8 9 s.dev.dt
          [(n : Int), 100000])))) ∧
  (∀ (s : State),
    (∀ c l p, s.dev.hwkF.osc = true → s.dev.coc.field.running = true →
      c = (if s.dev.hwkF.armed then s.dev.fieldCauses else 1) → l = s.dev.hwkF.latched ||| (c &&& 0x2020) →
      p = (⟨c ||| l == 0,
        s.dev.hwkF.armed && s.dev.fieldOn 8 && ((c ||| l) &&& doorBlock == 0),
        s.dev.hwkF.armed && s.dev.fieldOn 9 && ((c ||| l) &&& doorBlock == 0)⟩ : Permits) →
      exec .hwkCocoonEvaluation s = .next (s.withDev (s.dev.setHwkF (fun f => { f with
        active := c, latched := l, permits := p,
        evalAt := if c ≠ f.active ∨ l ≠ f.latched ∨ p ≠ f.permits then s.dev.time else f.evalAt })).dropEnables)) ∧
    (s.dev.hwkF.osc = true → s.dev.coc.field.running = true →
      ∃ t, exec .enableTimebaseEdge s = .next (s.withDev t) ∧ t.hwkF.timebase = (!s.dev.hwkF.timebase) ∧
        t.hwkF.motionEn = s.dev.hwkF.motionEn.edge (!s.dev.hwkF.timebase) s.dev.hwkF.grants.1 ∧
        t.hwkF.doorEn = s.dev.hwkF.doorEn.edge (!s.dev.hwkF.timebase) s.dev.hwkF.grants.2 ∧
        t.hwk = s.dev.hwk ∧ t.cfg = s.dev.cfg) ∧
    (∀ m d, s.dev.hwkF.osc = true → s.dev.coc.field.running = true →
      exec (.enableReadback m d) s = .next (s.withDev (s.dev.setHwkF (fun f => { f with
        motionEn := f.motionEn.read m, doorEn := f.doorEn.read d })))) ∧
    (exec (.hawkmothOscillatorStop true) s = .next (s.withDev (s.dev.setHwkF (fun f => { f with
        osc := false, motionEn := { f.motionEn with gated := false }, doorEn := { f.doorEn with gated := false } })))) ∧
    (exec (.hawkmothOscillatorStop false) s = .next (s.withDev (s.dev.setHwk (fun g => { g with osc := false })))))

/-- The Hawkmoth commands complete with their own effect (08 R194, R197): a write of LOCK = 1 to an unlocked rule set
locks it and, when Table 8-8 finds nothing, sends it to the Cocoon half, any other write of HWK_CTRL changes nothing;
a rules load writes the registers not yet written and locks with LOCK = 1, and is refused after the lock; HWK_STATUS
and HWK_RULES_READ answer. Where the spec leaves a reading open, the model's choice is that of log entry 21. -/
def Obligations.HwkCommandsComplete : Prop :=
  ∀ (s : State),
    (∀ v y, s.dev.powered 7 = true → s.dev.hiu.d3hot = false → bitOf v 0 = true → s.dev.hwk.locked = false →
      y = (s.dev.setFld Reg.hwkCtrl 0 0 1).setHwk (fun g => { g with
        locked := true, crc := rulesCrc s.dev.hwkImage, lockDesc := none, lockAt := s.dev.dt }) →
      exec (.hwkLock v) s = .next (s.withDev (if y.lockReason (rulesCrc s.dev.hwkImage) = 0
        then (y.setHwk (fun g => { g with confirming := true })).sendRules
        else y.lockDone (y.lockReason (rulesCrc s.dev.hwkImage))))) ∧
    (∀ v, s.dev.powered 7 = true → s.dev.hiu.d3hot = false → (bitOf v 0 = false ∨ s.dev.hwk.locked = true) →
      exec (.hwkLock v) s = .next s) ∧
    (∀ d img y b, s.dev.isInFlight d = true → s.dev.hiu.d3hot = false → d.object = 0 → y = s.dev.charge d.qp img.length → y.addrOk d (d.w64 3) 512 = true →
      y.hwk.locked = false → b = y.fetch d (d.w64 3) img →
      ∀ z, z = ruleOffsets.foldl (fun (t : Dev) o => t.hwkRuleWrite (0x6000 + o) (imgWord b o)) y →
      (bitOf (imgWord b 0) 0 = false →
        exec (.hwkRulesLoad d img) s = .next (s.withDev (z.complete d .done z.dt [0, z.hwkStatWord]))) ∧
      (bitOf (imgWord b 0) 0 = true → ∀ w, w = (z.setFld Reg.hwkCtrl 0 0 1).setHwk (fun g => { g with
          locked := true, crc := rulesCrc z.hwkImage, lockDesc := some d, lockAt := z.dt }) →
        exec (.hwkRulesLoad d img) s = .next (s.withDev (if w.lockReason (rulesCrc z.hwkImage) = 0
          then (w.setHwk (fun g => { g with confirming := true })).sendRules
          else w.lockDone (w.lockReason (rulesCrc z.hwkImage)))))) ∧
    (∀ d img, s.dev.isInFlight d = true → s.dev.hiu.d3hot = false → d.object = 0 → (s.dev.charge d.qp img.length).addrOk d (d.w64 3) 512 = true →
      (s.dev.charge d.qp img.length).hwk.locked = true →
      exec (.hwkRulesLoad d img) s = .next (s.withDev ((s.dev.charge d.qp img.length).fail d .refusedInterlock))) ∧
    (∀ d, s.dev.isInFlight d = true → d.object = 0 → exec (.hwkStatus d) s = .next (s.withDev (s.dev.complete d .done s.dev.dt
      [s.dev.hwkStatWord, s.dev.hwkCauseWord, wordI s.dev.hwk.h, wordI s.dev.hwk.s]))) ∧
    (∀ d img, s.dev.isInFlight d = true → d.object = 0 → s.dev.addrOk d (d.w64 3) 512 = true →
      img = (List.range 128).flatMap (fun i =>
        leBytes 4 (if 0x20 ≤ i ∧ i < 0x40 then 0 else (s.dev.reg (0x6000 + 4 * i)).toNat)) →
      exec (.hwkRulesRead d) s = .next (s.withDev ((s.dev.hostWrite d (d.w64 3) img).complete d .done s.dev.dt
        [rulesCrc s.dev.hwkImage, wordN s.dev.hwk.reason])))

/-- The applied events of Monarch (09 R214, R215, R217, R221, R223; 10 R231): with no evaluation left, the row of its
kind takes the head of the committed order and applies it, and only that one; the car's own record is then judged
anew. MON_EVALUATION_COMPLETE, LOCAL_COMMIT (09 R219, 10 R246): an evaluation ends once its cycles have passed at 2 ns
each; a Solo part with an epoch commits every event before its watermark. Where the spec leaves a reading open, the
model's choice is that of log entries 25, 26, 27 and 29. -/
def Obligations.MonarchEventsComplete : Prop :=
  (∀ (s : State) (rest : List Committed), s.dev.powered 5 = true → s.dev.mon.jobs = [] →
    ∀ y, y = s.dev.setMon (fun m => { m with committed := rest }) →
      (∀ n q t f c, s.dev.mon.committed = .event ⟨n, q, t, f, .call c⟩ :: rest →
        exec .monApplyCall s = .next (s.withDev (y.applyCall ⟨n, q, t, f, .call c⟩ c).carStatus)) ∧
      (∀ n q t f i, s.dev.mon.committed = .event ⟨n, q, t, f, .cancel i⟩ :: rest →
        exec .monApplyCancel s = .next (s.withDev (y.applyCancel ⟨n, q, t, f, .cancel i⟩ i).carStatus)) ∧
      (∀ n q t f r, s.dev.mon.committed = .event ⟨n, q, t, f, .status r⟩ :: rest →
        exec .monApplyCarStatus s = .next (s.withDev (y.applyStatus ⟨n, q, t, f, .status r⟩ r).carStatus)) ∧
      (∀ t, s.dev.mon.committed = .tick t :: rest →
        exec .monApplyTick s = .next (s.withDev (y.applyTick t).carStatus))) ∧
  (∀ (s : State), s.dev.powered 5 = true →
    (∀ j l, s.dev.mon.jobs = j :: l → s.dev.mon.jobStart + 2 * s.dev.evalCycles j ≤ s.dev.dt →
      exec .monEvaluationComplete s = .next (s.withDev s.dev.finishEval.soloActivate.carStatus)) ∧
    (s.dev.hasGrp = false → s.dev.grp.epoch ≠ 0 →
      exec .localCommit s = .next (s.withDev
        ((s.dev.setGrp (fun g => { g with frontier := s.dev.watermark })).commitWhere
          (fun e => decide (e.tEv < s.dev.watermark)) s.dev.watermark))))

/-- The Monarch commands complete with their own effect when their checks pass (09 R221, R223, R224). Where the spec
leaves a reading open, the model's choice is that of log entries 25, 26, 27 and 29. -/
def Obligations.MonarchCommandsComplete : Prop :=
  ∀ (d : Desc) (s : State), s.dev.powered 5 = true → s.dev.isInFlight d = true →
    (∀ q id, s.dev.callFit d = true → q = (s.dev.mon.seq + 1) % 2 ^ 40 → id = s.dev.grp.node * 2 ^ 40 + q →
      exec (.monCall d) s = .next (s.withDev ((s.dev.setMon (fun m => { m with
          seq := q, calls := m.calls ++ [⟨d, id, bitOf (d.w 4) 24, none, false, none, 0, none⟩] })).formEvent
        (.call ⟨id, bitsOf (d.w 3) 15 0, if bitsOf (d.w 4) 2 0 = 1 then 0xFFFF else bitsOf (d.w 3) 31 16, d.w 4, d.w 5⟩)
        (s.dev.dispatchedAt d)))) ∧
    (d.w 2 = 0 →
      (∀ id, id = d.w64 3 % 2 ^ 48 → exec (.monCancel d) s = .next (s.withDev
        ((s.dev.setMon (fun m => { m with cancels := m.cancels ++ [(d, id, s.dev.dispatchedAt d)] })).formEvent (.cancel id)
          (s.dev.dispatchedAt d)))) ∧
      (bitsOf (d.w 3) 1 0 ≠ 3 → exec (.monCarMode d) s = .next (s.withDev
        (((s.dev.setMon (fun m => { m with mode := bitsOf (d.w 3) 1 0 })).carStatus).complete d .done s.dev.dt []))) ∧
      (∀ o, (bitOf (d.w 3) 0 = true → s.dev.deckHasAxis 0 = false) → (bitOf (d.w 3) 1 = true → s.dev.deckHasAxis 1 = false) →
        s.dev.mon.own = some o → o.phase = 1 →
        (tbit (bitsOf (d.w 3) 1 0) 0 = bitOf (d.w 3) 0) → (tbit (bitsOf (d.w 3) 1 0) 1 = bitOf (d.w 3) 1) →
        exec (.monCarDoors d) s = .next (s.withDev (((s.dev.setMon (fun x => { x with
          doors := x.doors ||| bitsOf (d.w 3) 1 0 })).carStatus).complete d .done s.dev.dt []))) ∧
      (∀ t, s.dev.addrOk d (d.w64 5) 64 = true → s.dev.trip (d.w64 3 % 2 ^ 48) = some t →
        exec (.monTripRead d) s = .next (s.withDev
          ((s.dev.hostWrite d (d.w64 5) t.bytes).complete d .done s.dev.dt [wordN t.state.code.toNat]))) ∧
      (s.dev.addrOk d (d.w64 5) 64 = true → s.dev.trip (d.w64 3 % 2 ^ 48) = none →
        exec (.monTripRead d) s = .next (s.withDev
          (s.dev.complete d .done s.dev.dt [wordN (Config.tripStateCode 0).toNat]))) ∧
      (∀ img y b, s.dev.hiu.d3hot = false → y = s.dev.charge d.qp img.length → b = (y.fetch d (d.w64 4) img).take 131088 →
        y.addrOk d (d.w64 4) 131088 = true → y.mon.offered = [] → b.length = 131088 → fttFit b = true →
        exec (.monFttLoad d img) s = .next (s.withDev
          ((y.stage y.mon.stagedCfg (kput [] y.mon.stagedFtt (bitsOf (d.w 3) 1 0) b)).complete d .done y.dt
            [wordN (leAt b 12 4)]))) ∧
      (∀ img y b, s.dev.hiu.d3hot = false → y = s.dev.charge d.qp img.length → b = (y.fetch d (d.w64 3) img).take 1156 →
        y.addrOk d (d.w64 3) 1156 = true → y.mon.offered = [] → b.length = 1156 → configFit b = true →
        exec (.monConfigLoad d img) s = .next (s.withDev
          ((y.stage b y.mon.stagedFtt).complete d .done y.dt [wordN (leAt b 1152 4)]))) ∧
      (s.dev.mon.sdigest ≠ 0 → exec (.monConfigCommit d) s = .next (s.withDev
        (s.dev.setMon (fun m => { m with offered := m.offered ++ [d] })).soloActivate))) ∧
    (∀ r hs v, (d.w 2).toNat < 16 → s.dev.addrOk d (d.w64 3) 544 = true → r = s.dev.car (d.w 2).toNat →
      hs = (stopList r (r.dir == 1) (s.dev.carTrips (d.w 2).toNat)).take 64 →
      v = (s.dev.simulate (d.w 2).toNat s.dev.dt r hs).getD [] →
      exec (.monCarRead d) s = .next (s.withDev ((s.dev.drawn.hostWrite d (d.w64 3)
        (r.bytes ++ hs.flatMap (fun h => haltBytes h (((v.find? (fun x => decide (x.halt = h))).map
          (fun x => satU 32 x.arr)).getD (s.dev.free % 2 ^ 32))))).complete d .done
          s.dev.dt [wordN hs.length])))

/-- The group commands of a part with the Group replication complete with their own effect (10 R250): GRP_CONFIG while
the group is off, GRP_JOIN, GRP_LEAVE of a member with nobody aboard, GRP_STATUS, GRP_SNAPSHOT_READ. Where the spec
leaves a reading open, the model's choice is that of log entries 25, 26, 27 and 29. -/
def Obligations.GroupCommandsComplete : Prop :=
  ∀ (d : Desc) (s : State), s.dev.powered 5 = true → s.dev.isInFlight d = true → s.dev.hasGrp = true →
    d.w 2 = 0 →
    (∀ y, s.dev.grp.en = false → 1 ≤ bitsOf (d.w 3) 12 8 → bitsOf (d.w 3) 7 0 < 16 →
      bitsOf (d.w 3) 12 8 ≤ s.dev.maxCars → bitsOf (d.w 3) 25 16 ≤ s.dev.tripCtx →
      y = s.dev.setGrp (fun g => { g with
        node := bitsOf (d.w 3) 3 0, members := bitsOf (d.w 3) 12 8,
        capacity := bitsOf (d.w 3) 25 16, groupId := bitsOf (d.w 4) 15 0 }) →
      exec (.grpConfig d) s = .next (s.withDev
        ((y.setFld Reg.grpSkew 9 0 (clampN 50 900 (bitsOf (d.w 4) 25 16))).complete d .done s.dev.dt []))) ∧
    (s.dev.grp.en = false → exec (.grpJoin d) s = .next (s.withDev (s.dev.setGrp (fun g => { g with
      en := true, joining := true, leaving := none, joinDesc := some d, quietAt := s.dev.dt })))) ∧
    ((s.dev.carTrips s.dev.grp.node).all (fun t => !t.aboard) = true → s.dev.grp.leaving = none →
      s.dev.grp.member = true →
      exec (.grpLeave d) s = .next (s.withDev (s.dev.setGrp (fun g => { g with leaving := some 0, leaveDesc := some d })))) ∧
    (exec (.grpStatus d) s = .next (s.withDev (s.dev.complete d .done s.dev.dt
      [wordN s.dev.grp.epoch, wordN s.dev.grp.view, s.dev.grpStatWord, lo64 s.dev.grp.frontier]))) ∧
    (s.dev.addrOk d (d.w64 3) s.dev.snapBytes.length = true →
      exec (.grpSnapshotRead d) s = .next (s.withDev ((s.dev.hostWrite d (d.w64 3) s.dev.snapBytes).complete d .done
        s.dev.dt [wordN s.dev.snapBytes.length, snapCrc s.dev.snapBytes])))

/-- HEARTBEAT_SEND, HEARTBEAT_RECEIVED, EVENT_RECORD_RECEIVED, GAP_RETX, RETX_RECEIVED (10 R229-R232): a member in
sync sends its heartbeat at its instant of the millisecond, ends its leaving after the third, or starts the change its
view calls for and looks at what it can commit; a heartbeat and an event record of an enabled node are taken from the
front of the delivered records; an open gap asks for its records once; asked-for own records are sent again. The
view-change rows complete with their own effect (10 R234-R236): a peer of the view not heard for 3 ms is lost and
starts a change; a FLUSH is answered, and kept for the change under way, or for the next one where it names this node
or follows the closed round; waits and timeouts start the next step; EPOCH_START is kept when it fits and applied once
everything it needs is held. Where the spec leaves a reading open, the model's choice is that of log entries 28, 30,
31 and 32. -/
def Obligations.GroupRecordsComplete : Prop :=
  (∀ (s : State), s.dev.powered 5 = true → s.dev.grpRuns = true →
    (∀ y, s.dev.hasGrp = true → s.dev.grp.en = true → s.dev.stl.sync = true →
      (s.dev.grp.member = true ∨ s.dev.grp.joining = true ∨ s.dev.grp.leaving.isSome = true) →
      s.dev.dt % 1000000 = s.dev.grp.node * 62500 →
      y = (s.dev.groupSend s.dev.ownHeartbeat.bytes).setGrp (fun g => { g with leaving := g.leaving.map (· + 1) }) →
      ((3 ≤ y.grp.leaving.getD 0 ∧ (y.grp.member = false ∨ y.grp.view = 2 ^ y.grp.node)) →
        exec .heartbeatSend s = .next (s.withDev y.finishLeave)) ∧
      (¬ (3 ≤ y.grp.leaving.getD 0 ∧ (y.grp.member = false ∨ y.grp.view = 2 ^ y.grp.node)) →
        (y.viewTrigger = none → exec .heartbeatSend s = .next (s.withDev y.commitStep)) ∧
        (∀ c m, y.viewTrigger = some (c, m) → exec .heartbeatSend s = .next (s.withDev (y.trigger c m).commitStep)))) ∧
    (∀ r rest, s.dev.grp.inbox = r :: rest → s.dev.grp.en = true →
      ∀ y, y = s.dev.setGrp (fun g => { g with inbox := rest }) →
      (leAt r 0 1 = 1 → exec .heartbeatReceived s = .next (s.withDev (y.takeHeartbeat r))) ∧
      (∀ e, leAt r 0 1 = 2 → GroupEvent.ofBytes r = some e →
        exec .eventRecordReceived s = .next (s.withDev (y.takeEvent e))) ∧
      (leAt r 0 1 = 6 → leAt r 1 1 = s.dev.grp.node → exec .retxReceived s = .next (s.withDev
        ((s.dev.grp.log.filter (fun e => e.node == s.dev.grp.node &&
          decide ((e.gseq + 2 ^ 32 - leAt r 4 4) % 2 ^ 32 < leAt r 2 2))).foldl
            (fun (t : Dev) e => t.groupSend (e.bytes true)) y)))) ∧
    (∀ (n : Fin 16) q t l first past, (s.dev.peer n).marks = (q, t) :: l → (s.dev.peer n).asked = none →
      t + s.dev.fld Reg.stlSkewwin 4 0 * 1000 + 100000 ≤ s.dev.dt → first = ((s.dev.peer n).recv + 1) % 2 ^ 32 →
      past = (s.dev.peer n).beyond.foldl (fun a x => if seqAfter a x.gseq then x.gseq else a) ((q + 1) % 2 ^ 32) →
      exec (.gapRetx n) s = .next (s.withDev
        ((s.dev.modPeer n (fun p => { p with asked := some ((past + 2 ^ 32 - 1) % 2 ^ 32) })).groupSend
          (retxBytes n first ((past + 2 ^ 32 - first) % 2 ^ 32)))))) ∧
  (∀ (s : State), s.dev.powered 5 = true → s.dev.grpRuns = true →
    (∀ (n : Fin 16) h, (s.dev.peer n).hb = some h → s.dev.grp.member = true → tbit s.dev.grp.view n = true →
      (n : Nat) ≠ s.dev.grp.node →
      ((s.dev.peer n).hbAt + 3000000 ≤ s.dev.dt ∨ ∃ t, (s.dev.peer n).gapAt = some t ∧ t + 3000000 ≤ s.dev.dt) →
      exec (.grpPeerLost n) s = .next (s.withDev ((((s.dev.modPeer n (fun p => { p with hb := none, marks := [] })).event
        9 6 2 0 s.dev.dt [(n : Nat), h.hbT]).chrInc 8 (32 + n)).trigger 1 false))) ∧
    (∀ r rest f y, s.dev.grp.inbox = r :: rest → s.dev.grp.en = true → leAt r 0 1 = 3 →
      (Flush.ofBytes r).node < 16 → (Flush.ofBytes r).node ≠ s.dev.grp.node →
      y = s.dev.setGrp (fun g => { g with inbox := rest }) → f = y.flushCame (Flush.ofBytes r) →
      (∀ c, s.dev.grp.change = some c → c.start = none → exec .flushReceived s = .next (s.withDev
        (((y.setGrp (fun g => { g with flushes := putFlush f g.flushes })).resendBeyond f).roundCheck false))) ∧
      (∀ c, s.dev.grp.change = some c → c.start ≠ none →
        (c.closes s.dev.grp.epoch f = true → exec .flushReceived s = .next (s.withDev (y.resendBeyond f))) ∧
        (c.closes s.dev.grp.epoch f = false → exec .flushReceived s = .next (s.withDev
          ((y.setGrp (fun g => { g with later := putFlush f g.later })).resendBeyond f)))) ∧
      (s.dev.grp.change = none →
        (tbit f.proposed s.dev.grp.node = true → exec .flushReceived s = .next (s.withDev
          ((((y.setGrp (fun g => { g with flushes := putFlush f g.flushes })).resendBeyond f).joinRound f).roundCheck false))) ∧
        (tbit f.proposed s.dev.grp.node = false → exec .flushReceived s = .next (s.withDev (y.resendBeyond f))))) ∧
    (∀ r rest e c y, s.dev.grp.inbox = r :: rest → s.dev.grp.en = true → leAt r 0 1 = 4 → e = EpochStart.ofBytes r →
      tbit e.view s.dev.grp.node = true → s.dev.grp.change = some c → c.start = none → lowestOf c.proposed = e.coord →
      subMask e.view c.proposed = true → y = s.dev.setGrp (fun g => { g with inbox := rest }) →
      exec .epochStartReceived s = .next (s.withDev
        ((y.noteRefused e.coord ((nodesOf c.proposed).filter (fun n => (y.flushOf n).isSome)) e.view).setGrp
          (fun g => { g with change := some { c with start := some e, startAt := s.dev.dt } })))) ∧
    (∀ c, s.dev.grp.change = some c → c.start = none →
      (c.flushAt + 1000000 ≤ s.dev.dt → exec .flushWaitExpiry s = .next (s.withDev (s.dev.roundCheck true))) ∧
      (c.flushAt + 2000000 ≤ s.dev.dt → lowestOf c.proposed ≠ s.dev.grp.node →
        exec .epochStartTimeout s = .next (s.withDev ((s.dev.beginRound
          (nodeMask ((nodesOf c.proposed).filter (· != lowestOf c.proposed))) c.cause c.merge).roundCheck false)))) ∧
    (∀ c e, s.dev.grp.change = some c → c.start = some e →
      (c.startAt + 2000000 ≤ s.dev.dt → s.dev.startReady e = false →
        exec .cutTimeout s = .next (s.withDev s.dev.rejoin)) ∧
      (s.dev.startReady e = true → tbit e.view s.dev.grp.node = true → s.dev.grp.member = true →
        exec .epochStartApply s = .next (s.withDev (s.dev.applyStart e).nextChange)) ∧
      (s.dev.startReady e = true → tbit e.view s.dev.grp.node = true → s.dev.grp.member = false →
        exec .epochStartApply s = .next (s.withDev (s.dev.joinStart e).nextChange)) ∧
      (s.dev.startReady e = true → tbit e.view s.dev.grp.node = false →
        exec .epochStartApply s = .next (s.withDev
          (s.dev.setGrp (fun g => { g with change := none, flushes := [], later := [] }))))))

/-- The joining rows complete with their own effect (10 R243-R245): a chunk of a snapshot is kept, a whole one with a
good CRC is installed and completes the join at its epoch, an installation that lasts 50 ms is given up, and a group
is formed by the lowest joining node after 3 ms of quiet. Where the spec leaves a reading open, the model's choice is
that of log entries 28, 30, 31 and 32. -/
def Obligations.GroupJoinComplete : Prop :=
  ∀ (s : State), s.dev.powered 5 = true → s.dev.grpRuns = true →
    (∀ r rest, s.dev.grp.inbox = r :: rest → s.dev.grp.en = true → leAt r 0 1 = 5 → leAt r 1 1 < 16 →
      exec .snapReceived s = .next (s.withDev (((s.dev.setGrp (fun g => { g with inbox := rest })).keepChunk (leAt r 1 1)
        (leAt r 4 4) (leAt r 2 2) ((r.drop 8).take 1024)).roundCheck false))) ∧
    (∀ t b x y z, s.dev.grp.install = some t → s.dev.anySnapshot = some b → x = Snap.ofBytes b →
      y = (s.dev.install x).setGrp (fun g => { g with install := none, installed := true, snaps := [] }) →
      z = y.event 9 2 5 0 y.dt [b.length, x.trips.length, x.epoch] →
      exec .grpSnapshotDone s = .next (s.withDev ((((z.reevaluate z.grp.tS).settleEvent z.grp.tS).carStatus).sendWaiting.commitStep.completeJoin t))) ∧
    (∀ t, s.dev.grp.install = some t → t + 50000000 ≤ s.dev.dt →
      exec .installTimeout s = .next (s.withDev s.dev.rejoin)) ∧
    (s.dev.grp.en = true → s.dev.grp.joining = true → s.dev.grp.change = none → s.dev.grp.leaving = none →
      s.dev.grp.quietAt + 3000000 ≤ s.dev.dt →
      lowestOf (nodeMask s.dev.joiners) = s.dev.grp.node →
      exec .groupFormation s = .next (s.withDev (s.dev.trigger 7 false)))

/-- The port rows complete with their own effect (11 R253, R260, R264): PORT_RECOVERY puts a port back with its paths
failed after 10 ms, HOST_FRAME_START sends the oldest frame on the ports named and completes STL_TX, SENDER_FORGET
forgets a sender not heard for 3 ms, PTP_SYNC_SEND of a grandmaster sends Sync and Follow_Up on each port in use once
its interval has passed; a gPTP message of domain 0 on a port in use announces a clock to the selection, opens a
synchronisation in two steps, ends it with its offset, is a delay request that is answered, or completes a delay
measurement (the readings of IEEE 802.1AS are the model's choice, log entry 33); a link change sets the port's status
and has the ledger judge a changed rate (14 R326). Where the spec leaves a reading open, the model's choice is that of
log entry 33. -/
def Obligations.PortRowsComplete : Prop :=
  ∀ (s : State), s.dev.powered 8 = true →
    (∀ b, (s.dev.port b).link = true → (s.dev.port b).failed = true → s.dev.portOn b = true →
      (s.dev.port b).upSince + 10000000 ≤ s.dev.dt →
      exec (.portRecovery b) s = .next (s.withDev ((List.range 16).foldl (fun (t : Dev) n =>
          t.setSender n ((t.stlSender n).setPath b ⟨[], true⟩))
        (s.dev.setPort b { s.dev.port b with failed := false })))) ∧
    (∀ x rest, s.dev.stl.tx = x :: rest → x.ports &&& s.dev.stlPorts ≠ 0 → s.dev.tlg.bwLost = 0 →
      exec .hostFrameStart s = .next (s.withDev (((s.dev.setStl (fun t => { t with tx := rest })).emit
        (.hostFrame (x.ports &&& s.dev.stlPorts) x.bytes)).complete x.desc .done s.dev.dt
          [lo64 s.dev.dt, hi64 s.dev.dt]))) ∧
    (∀ x y, s.dev.nextFrame = some x → x.ports &&& s.dev.stlPorts ≠ 0 →
      y = [false, true].foldl (Dev.payPort x) (s.dev.setStl (fun t => { t with tx := t.tx.erase x })) →
      exec .hostFrameStart s = .next (s.withDev ((y.emit (.hostFrame (x.ports &&& s.dev.stlPorts) x.bytes)).complete x.desc
        .done y.dt [lo64 y.dt, hi64 y.dt]))) ∧
    (∀ n : Fin 16, (s.dev.stlSender n).known = true → (s.dev.stlSender n).lastValid + 3000000 ≤ s.dev.dt →
      exec (.senderForget n) s = .next (s.withDev (s.dev.setSender n { s.dev.stlSender n with
        known := false, windows := [], invalid := [], history := [] }))) ∧
    (s.dev.stl.gm = true → s.dev.syncDue = true →
      exec .ptpSyncSend s = .next (s.withDev (((s.dev.setStl (fun t => { t with
        syncAt := some s.dev.dt, ptpSeq := (s.dev.stl.ptpSeq + 1) % 2 ^ 16 })).sendSync false s.dev.stl.ptpSeq).sendSync true
          s.dev.stl.ptpSeq))) ∧
    (∀ b seq sfd t, s.dev.portUse b = true → t = sfd / 8 * 8 - s.dev.rxLat b →
      (∀ two v, v.source ≠ s.dev.clockId → v.steps < 255 → exec (.ptpMessageReceived b 0 seq two (.announce v) sfd) s =
        .next (s.withDev (s.dev.modPtp b (fun p => { p with announced := some (v, s.dev.time) })).ptpSelect)) ∧
      (∀ src, s.dev.stl.slave = some b → (s.dev.ptp b).announced.map (·.1.source) = some src →
        exec (.ptpMessageReceived b 0 seq true (.sync src) sfd) s =
          .next (s.withDev (s.dev.modPtp b (fun p => { p with sync := some (src, seq, t) })))) ∧
      (∀ two src origin corr r delay, (s.dev.ptp b).sync = some (src, seq, r) → (s.dev.ptp b).delay = some delay →
        s.dev.stl.slave = some b → exec (.ptpMessageReceived b 0 seq two (.followUp src origin corr) sfd) s = .next (s.withDev
          ((s.dev.modPtp b (fun p => { p with sync := none })).synchronise ((r : Int) - (origin + corr + delay))))) ∧
      (∀ two src, exec (.ptpMessageReceived b 0 seq two (.pdelayReq src) sfd) s = .next (s.withDev
        ((s.dev.ptpSend b (.pdelayResp s.dev.clockId t) seq).ptpSend b
          (.pdelayRespFollowUp s.dev.clockId (s.dev.egress b)) seq))) ∧
      (∀ two src origin t1 t2 t4, (s.dev.ptp b).reqAt = some t1 → (s.dev.ptp b).resp = some (t2, t4) →
        (s.dev.ptp b).reqSeq = seq → exec (.ptpMessageReceived b 0 seq two (.pdelayRespFollowUp src origin) sfd) s = .next
          (s.withDev (s.dev.modPtp b (fun p => { p with
            reqAt := none, resp := none, delay := some ((((t4 : Int) - t1) - ((origin : Int) - t2)) / 2) })).ptpSelect))) ∧
    (∀ b up full speed y, y = s.dev.portStatus b up full speed →
      (y.portRate b = s.dev.portRate b → exec (.portLinkChange b up full speed) s = .next (s.withDev y)) ∧
      (y.portRate b ≠ s.dev.portRate b → y.portFails y.tlg.duties b = false →
        exec (.portLinkChange b up full speed) s = .next (s.withDev
          (y.setTlg (fun x => { x with bwLost := putBit x.bwLost (b2n b) false })))) ∧
      (y.portRate b ≠ s.dev.portRate b → y.portFails y.tlg.duties b = true → tbit y.tlg.bwLost (b2n b) = false →
        exec (.portLinkChange b up full speed) s = .next (s.withDev
          ((y.setTlg (fun x => { x with bwLost := putBit x.bwLost (b2n b) true })).event 2 6 6 0xFFFF y.dt
            [1 + (b2n b : Int), y.portRate b, y.portMbps b]))))

/-- The two copies of a group frame (11 R257, R258): a valid, acceptable copy on a port in use is taken as a copy of
its sequence, one that is not acceptable sets SEQ_ERR; a copy whose FCS is wrong counts against its sequence; a copy
whose payload check fails sets PCRC_ERR and counts against its sequence, each once the windows whose edge has passed
have closed; a window whose closing edge has passed delivers an undelivered copy and marks the other path missing.
Where the spec leaves a reading open, the model's choice is that of log entry 33. -/
def Obligations.GroupFrameCopiesComplete : Prop :=
  ∀ (s : State), s.dev.powered 8 = true →
    (∀ b bytes n sseq len pcrc record z, s.dev.hasGrp = true → s.dev.portUse b = true →
      leAt bytes 2 2 = s.dev.grp.groupId → n = leAt bytes 1 1 → n < 16 → z = s.dev.closePast n → sseq = leAt bytes 4 4 → len = leAt bytes 8 2 →
      pcrc = leAt bytes 12 4 → record = (bytes.drop 16).take len →
      (leAt bytes 0 1 = 1 → len = msgLen (leAt record 0 1) → len ≠ 0 → pcrc = (crc32 (bytes.take 12 ++ record)).toNat →
        ((z.stlSender n).accepts sseq = true →
          exec (.groupFrameCopyReceived b true bytes) s = .next (s.withDev (z.validCopy n b sseq len pcrc record))) ∧
        ((z.stlSender n).accepts sseq = false →
          exec (.groupFrameCopyReceived b true bytes) s = .next (s.withDev
            ((z.setStl (fun t => { t with seqErr := satInc 16 t.seqErr })).setBit Reg.stlStat 4 true)))) ∧
      (∀ y, (leAt bytes 0 1 ≠ 1 ∨ len ≠ msgLen (leAt record 0 1) ∨ len = 0 ∨
          pcrc ≠ (crc32 (bytes.take 12 ++ record)).toNat) →
        y = (z.setStl (fun t => { t with pcrcErr := satInc 16 t.pcrcErr })).setBit Reg.stlStat 3 true →
        exec (.groupFrameCopyReceived b true bytes) s = .next (s.withDev
          (if (y.stlSender n).accepts sseq then y.invalidCopy n b sseq else y))) ∧
      (exec (.groupFrameCopyReceived b false bytes) s = .next (s.withDev
        (if (z.stlSender n).accepts sseq then z.invalidCopy n b sseq else z)))) ∧
    (∀ (n : Fin 16) w rest y, s.dev.pastWindows n = w :: rest →
      y = (if w.delivered then s.dev.dropWindow n w.sseq
        else (s.dev.dropWindow n w.sseq).deliver n w.sseq w.len w.pcrc w.closes w.record) →
      exec (.skewWindowClose n) s = .next (s.withDev
        ((y.markPath n w.portB true w.sseq).markPath n (!w.portB) false w.sseq)))

/-- The host-frame rows complete with their own effect (11 R264, R270): a frame the host takes enters its port's FIFO,
one too many is dropped and counted, the first with its event; STL_TX and STL_RX wait; STL_STATUS answers; a write of
STL_CFG while EN = 0 sets the fields and enables or disables the ports. Where the spec leaves a reading open, the
model's choice is that of log entry 33. -/
def Obligations.HostFramesComplete : Prop :=
  ∀ (s : State), s.dev.powered 8 = true →
    (∀ b bytes sfd, s.dev.portUse b = true → s.dev.hostTakes bytes = true →
      (if b then s.dev.stl.fifoB else s.dev.stl.fifoA).length < 32 →
      exec (.hostFrameReceived b bytes sfd) s = .next (s.withDev (s.dev.setStl (fun t => if b
        then { t with fifoB := t.fifoB ++ [⟨bytes, sfd⟩] } else { t with fifoA := t.fifoA ++ [⟨bytes, sfd⟩] })).feedRx)) ∧
    (∀ b bytes sfd y, s.dev.portUse b = true → s.dev.hostTakes bytes = true →
      32 ≤ (if b then s.dev.stl.fifoB else s.dev.stl.fifoA).length →
      y = s.dev.setStl (fun t => if b then { t with dropsB := t.dropsB + 1 } else { t with dropsA := t.dropsA + 1 }) →
      (s.dev.bit Reg.stlStat 2 = true → exec (.hostFrameReceived b bytes sfd) s = .next (s.withDev y)) ∧
      (s.dev.bit Reg.stlStat 2 = false → exec (.hostFrameReceived b bytes sfd) s = .next (s.withDev
        ((y.setBit Reg.stlStat 2 true).event 10 4 0x0109 0 s.dev.dt
          [(b2n b : Int), if b then y.stl.dropsB else y.stl.dropsA])))) ∧
    (∀ d frame y b, s.dev.isInFlight d = true → s.dev.hiu.d3hot = false → d.object = 0 → y = s.dev.charge d.qp frame.length → 60 ≤ bitsOf (d.w 5) 10 0 →
      bitsOf (d.w 5) 10 0 ≤ 1518 → bitsOf (d.w 5) 17 16 ≠ 0 → b = (y.fetch d (d.w64 3) frame).take (bitsOf (d.w 5) 10 0) →
      reservedType b = false → y.addrOk d (d.w64 3) (bitsOf (d.w 5) 10 0) = true →
      exec (.stlTx d frame) s = .next (s.withDev (y.setStl (fun t => { t with
        tx := t.tx ++ [⟨d, b, bitsOf (d.w 5) 17 16⟩] })))) ∧
    (∀ d, s.dev.isInFlight d = true → d.object = 0 → s.dev.addrOk d (d.w64 3) 1536 = true →
      exec (.stlRx d) s = .next (s.withDev (s.dev.setStl (fun t => { t with rxWait := t.rxWait ++ [d] })).feedRx)) ∧
    (∀ d, s.dev.isInFlight d = true → d.object = 0 → exec (.stlStatus d) s = .next (s.withDev (s.dev.complete d .done s.dev.dt
      [s.dev.stlStatWord, s.dev.pathFailWord, wordI s.dev.stl.offset, lo64 s.dev.stl.gmId]))) ∧
    (∀ v w y, s.dev.powered 7 = true → s.dev.hiu.d3hot = false → bitOf (s.dev.reg Reg.stlCfg) 0 = false →
      w = writeBits (s.dev.reg Reg.stlCfg) v 0xF31 0 →
      y = (s.dev.setReg Reg.stlCfg w).portEnable false (bitOf (s.dev.reg Reg.stlCfg) 4) (bitOf w 4) →
      exec (.stlCfgWrite v) s = .next (s.withDev (y.portEnable true (bitOf (s.dev.reg Reg.stlCfg) 5) (bitOf w 5))))

/-- The CAN rows complete with their own effect (11 R265-R268): a frame sets the error count and state, and one that a
filter accepts enters the receive FIFO with its time in units of 10 ns, and is the fixture duty's to read where its
queue pair is LOCAL, or, with the FIFO full, is dropped and counted; an attempt that succeeds writes its record's TIME
and completes CAN_TX, one that fails is tried again, or ends TIMEOUT one-shot and FLUSHED with EN cleared, and a count
above 255 is bus-off; bus-off recovery restores the controller; CAN_TX, CAN_RX and CAN_RECOVER of a controller present
act on it; a write of CAN_CFG while EN = 0 sets the fields. The SPI rows complete with their own effect (11 R269): a
port that runs begins its period at its frame with the program staged, which completes SPI_PROG, the bytes of its
transactions are kept with the sample instant, SPI_PROG stages a program that fits, SPI_READ writes the bytes out, and
a write of SPI_CFG that starts a fitting program sets the port running. Where the spec leaves a reading open, the
model's choice is that of log entry 33. -/
def Obligations.CanSpiRowsComplete : Prop :=
  (∀ (s : State), s.dev.powered 8 = true →
    (∀ (n : Fin 4) f t r y z, s.dev.canOn n = true → (s.dev.can n).state < 2 →
      (CanFrame.fdf f = true → s.dev.bit (Reg.canCfg n) 1 = true) →
      y = s.dev.modCan n (fun c => { c with rec_ := min 255 r }) →
      z = y.canState n (canErrState (y.can n).tec r) →
      ((List.range 32).find? (fun k => z.canMatch n k f) = none →
        exec (.canFrameReceived n f t r) s = .next (s.withDev z)) ∧
      (∀ k q, (List.range 32).find? (fun k => z.canMatch n k f) = some k →
        q = (if bitOf (z.reg (Reg.canFid n k)) 31 then z.fld (Reg.canCfg n) 30 24 else z.fld (Reg.canCfg n) 22 16) →
        ((z.can n).rx.length < 64 → exec (.canFrameReceived n f t r) s = .next (s.withDev
          (((z.modCan n (fun c => { c with rx := c.rx ++ [⟨f, k, q, t / 10 * 10⟩] })).fixtureFrame q f.id f.flags f.data
            (t / 10 * 10)).canFeed n))) ∧
        (64 ≤ (z.can n).rx.length → ∀ w, w = z.modCan n (fun c => { c with dropped := satInc 16 c.dropped }) →
          exec (.canFrameReceived n f t r) s = .next (s.withDev (if w.bit (Reg.canStat n) 20 then w
            else (w.setBit (Reg.canStat n) 20 true).event 10 4 0x0202 n w.dt [((w.can n).dropped : Int)]))))) ∧
    (∀ (n : Fin 4) ok x tec r y g z, (s.dev.can n).tx.find? (·.attempt.isSome) = some x → x.abort = none →
      y = s.dev.modCan n (fun c => { c with tec := min 255 tec, rec_ := min 255 r }) →
      g = y.modCan n (fun c => { c with tx := c.tx.filter (fun y => y.order != x.order) }) →
      z = (if ok then (g.hostWrite x.desc (x.desc.w64 3 + 8) (leBytes 8 y.dt)).complete x.desc .done (x.attempt.getD y.dt)
          [lo64 y.dt, hi64 y.dt]
        else if !y.canOn n then g.fail x.desc .flushed else if y.bit (Reg.canCfg n) 5 then g.fail x.desc .timeout
        else y.modCan n (fun c => { c with tx := c.tx.map (fun y => { y with attempt := none }) })) →
      exec (.canTxAttemptEnd n ok tec r) s = .next (s.withDev
        (if 255 < tec then z.canBusOff n else (z.canState n (canErrState tec r)).canStart n))) ∧
    (∀ n : Fin 4, (s.dev.can n).state = 3 → exec (.canBusoffRecovery n) s = .next (s.withDev
      (((s.dev.modCan n (fun c => { c with tec := 0, rec_ := 0 })).canState n 0).canStart n))) ∧
    (∀ d img y f, s.dev.isInFlight d = true → s.dev.hiu.d3hot = false → y = s.dev.charge d.qp img.length → y.canCheck d = none → f = CanFrame.ofBytes (y.fetch d (d.w64 3) img) →
      y.addrOk d (d.w64 3) 80 = true → canLenOk (CanFrame.fdf f) (leAt (y.fetch d (d.w64 3) img) 5 1) = true →
      (CanFrame.fdf f = true → y.bit (Reg.canCfg (bitsOf d.object 7 0)) 1 = true) →
      (CanFrame.brs f = true → y.bit (Reg.canCfg (bitsOf d.object 7 0)) 2 = true) →
      y.bit (Reg.canCfg (bitsOf d.object 7 0)) 4 = false →
      exec (.canTx d img) s = .next (s.withDev ((y.modCan (bitsOf d.object 7 0) (fun c => { c with
        order := c.order + 1, tx := c.tx ++ [⟨d, f, c.order, none, none⟩] })).canStart (bitsOf d.object 7 0)))) ∧
    (∀ d, s.dev.isInFlight d = true → s.dev.canCheck d = none →
      (s.dev.addrOk d (d.w64 3) 80 = true → exec (.canRx d) s = .next (s.withDev
        ((s.dev.modCan (bitsOf d.object 7 0) (fun c => { c with rxWait := c.rxWait ++ [d] })).canFeed (bitsOf d.object 7 0)))) ∧
      (∀ y, y = (if (s.dev.can (bitsOf d.object 7 0)).state = 2 then s.dev.canState (bitsOf d.object 7 0) 3 else s.dev) →
        exec (.canRecover d) s = .next (s.withDev (y.complete d .done s.dev.dt
          [wordN (min 255 (s.dev.can (bitsOf d.object 7 0)).tec), wordN (s.dev.can (bitsOf d.object 7 0)).rec_])))) ∧
    (∀ (n : Fin 4) v, s.dev.powered 7 = true → s.dev.hiu.d3hot = false → (n : Nat) < s.dev.cans →
      bitOf (s.dev.reg (Reg.canCfg n)) 0 = false → (s.dev.can n).state ≠ 2 →
      exec (.canCfgWrite n v) s = .next (s.withDev ((s.dev.setReg (Reg.canCfg n)
        (writeBits (s.dev.reg (Reg.canCfg n)) v 0x7F7FFF3F 0)).canStart n)))) ∧
  (∀ (s : State), s.dev.powered 8 = true →
    (∀ m : Fin 2, (s.dev.spi m).run = true → (s.dev.spi m).period = none → (s.dev.spi m).stopAsked = false →
      s.dev.spiDue m = true → ∀ y, y = (s.dev.modSpi m (fun x => { x with
        program := x.next, staged := none, period := some s.dev.dt })).emit (.spiRun m
        (s.dev.fld (Reg.spiCfg m) 2 1) (((s.dev.spi m).next.take (s.dev.fld (Reg.spiCfg m) 27 24)).map (fun t => (t.cs, t.bytes)))) →
      ((s.dev.spi m).staged = none → exec (.spiPeriod m) s = .next (s.withDev y)) ∧
      (∀ p d, (s.dev.spi m).staged = some (p, d) →
        exec (.spiPeriod m) s = .next (s.withDev (y.complete d .done y.dt [])))) ∧
    (∀ (m : Fin 2) bytes t, (s.dev.spi m).period = some t →
      t + spiTime (s.dev.fld (Reg.spiCfg m) 15 8) ((s.dev.spi m).program.take (s.dev.fld (Reg.spiCfg m) 27 24)) ≤ s.dev.dt →
      exec (.spiTransactionsComplete m bytes) s = .next (s.withDev (s.dev.modSpi m (fun x => { x with
        result := bytes.take (((s.dev.spi m).program.take (s.dev.fld (Reg.spiCfg m) 27 24)).foldl
          (fun a x => a + x.bytes.length) 0), sampleAt := t + 100, period := none, run := x.run && !x.stopAsked,
        stopAsked := false })))) ∧
    (∀ d img y p m, s.dev.isInFlight d = true → s.dev.hiu.d3hot = false → m = d.object.toNat → m < 2 → y = s.dev.charge d.qp img.length →
      spiParse (bitsOf (y.reg (Reg.spiCfg m)) 27 24) (y.fetch d (d.w64 3) img) = some p →
      y.addrOk d (d.w64 3) (36 * bitsOf (y.reg (Reg.spiCfg m)) 27 24) = true → spiFits (y.reg (Reg.spiCfg m)) p = true →
      (y.spi m).staged = none →
      exec (.spiProg d img) s = .next (s.withDev (y.modSpi m (fun x => { x with staged := some (p, d) })))) ∧
    (∀ d x, s.dev.isInFlight d = true → d.object.toNat < 2 → x = s.dev.spi d.object.toNat → s.dev.addrOk d (d.w64 3) x.result.length = true →
      exec (.spiRead d) s = .next (s.withDev ((s.dev.hostWrite d (d.w64 3) x.result).complete d .done s.dev.dt
        [lo64 x.sampleAt, hi64 x.sampleAt, wordN x.result.length]))) ∧
    (∀ (m : Fin 2) v w, s.dev.powered 7 = true → s.dev.hiu.d3hot = false →
      bitOf (s.dev.reg (Reg.spiCfg m)) 0 = false → w = writeBits (s.dev.reg (Reg.spiCfg m)) v 0xF3FFF07 0 →
      bitOf w 0 = true → spiFits w (s.dev.spi m).next = true →
      exec (.spiCfgWrite m v) s = .next (s.withDev ((s.dev.setReg (Reg.spiCfg m) w).modSpi m (fun x => { x with
        run := true, stopAsked := false })))))

/-- The engine rows complete with their own effect (12 R275, R277-R281, 14 R314, R326): a duty at its release instant
has its inputs read and its copies released; the first valid copy of a period is forwarded, an equal second one
changes nothing, a different one counts a mismatch and waits for the re-execution, a copy that is not valid is
dropped; a deadline closes the period and one without a copy counts NO_OUT; the re-executed output decides which
copies are suspect; an engine in service fail-stops, and all of its cluster on cause 5; a job that has run its cost is
stopped and counted. The engine and cluster commands complete with their own effect (12 R292, R293): ENG_STATUS
answers, a cluster that is down is DOWN at once, one that is up asks the ledger and the last one of clusters 0 and 1
is refused, a cluster that is up is UP at once and one that is down rises, CLUSTER_UP_COMPLETE brings its engines into
service. Where the spec leaves a reading open, the model's choice is that of log entry 34. -/
def Obligations.EngineRowsComplete : Prop :=
  (∀ (s : State),
    (∀ id d k y input src state, s.dev.powered 6 = true → s.dev.duty id = some d → s.dev.dutyKernel d.desc = some k →
      s.dev.pmu.suspended = false → s.dev.releasesNow d = true → (d.primary <|> d.standby) = some src →
      y = s.dev.closePeriod id → input = y.inputWords d.desc.inAddr k.inLen →
      state = y.areaWords (src.moved.getD (src.engine, src.base)).1
        ((src.moved.getD (src.engine, src.base)).2 + k.stateOfs) k.stateLen →
      exec (.dutyRelease id) s = .next (s.withDev
        ((((y.setPeriod id (some ⟨d.desc, y.dt, y.dt + d.desc.deadline, input, state, none, none, false, none⟩)).releaseCopy
          d k input false).releaseCopy d k input true).setTlg (fun x => { x with
            duties := kput none x.duties id (some d.settled) })))) ∧
    (∀ c t, nextCopy s.dev.eng.committed = some c →
      t = ({ s.dev with eng := { s.dev.eng with committed := s.dev.eng.committed.erase c } } : Dev) →
      (s.dev.copyValid c = false → exec .arbiterCopyCommit s = .next (s.withDev t)) ∧
      (∀ p, s.dev.copyValid c = true → t.period c.job.desc.id = some p →
        (p.first = none → exec .arbiterCopyCommit s = .next (s.withDev
          ((t.setPeriod c.job.desc.id (some { p with first := some c })).forward c))) ∧
        (∀ f, p.first = some f → f.out = c.out → exec .arbiterCopyCommit s = .next (s.withDev t)) ∧
        (∀ f, p.first = some f → f.out ≠ c.out → exec .arbiterCopyCommit s = .next (s.withDev
          (Dev.setPeriod { t with eng := { t.eng with mismatches := satInc 16 t.eng.mismatches } } c.job.desc.id
            (some { p with differ := some c })))))) ∧
    (∀ id p y, s.dev.period id = some p → p.closed = false → p.deadline ≤ s.dev.dt →
      y = s.dev.setPeriod id (some { p with closed := true }) →
      (p.first.isSome = true → exec (.dutyDeadline id) s = .next (s.withDev y)) ∧
      (p.first = none → y.eng.committed.any (fun c => c.job.desc.id == id && y.copyValid c) = true →
        exec (.dutyDeadline id) s = .next (s.withDev y)) ∧
      (p.first = none → y.eng.committed.any (fun c => c.job.desc.id == id && y.copyValid c) = false →
        exec (.dutyDeadline id) s = .next (s.withDev
          ((Dev.event { y with eng := { y.eng with noOut := satInc 32 y.eng.noOut } } 12 8 4 0xFF p.deadline
            [(id : Int), p.release % 2 ^ 32]).chrInc 9 84)))) ∧
    (∀ id out state p f g r a b k y w z, s.dev.period id = some p → p.first = some f → p.differ = some g →
      s.dev.reexecute p f.job out state = some r → a = (if f.job.standby then g else f) → b = (if f.job.standby then f else g) →
      k = (if r.out = b.out then 1 else if r.out = a.out then 2 else 3) →
      y = (s.dev.keepRerun f.job.desc.level1 r).setPeriod id (some { p with differ := none }) →
      w = ({ y with eng := { y.eng with reexecs := satInc 16 y.eng.reexecs } } : Dev) →
      z = (w.event 12 6 2 0xFF y.dt [(id : Int), a.engine, b.engine, (k : Nat)]).chrInc 9 (79 + k) →
      exec (.reexecutionComplete id out state) s = .next (s.withDev (if k = 1 then z.suspect a r true
        else (if k = 2 then z else z.suspect a r true).suspect b r (k == 2)))) ∧
    (∀ (e : Fin 16) cause addr,
      (1 ≤ cause → cause ≤ 4 → s.dev.inService e = true →
        exec (.engFault e cause addr) s = .next (s.withDev (s.dev.engFail e cause addr))) ∧
      (exec (.engFault e 5 addr) s = .next (s.withDev ((List.range 4).foldl (fun (t : Dev) i =>
        if t.inService (4 * (e / 4) + i) then t.engFail (4 * (e / 4) + i) 5 addr else t) s.dev)))) ∧
    (∀ (e : Fin 16) l j n t u, (s.dev.engine e).run l = some j → j.cost ≤ (s.dev.engine e).ranFor l j s.dev.dt →
      n = satInc 32 (((s.dev.duty j.desc.id).map (·.overruns)).getD 0) →
      t = (((s.dev.setTlg (fun x => { x with
        duties := (match s.dev.duty j.desc.id with
          | some d => kput none x.duties j.desc.id (some { d with overruns := n })
          | none => x.duties)
        overruns := satInc 32 x.overruns })).event 2 6 3 j.desc.id s.dev.dt
          [((e : Nat) : Int), j.release % 2 ^ 32, (n : Nat)]).chrInc 9 96) →
      u = (match t.period j.desc.id with
        | some p => if j.desc.critical && p.release == j.release
          then t.setPeriod j.desc.id (some { p with overran := some ((e : Nat), j.base + j.kernel.stateOfs) }) else t
        | none => t) →
      exec (.tlgOverrun e l) s = .next (s.withDev (u.endJob e l)))) ∧
  (∀ (s : State),
    (∀ d, s.dev.isInFlight d = true → d.object = 0 → exec (.engStatus d) s = .next (s.withDev (s.dev.complete d .done s.dev.dt
      [s.dev.engStat, s.dev.engClusterWord, s.dev.engArb, s.dev.engEcc]))) ∧
    (∀ d c, s.dev.isInFlight d = true → c = bitsOf d.object 1 0 → c < s.dev.clusters → bitsOf d.object 31 2 = 0 →
      (s.dev.clusterUp c = false →
        exec (.engClusterDown d) s = .next (s.withDev (s.dev.complete d .done s.dev.dt [0]))) ∧
      (s.dev.clusterUp c = true → (c < 2 → s.dev.clusterUp (1 - c) = true) → s.dev.tlgBusy = false →
        s.dev.eng.falling = none →
        exec (.engClusterDown d) s = .next (s.withDev (s.dev.tlgAsk (.clusterDown c) d))) ∧
      (s.dev.clusterUp c = true → c < 2 → s.dev.clusterUp (1 - c) = false →
        exec (.engClusterDown d) s = .next (s.withDev (s.dev.fail d .refusedLedger))) ∧
      (kget none s.dev.eng.rising c = none → s.dev.clusterUp c = true →
        exec (.engClusterUp d) s = .next (s.withDev (s.dev.complete d .done s.dev.dt [wordN (s.dev.inServiceOf c)]))) ∧
      (kget none s.dev.eng.rising c = none → s.dev.clusterUp c = false →
        exec (.engClusterUp d) s = .next (s.withDev { s.dev with eng := { s.dev.eng with
          rising := kput none s.dev.eng.rising c (some (some d)) } }))) ∧
    (∀ (c : Fin 4) d y, kget none s.dev.eng.rising c = some d →
      y = ({ s.dev with eng := { s.dev.eng with rising := kput none s.dev.eng.rising c none } } : Dev) →
      exec (.clusterUpComplete c) s = .next (s.withDev ((((y.clusterOn c).event 12 2 5 0xFF s.dev.dt
        [(c : Nat), 1, 0]).setTlg (fun x => { x with replace := true })).completeOpt d .done (y.clusterOn c).dt [wordN 4]))))

/-- ENG_RESTART (12 R293): the local memories of a FAULTED or RETIRED engine are zero-filled; when its test passes it
is in service again and the command completes DONE, when it fails it stays out and the command completes HW_FAULT, and
an engine in service completes RECONFIG_BUSY. -/
def Obligations.EngineRestartRule : Prop :=
  ∀ (s : State) (d : Desc) (test e : Nat) (x : Engine), s.dev.isInFlight d = true → e = bitsOf d.object 3 0 → e < s.dev.engines →
    bitsOf d.object 31 4 = 0 → x = s.dev.engine e →
    (x.state = 2 ∨ x.state = 3 → test = 0 → exec (.engRestart d test) s = .next (s.withDev (((s.dev.setEngine e { x with
      state := 1, level1 := false, run0 := none, run1 := none, waiting := [], mem := [], code0 := [], code1 := [] }).setTlg
        (fun x => { x with replace := true })).complete d .done s.dev.dt [0]))) ∧
    (x.state = 2 ∨ x.state = 3 → test ≠ 0 → exec (.engRestart d test) s = .next (s.withDev
      ((s.dev.setEngine e { x with mem := [], code0 := [], code1 := [] }).complete d .hwFault s.dev.dt [wordN test]))) ∧
    (x.state = 1 → exec (.engRestart d test) s = .next (s.withDev (s.dev.fail d .reconfigBusy)))

/-- The Voler rows run (13 R302, R305, R306, Table 13-3): when an instruction is the one its job has next on an engine
in service, its row executes it: an instruction other than END whose accesses stay inside the region changes the
engine's bank and memory by its effect and goes on to its next word; one that reaches outside stops the engine, and
only a load, a store, MACM and TAPX can; END commits. The row of each instruction is named. -/
def Obligations.VolerRowsRun : Prop :=
  ∀ (s : State) (e : Fin 16), (∀ (j : Job) (l : Bool) (i : Voler), s.dev.nextVoler e = some (j, l, i) →
    (∀ c, i ≠ .end_ →
      Ctx.exec ⟨(s.dev.engine e).bank l, (s.dev.engine e).mem, j.base, j.kernel.region⟩ i = some c →
      exec (volerRow e i) s = .next (s.withDev
        (s.dev.setEngine e { (s.dev.engine e).setBank l (c.x.advance i) with mem := c.mem }))) ∧
    (i ≠ .end_ →
      Ctx.exec ⟨(s.dev.engine e).bank l, (s.dev.engine e).mem, j.base, j.kernel.region⟩ i = none →
      exec (volerRow e i) s = .next (s.withDev (s.dev.engFail e 3 ((s.dev.engine e).bank l).pc))) ∧
    (Ctx.exec ⟨(s.dev.engine e).bank l, (s.dev.engine e).mem, j.base, j.kernel.region⟩ i = none →
      (∃ d a, i = .ld d a) ∨ (∃ d a, i = .st d a) ∨ (∃ d f a b, i = .ld2 d f a b) ∨ (∃ a r m, i = .sta a r m) ∨
      (∃ a sub clr x m, i = .macm a sub clr x m) ∨ (∃ a sub mv pc pd dm dk xm dir, i = .tapx a sub mv pc pd dm dk xm dir)) ∧
    (i = .end_ → exec (.vEnd e) s = .next (s.withDev (s.dev.jobEnds e j l)))) ∧
    (
      volerRow e .nop = .vNop e ∧ (∀ k len n, volerRow e (.loop k len n) = .vLoop e k len n) ∧
      volerRow e .end_ = .vEnd e ∧ (∀ d imm, volerRow e (.ldi d imm) = .vLdi e d imm) ∧
      (∀ d imm, volerRow e (.ldih d imm) = .vLdih e d imm) ∧
      (∀ c i rel imm, volerRow e (.lda c i rel imm) = .vLda e c i rel imm) ∧
      (∀ c i toD d, volerRow e (.mva c i toD d) = .vMva e c i toD d) ∧ (∀ d x, volerRow e (.mov d x) = .vMov e d x) ∧
      (∀ d x t cond, volerRow e (.sel d x t cond) = .vSel e d x t cond) ∧
      (∀ d am, volerRow e (.ld d am) = .vLd e d am) ∧ (∀ d am, volerRow e (.st d am) = .vSt e d am) ∧
      (∀ d d2 am1 am2, volerRow e (.ld2 d d2 am1 am2) = .vLd2 e d d2 am1 am2) ∧
      (∀ a r am, volerRow e (.sta a r am) = .vSta e a r am) ∧
      (∀ d x t sat, volerRow e (.add d x t sat) = .vAdd e d x t sat) ∧
      (∀ d x t sat, volerRow e (.sub d x t sat) = .vSub e d x t sat) ∧
      (∀ d x sat, volerRow e (.neg d x sat) = .vNeg e d x sat) ∧
      (∀ d x sat, volerRow e (.abs d x sat) = .vAbs e d x sat) ∧ (∀ d x t, volerRow e (.and d x t) = .vAnd e d x t) ∧
      (∀ d x t, volerRow e (.or d x t) = .vOr e d x t) ∧ (∀ d x t, volerRow e (.xor d x t) = .vXor e d x t) ∧
      (∀ d x sat k, volerRow e (.shl d x sat k) = .vShl e d x sat k) ∧
      (∀ d x k, volerRow e (.shr d x k) = .vShr e d x k) ∧ (∀ x t, volerRow e (.cmp x t) = .vCmp e x t) ∧
      (∀ d x t, volerRow e (.min d x t) = .vMin e d x t) ∧ (∀ d x t, volerRow e (.max d x t) = .vMax e d x t) ∧
      (∀ d x sat imm, volerRow e (.addi d x sat imm) = .vAddi e d x sat imm) ∧
      (∀ a sub clr x t, volerRow e (.mac a sub clr x t) = .vMac e a sub clr x t) ∧
      (∀ a sub clr x t u v, volerRow e (.mac2 a sub clr x t u v) = .vMac2 e a sub clr x t u v) ∧
      (∀ a b x t u v subA subB, volerRow e (.dmac a b x t u v subA subB) = .vDmac e a b x t u v subA subB) ∧
      (∀ a sub clr x am, volerRow e (.macm a sub clr x am) = .vMacm e a sub clr x am) ∧
      (∀ a sub move pc pd dm dk xm dir, volerRow e (.tapx a sub move pc pd dm dk xm dir) = .vTapx e a sub move pc pd dm dk xm dir) ∧
      (∀ a b sub, volerRow e (.adda a b sub) = .vAdda e a b sub) ∧
      (∀ a x pos, volerRow e (.accld a x pos) = .vAccld e a x pos) ∧ (∀ a k, volerRow e (.ash a k) = .vAsh e a k) ∧
      (∀ a r view d, volerRow e (.rda a r view d) = .vRda e a r view d) ∧ (∀ d, volerRow e (.rdesr d) = .vRdesr e d) ∧
      (∀ clear mask val, volerRow e (.wresr clear mask val) = .vWresr e clear mask val))

/-- The arithmetic of the ALU group (12 R287, 13 Table 13-3): ADD, SUB, NEG, ABS, SHL and ADDI write the exact result,
with sat = 1 clamped to int24 with S set on a clamp and with sat = 0 wrapped; S is never cleared by them, and every
other data register, every accumulator, every pointer and all of memory keep their values. -/
def Obligations.VolerAluResults : Prop :=
  ∀ (c : Ctx) (d x t : Fin 16) (sat : Bool) (k : Fin 24) (imm : BitVec 12) (i : Voler) (v : Int),
    ((i = .add d x t sat ∧ v = c.x.dVal x + c.x.dVal t) ∨ (i = .sub d x t sat ∧ v = c.x.dVal x - c.x.dVal t) ∨
     (i = .neg d x sat ∧ v = -c.x.dVal x) ∨ (i = .abs d x sat ∧ v = (c.x.dVal x).natAbs) ∨
     (i = .shl d x sat k ∧ v = c.x.dVal x * 2 ^ (k : Nat)) ∨ (i = .addi d x sat imm ∧ v = c.x.dVal x + imm.toInt)) →
    ∃ u, c.exec i = some u ∧
      u.x.dReg d = (if sat then BitVec.ofInt 24 (satS 24 v) else BitVec.ofInt 24 v) ∧
      (∀ y : Fin 16, y ≠ d → u.x.dReg y = c.x.dReg y) ∧
      u.x.flag 13 = (c.x.flag 13 || (sat && satS 24 v != v)) ∧
      u.x.a = c.x.a ∧ u.x.p = c.x.p ∧ u.x.n = c.x.n ∧ u.x.m = c.x.m ∧ u.x.b = c.x.b ∧ u.mem = c.mem

/-- The multiply-accumulate group (12 R284, R285, 13 Table 13-3): MAC, MAC2 and ADDA put the exact sum into
accumulator a; when it lies outside int56 flag V of that accumulator is set, and with saturation on it is clamped;
every data register, every other accumulator and all of memory keep their values. -/
def Obligations.VolerAccumulates : Prop :=
  ∀ (c : Ctx) (a b : Fin 4) (sub clr : Bool) (x t p q : Fin 16) (i : Voler) (v : Int),
    ((i = .mac a sub clr x t ∧
        v = c.x.accBase a clr + signed sub (c.x.product (c.x.dVal x) (c.x.dVal t))) ∨
     (i = .mac2 a sub clr x t p q ∧
        v = c.x.accBase a clr + signed sub (c.x.product (c.x.dVal x) (c.x.dVal t) + c.x.product (c.x.dVal p) (c.x.dVal q))) ∨
     (i = .adda a b sub ∧ v = (c.x.acc a).toInt + signed sub (c.x.acc b).toInt)) →
    ∃ u, c.exec i = some u ∧
      u.x.acc a = BitVec.ofInt 56 (if (v < -(2 ^ 55) ∨ 2 ^ 55 - 1 < v) ∧ c.x.flag 0 = true
        then clampI (-(2 ^ 55)) (2 ^ 55 - 1) v else v) ∧
      u.x.flag (8 + a) = (c.x.flag (8 + a) || decide (v < -(2 ^ 55) ∨ 2 ^ 55 - 1 < v)) ∧
      (∀ y : Fin 4, y ≠ a → u.x.acc y = c.x.acc y) ∧ u.x.d = c.x.d ∧ u.mem = c.mem

/-- Decoding undoes encoding (13 R301, Tables 13-2 to 13-4): every Voler instruction with field values the table
admits is what its code word decodes to. -/
def Obligations.VolerDecodeEncode : Prop :=  ∀ i : Voler, i.encodable = true → decodeVoler (encodeVoler i) = some i

/-- Encoding undoes decoding (13 R301, R308): a word that decodes is the code word of what it decodes to, so no bit of
a word is dropped, and what it decodes to is an instruction the table admits. -/
def Obligations.VolerEncodeDecode : Prop :=
  ∀ (w : Word) (i : Voler), decodeVoler w = some i → encodeVoler i = w ∧ i.encodable = true

/-- The kernel commands complete with their own effect (13 R299, R300, R307, R312): a good image takes the lowest free
handle and KRN_LOAD answers handle and cycle count, KRN_UNLOAD frees a handle no duty names, KRN_READ answers. Where
the spec leaves a reading open, the model's choice is that of log entry 34. -/
def Obligations.KernelCommandsComplete : Prop :=
  ∀ (s : State) (d : Desc), s.dev.isInFlight d = true →
    (∀ img y b h k, s.dev.hiu.d3hot = false → d.object = 0 → y = s.dev.charge d.qp img.length → y.addrOk d (d.w64 3) (d.w 5).toNat = true →
      b = (y.fetch d (d.w64 3) img).take (d.w 5).toNat → y.freeHandle = some h → analyse b (d.w 5).toNat = .inr k →
      exec (.krnLoad d img) s = .next (s.withDev
        (((y.setKrn (fun x => { x with store := kput none x.store h (some k) })).event 12 1 0x0101 h y.dt
          [k.tag.toNat, k.cycles, k.code.length]).complete d .done y.dt [0, 0xFFFFFFFF, wordN h, wordN k.cycles]))) ∧
    (∀ k, bitsOf d.object 31 6 = 0 → s.dev.kernel (bitsOf d.object 5 0) = some k →
      exec (.krnRead d) s = .next (s.withDev (s.dev.complete d .done s.dev.dt
        [k.tag, wordN k.cycles, wordN (k.code.length + 65536 * k.region), wordN k.modes])))

/-- KRN_UNLOAD (13 R300): a handle that no admitted duty names, and none that the pending commit installs, is freed;
one that an admitted duty of class 1 names, which a removal that has not taken effect leaves admitted, completes
RECONFIG_BUSY; one that is not loaded completes BAD_DESCRIPTOR. -/
def Obligations.KernelUnloadRule : Prop :=
  ∀ (s : State) (d : Desc) (h : Nat), s.dev.isInFlight d = true → h = bitsOf d.object 5 0 → bitsOf d.object 31 6 = 0 →
    (∀ k y, s.dev.kernel h = some k → s.dev.handleUsed h = false →
      y = s.dev.setKrn (fun k => { k with store := kput none k.store h none }) →
      exec (.krnUnload d) s = .next (s.withDev (y.complete d .done s.dev.dt [])) ∧ y.kernel h = none) ∧
    (∀ k id x, s.dev.kernel h = some k → kget none s.dev.tlg.duties id = some x → x.desc.cls = 1 → x.desc.handle = h →
      exec (.krnUnload d) s = .next (s.withDev (s.dev.fail d .reconfigBusy))) ∧
    (s.dev.kernel h = none → exec (.krnUnload d) s = .next (s.withDev (s.dev.fail d .badDescriptor)))

/-- The ledger's events complete with their own effect (14 R322, R323, R325, 17 R387): the oldest analysis ends in its
verdict, or goes on while another commit is pending, a plan becomes pending, at once where no cluster in retention is
needed, a TLG_CONFIG that is refused changes no duty, TLG_CHECK answers DONE or why not, an image of another part
completes NOT_IN_VARIANT; with none asked for, lost copies are placed again; a pending commit that is due takes
effect, its second part after its first. The ledger commands complete with their own effect when their checks pass (14
R323, R324, R328): TLG_CONFIG, TLG_CHECK and TLG_MIGRATE ask for their analysis, TLG_READ and TLG_LIST answer. Where
the spec leaves a reading open, the model's choice is that of log entry 34. -/
def Obligations.LedgerRowsComplete : Prop :=
  (∀ (s : State),
    (∀ t d rest y, s.dev.tlg.tasks = (t, d) :: rest → (t.isCheck = true ∨ s.dev.tlg.pending = none) → y = s.dev.setTlg (fun x => { x with tasks := rest }) →
      (∀ p second, y.analyseTask t = .plan p second → (∀ b, t ≠ .check b) → t ≠ .replace →
        exec .ledgerAnalysisComplete s = .next (s.withDev (y.tlgPend t d p second))) ∧
      (∀ p second, (List.range 4).any (fun c => y.retained c && LedgerCommit.needs ⟨t, d, y.dt, p, second, y.dt⟩ c) = false →
        y.tlgPend t d p second = y.setTlg (fun x => { x with pending := some ⟨t, d, y.dt, p, second, y.dt⟩ })) ∧
      (∀ b m, t = .config b → y.analyseTask t = .refuse m →
        exec .ledgerAnalysisComplete s = .next (s.withDev (y.tlgRefuse d m)) ∧
        (y.tlgRefuse d m).tlg.duties = s.dev.tlg.duties) ∧
      (∀ b, t = .check b →
        (∀ p second, y.analyseTask t = .plan p second →
          exec .ledgerAnalysisComplete s = .next (s.withDev (y.completeOpt d .done y.dt []))) ∧
        (∀ m, y.analyseTask t = .refuse m → exec .ledgerAnalysisComplete s = .next (s.withDev
          (y.completeOpt d (if m.reason ≤ 2 then .badDescriptor else .refusedLedger) (y.acceptedAt d) m.words)))) ∧
      (∀ b, (t = .check b ∨ t = .config b) → y.analyseTask t = .fused →
        exec .ledgerAnalysisComplete s = .next (s.withDev (y.completeOpt d .notInVariant (y.acceptedAt d) [])))) ∧
    (∀ t d rest, s.dev.tlg.tasks = (t, d) :: rest → t.isCheck = false → s.dev.tlg.pending.isSome = true →
      exec .ledgerAnalysisComplete s = .next s) ∧
    (∀ y, s.dev.tlg.tasks = [] → s.dev.tlg.replace = true → s.dev.tlg.pending = none →
      y = s.dev.setTlg (fun x => { x with replace := false }) →
      exec .ledgerAnalysisComplete s = .next (s.withDev (y.tlgJudge .replace none))) ∧
    (∀ c y, s.dev.tlg.pending = some c → s.dev.commitDue c = true → y = s.dev.applyPlan c.plan →
      (c.second = none → exec .tlgCommit s = .next (s.withDev
        (((y.setTlg (fun (x : Tlg) => { x with pending := none })).commitDone c).retryRollback))) ∧
      (∀ p, c.second = some p → exec .tlgCommit s = .next (s.withDev (y.setTlg (fun x => { x with
        pending := some { c with ready := y.dt, plan := p, second := none } })))))) ∧
  (∀ (s : State) (d : Desc), s.dev.isInFlight d = true →
    (∀ img y, s.dev.hiu.d3hot = false → d.object = 0 → y = s.dev.charge d.qp img.length → y.addrOk d (d.w64 3) (d.w 5).toNat = true →
      (y.tlgBusy = false → exec (.tlgConfig d img) s = .next (s.withDev
        (y.tlgAsk (.config ((y.fetch d (d.w64 3) img).take (d.w 5).toNat)) d))) ∧
      exec (.tlgCheck d img) s = .next (s.withDev
        (y.tlgAsk (.check ((y.fetch d (d.w64 3) img).take (d.w 5).toNat)) d))) ∧
    (∀ x, s.dev.duty (bitsOf d.object 15 0) = some x → bitsOf d.object 31 16 = 0 →
      (256 ≤ bitsOf d.object 15 0 → 1 ≤ (d.w 3).toNat → (d.w 3).toNat ≤ 3 → bitsOf (d.w 4) 31 16 = 0 →
        (tbit (d.w 3).toNat 0 = true → x.primary.isSome = true) → (tbit (d.w 3).toNat 1 = true → x.standby.isSome = true) →
        s.dev.tlgBusy = false →
        exec (.tlgMigrate d) s = .next (s.withDev
          (s.dev.tlgAsk (.migrate (bitsOf d.object 15 0) (d.w 3).toNat (d.w 4).toNat) d)))) ∧
    (∀ x, s.dev.dutyNamed (bitsOf d.object 15 0) = some x → bitsOf d.object 31 16 = 0 →
      s.dev.addrOk d (d.w64 3) 64 = true →
      exec (.tlgRead d) s = .next (s.withDev ((s.dev.hostWrite d (d.w64 3) x.desc.bytes64).complete d .done s.dev.dt
        [wordN (engineWord x), wordN x.overruns, wordN (s.dev.jobCost x.desc false)]))) ∧
    (∀ l, l = s.dev.allDuties → d.object = 0 → s.dev.addrOk d (d.w64 3) (8 * l.length) = true →
      exec (.tlgList d) s = .next (s.withDev ((s.dev.hostWrite d (d.w64 3) (l.flatMap s.dev.listEntry)).complete d .done
        s.dev.dt [wordN l.length]))))

/-- DESCRIPTOR_DISPATCH (15 R334, R335, R337, R346): at a fabric clock edge at which nothing was dispatched yet, the
descriptor whose turn it is is taken from its queue pair and its 64 bytes are charged; one that an early abort names
completes ABORTED, one that fails a check completes with that status, and any other is in flight with two completion
entries reserved. Where the spec leaves a reading open, the model's choice is that of log entry 35. -/
def Obligations.DispatchRuns : Prop :=
  ∀ (s : State) (heads : List Desc) (d : Desc) (p : QPair) (y : Dev), s.dev.dispatchEdge = true →
    s.dev.nextDescriptor heads = some d → p = s.dev.qp d.qp →
    y = ((s.dev.setQp d.qp { p with sqHead := (p.sqHead + 1) % p.sqSize }).charge d.qp 64).setHiu (fun h => { h with
      lastDispatch := some s.dev.dt, turn := if (s.dev.dispatchRank d.qp).1 = 2 then d.qp else h.turn }) →
    (∀ a, y.hiu.earlyAborts.find? (fun a => a.qp == d.qp && a.tag == d.tag) = some a →
      exec (.descriptorDispatch heads) s = .next (s.withDev
        ((y.setHiu (fun h => { h with earlyAborts := h.earlyAborts.erase a })).writeCompletion d .aborted a.at_ []))) ∧
    (y.hiu.earlyAborts.find? (fun a => a.qp == d.qp && a.tag == d.tag) = none →
      (∀ st, y.dispatchCheck d = some st →
        exec (.descriptorDispatch heads) s = .next (s.withDev (y.writeCompletion d st s.dev.dt []))) ∧
      (y.dispatchCheck d = none →
        exec (.descriptorDispatch heads) s = .next (s.withDev
          ((y.setQp d.qp { y.qp d.qp with reserved := (y.qp d.qp).reserved + 2 }).setHiu (fun h => { h with
            inFlight := h.inFlight ++ [⟨d, s.dev.dt⟩] })))))

/-- What may not be dispatched stays where it is (15 R334, R337): no second descriptor at one clock edge, and none of
a queue pair that holds none, has no room for completions, or waits for a fence, the device or a powered domain. -/
def Obligations.DispatchHeld : Prop :=
  ∀ (s : State) (heads : List Desc), (s.dev.dispatchEdge = false ∨ ∀ d ∈ heads, s.dev.canDispatch d = false) →
    exec (.descriptorDispatch heads) s = .next s

/-- Doorbells (15 R339, R344): a write within the room of its ring moves the tail or head, and room in a completion
queue lets the completions of flushed descriptors follow; one outside it, or of a tail whose disable is dispatched,
changes nothing but DB_IGNORED. Where the spec leaves a reading open, the model's choice is that of log entry 35. -/
def Obligations.DoorbellsComplete : Prop :=
  ∀ (s : State) (q : Fin 96) (v : Word) (p : QPair) (y : Dev), s.dev.powered 7 = true →
    (s.dev.hiu.d3hot = false ∨ p.isLocal = true) → p = s.dev.qp q → y = s.dev.setBit Reg.hiuStatus 3 true →
    (p.enabled = true → s.dev.stopped q = false → v.toNat < p.sqSize →
      (v.toNat + p.sqSize - p.sqTail) % p.sqSize ≤ p.sqSize - 1 - (p.sqTail + p.sqSize - p.sqHead) % p.sqSize →
      exec (.sqTail q v) s = .next (s.withDev (s.dev.setQp q { p with sqTail := v.toNat }))) ∧
    (p.active = true → v.toNat < p.cqSize → (v.toNat + p.cqSize - p.cqHead) % p.cqSize ≤ p.cqUsed →
      exec (.cqHead q v) s = .next (s.withDev ((s.dev.setQp q { p with cqHead := v.toNat }).flushRest q))) ∧
    (p.active = true → p.hasEq = true → v.toNat < p.eqSize →
      (v.toNat + p.eqSize - p.eqHead) % p.eqSize ≤ (p.eqTail + p.eqSize - p.eqHead) % p.eqSize →
      exec (.eqHead q v) s = .next (s.withDev (s.dev.setQp q { p with eqHead := v.toNat }))) ∧
    ((p.enabled = false ∨ s.dev.stopped q = true ∨ p.sqSize ≤ v.toNat ∨
        p.sqSize - 1 - (p.sqTail + p.sqSize - p.sqHead) % p.sqSize < (v.toNat + p.sqSize - p.sqTail) % p.sqSize) →
      exec (.sqTail q v) s = .next (s.withDev y)) ∧
    ((p.active = false ∨ p.cqSize ≤ v.toNat ∨ p.cqUsed < (v.toNat + p.cqSize - p.cqHead) % p.cqSize) →
      exec (.cqHead q v) s = .next (s.withDev y)) ∧
    ((p.active = false ∨ p.hasEq = false ∨ p.eqSize ≤ v.toNat ∨
        (p.eqTail + p.eqSize - p.eqHead) % p.eqSize < (v.toNat + p.eqSize - p.eqHead) % p.eqSize) →
      exec (.eqHead q v) s = .next (s.withDev y))

/-- The events of the Host Interface Unit complete with their own effect (15 R330, R333, R335, R340, R344, R347): a
moderation time that has run out and an unmasked pending vector send their message, a release restores the credit and
tells what was left unspent, the last completion of a drain completes its disable, the link, the D-state and queue
pair 0 change. Where the spec leaves a reading open, the model's choice is that of log entry 35. -/
def Obligations.HiuEventsComplete : Prop :=
  ∀ (s : State), s.dev.powered 7 = true →
    (∀ (v : Fin 128) a, (s.dev.vec v).oldest = some a → s.dev.fld (Reg.hiuMod v) 31 16 ≠ 0 →
      a + 1000 * s.dev.fld (Reg.hiuMod v) 31 16 ≤ s.dev.dt →
      exec (.msixModerationTimeout v) s = .next (s.withDev (s.dev.msixSend v))) ∧
    (∀ (v : Fin 128) addr data y, s.dev.hiu.d3hot = false →
      y = s.dev.setVec v { s.dev.vec v with masked := false, addr := addr, data := data } →
      exec (.msixUnmask v addr data) s = .next (s.withDev (if (s.dev.vec v).pending = true then y.msixSend v else y))) ∧
    (∀ (q : Fin 96) d f, s.dev.creditDuty q = some d →
      f = (fun (h : Hiu) => { h with spent := kput 0 h.spent q 0, dueAt := kput none h.dueAt q (some (s.dev.dt + d.desc.deadline)) }) →
      ((d.desc.bytes ≤ kget 0 s.dev.hiu.spent q ∨ (s.dev.qp q).enabled = false ∨ (s.dev.qp q).sqHead = (s.dev.qp q).sqTail) →
        exec (.hiuCreditRelease q) s = .next (s.withDev (s.dev.setHiu f))) ∧
      (∀ y, kget 0 s.dev.hiu.spent q < d.desc.bytes → (s.dev.qp q).enabled = true → (s.dev.qp q).sqHead ≠ (s.dev.qp q).sqTail →
        y = (s.dev.setHiu (fun h => { h with dlMiss := satInc 32 h.dlMiss })).event 1 6 3 q s.dev.dt
          [d.desc.id, d.desc.bytes - kget 0 s.dev.hiu.spent q] → y.dt = s.dev.dt →
        exec (.hiuCreditRelease q) s = .next (s.withDev (y.setHiu f)))) ∧
    (∀ (q : Fin 96) r p, p = s.dev.qp q → p.draining = some r → p.flushWait = [] →
      s.dev.hiu.inFlight.any (fun e => e.desc.qp == (q : Nat)) = false →
      exec (.qpDrainComplete q) s = .next (s.withDev
        ((s.dev.setQp q { p with draining := none }).completeOpt r.desc .done r.tx [wordN r.flushed, wordN r.inFlight]))) ∧
    (∀ w width rate y, width = min w s.dev.lanes →
      y = s.dev.setHiu (fun h => { h with linkUp := true, linkWidth := width, linkRate := rate }) →
      (s.dev.pmu.peWake = false → exec (.hiuLink true w rate) s = .next (s.withDev
        ((y.event 1 4 1 0xFF s.dev.dt [1, width, rate, s.dev.hiu.discarded]).setHiu (fun h => { h with discarded := 0 })))) ∧
      (s.dev.pmu.peWake = true → exec (.hiuLink true w rate) s = .next (s.withDev
        (((({ y with pmu := { y.pmu with peWake := false } } : Dev).emit (.pin .peWakeN true)).event 1 4 1 0xFF s.dev.dt
          [1, width, rate, s.dev.hiu.discarded]).setHiu (fun h => { h with discarded := 0 }))))) ∧
    (∀ width rate y, y = s.dev.setHiu (fun h => { h with linkUp := false, linkWidth := 0, linkRate := 0 }) →
      exec (.hiuLink false width rate) s = .next (s.withDev (if s.dev.hiu.linkUp = true then hostSideReset y else y))) ∧
    exec (.pcieDStateChange true) s = .next (s.withDev (s.dev.setHiu (fun h => { h with d3hot := true }))) ∧
    exec (.pcieDStateChange false) s = .next (s.withDev { s.dev with
      out := s.dev.out ++ s.dev.hiu.held, hiu := { s.dev.hiu with d3hot := false, held := [] } }) ∧
    (∀ v queued w y, s.dev.hiu.d3hot = false → bitOf (s.dev.reg Reg.hiuAqCtrl) 0 = false →
      w = writeBits (s.dev.reg Reg.hiuAqCtrl) v 0x1F1F3F 0 → y = s.dev.setReg Reg.hiuAqCtrl (setBitsOf w 0 0 0) →
      (bitOf w 0 = true → y.adminPair.ringsOk = true → (y.qp 0).active = false →
        exec (.hiuAqCtrlWrite v queued) s = .next (s.withDev ((y.setReg Reg.hiuAqCtrl w).setQp 0 y.adminPair.started))) ∧
      (bitOf w 0 = true → (y.adminPair.ringsOk = false ∨ (y.qp 0).active = true) →
        exec (.hiuAqCtrlWrite v queued) s = .next (s.withDev (y.setBit Reg.hiuStatus 4 true))) ∧
      (bitOf w 0 = false → exec (.hiuAqCtrlWrite v queued) s = .next (s.withDev y))) ∧
    (∀ v queued w y, s.dev.hiu.d3hot = false → bitOf (s.dev.reg Reg.hiuAqCtrl) 0 = true →
      w = writeBits (s.dev.reg Reg.hiuAqCtrl) v 0x1F1F3F 0 →
      y = (if Nat.land (s.dev.reg Reg.hiuAqCtrl ^^^ w).toNat 0x1F1F3E ≠ 0 then s.dev.setBit Reg.hiuStatus 4 true else s.dev) →
      (bitOf w 0 = true → exec (.hiuAqCtrlWrite v queued) s = .next (s.withDev y)) ∧
      (bitOf w 0 = false → y.othersActive = true →
        exec (.hiuAqCtrlWrite v queued) s = .next (s.withDev (y.setBit Reg.hiuStatus 4 true))) ∧
      (bitOf w 0 = false → y.othersActive = false → exec (.hiuAqCtrlWrite v queued) s = .next (s.withDev
        ((y.setReg Reg.hiuAqCtrl (setBitsOf (s.dev.reg Reg.hiuAqCtrl) 0 0 0)).startDrain 0 y.dt queued none))))

/-- HOST_SIDE_RESET (15 R347): it completes; queue pairs that are not LOCAL are disabled, no version is in force, what
they had dispatched goes on with its completion to be discarded, and what was held for the host is discarded and
counted; LOCAL queue pairs and everything outside the Host Interface Unit's own state and the registers it resets stay
as they are. Where the spec leaves a reading open, the model's choice is that of log entry 35. -/
def Obligations.HostSideResetDisables : Prop :=
  ∀ (s : State), s.dev.powered 7 = true →
    ∃ t, exec .hostSideReset s = .next (s.withDev t) ∧ t.hiu.ifver = 0 ∧ t.hiu.vectors = [] ∧ t.hiu.held = [] ∧
      (kwf QPair.reset s.dev.hiu.qps = true →
        (∀ q, (s.dev.qp q).isLocal = false → (t.qp q).enabled = false ∧ (t.qp q).draining = none) ∧
        (∀ q, (s.dev.qp q).isLocal = true → t.qp q = s.dev.qp q)) ∧
      (∀ e, e ∈ t.hiu.inFlight ↔ e ∈ s.dev.hiu.inFlight ∧ (s.dev.qp e.desc.qp).isLocal = true) ∧
      (∀ e ∈ s.dev.hiu.inFlight, (s.dev.qp e.desc.qp).isLocal = false → s.dev.endedDisables.any (·.same e.desc) = false →
        e ∈ t.hiu.orphans) ∧
      t.hiu.evDrop = satAdd 16 s.dev.hiu.evDrop (s.dev.hiu.held.filter Output.isEvent).length ∧
      t.hoist = s.dev.hoist ∧ t.hwk = s.dev.hwk ∧ t.mon = s.dev.mon ∧ t.tlg = s.dev.tlg ∧ t.sram = s.dev.sram

/-- The HIU commands complete with their own effect (15 R342-R346, R350): HIU_HELLO settles the highest common version
and never changes one in force, HIU_QP_CONFIG, HIU_QP_ENABLE, HIU_QP_DISABLE and HIU_QP_STATUS act on the queue pair
named, and HIU_ABORT stops a target in flight that may still be stopped, marks one still queued, and is too late for
any other. Where the spec leaves a reading open, the model's choice is that of log entry 35. -/
def Obligations.HiuCommandsComplete : Prop :=
  ∀ (s : State) (d : Desc), s.dev.powered 7 = true → s.dev.isInFlight d = true →
    (∀ v y, d.object = 0 → d.qp = 0 →
      (s.dev.hiu.ifver = 0 ∧ v = 3 ∧ bitsOf (d.w 3) 7 0 ≤ 3 ∧ 3 ≤ bitsOf (d.w 3) 15 8 ∨
        s.dev.hiu.ifver = 0 ∧ v = 2 ∧ bitsOf (d.w 3) 7 0 ≤ 2 ∧ bitsOf (d.w 3) 15 8 = 2 ∨
        s.dev.hiu.ifver = v ∧ v ≠ 0 ∧ bitsOf (d.w 3) 7 0 ≤ v ∧ v ≤ bitsOf (d.w 3) 15 8) →
      y = (s.dev.setHiu (fun h => { h with ifver := v })).event 1 2 4 0 (s.dev.dispatchedAt d) [v, bitsOf (d.w 3) 15 0] →
      exec (.hiuHello d) s = .next (s.withDev (y.complete d .done (y.dispatchedAt d) [wordN v, 2, 3]))) ∧
    (∀ q p, qpObject d = some q → p = s.dev.qp q →
      (∀ n, n = configPair d → p.active = false → n.ringsOk = true → (n.eqBase ≠ 0 → sizeOk n.eqLog = true) →
        n.localOk = true → Nat.land (d.w 9).toNat 0xFEE0E0E0 = 0 → bitsOf (d.w 10) 31 16 = 0 →
        exec (.hiuQpConfig d) s = .next (s.withDev ((s.dev.setQp q { n with era := p.era }).complete d .done (s.dev.dispatchedAt d) []))) ∧
      (p.configured = true → p.active = false →
        exec (.hiuQpEnable d) s = .next (s.withDev ((s.dev.setQp q p.started).complete d .done (s.dev.dispatchedAt d) []))) ∧
      (∀ queued, p.draining = none → p.enabled = false →
        exec (.hiuQpDisable d queued) s = .next (s.withDev (s.dev.complete d .done (s.dev.dispatchedAt d) [0, 0]))) ∧
      (∀ queued, p.draining = none → p.enabled = true →
        exec (.hiuQpDisable d queued) s = .next (s.withDev (s.dev.startDrain q (s.dev.dispatchedAt d) queued (some d)))) ∧
      exec (.hiuQpStatus d) s = .next (s.withDev (s.dev.complete d .done (s.dev.dispatchedAt d)
        [wordN (b2n p.enabled + 2 * b2n p.draining.isSome), wordN p.sqHead, wordN p.sqTail, wordN p.cqTail, wordN p.eqTail,
         wordN p.reserved]))) ∧
    (∀ q tag t y queued, d.object = 0 → bitsOf (d.w 3) 31 7 = 0 → q = bitsOf (d.w 3) 6 0 → q ≤ 95 → tag = d.w 4 →
      t = s.dev.dispatchedAt d → t < s.dev.dt → y = s.dev.dropFate d →
      (∀ e, y.hiu.inFlight.find? (fun e => e.desc.qp == q && e.desc.tag == tag) = some e → e.desc.opcode ≠ 0x0106 →
        (∀ z, ({ y with dt := t } : Dev).abortTarget e.desc d = some (z, true) → exec (.hiuAbort d queued) s = .next (s.withDev
          (({ z.complete d .abortApplied t [0, 8] with dt := s.dev.dt } : Dev).dropFate d))) ∧
        (∀ z, ({ y with dt := t } : Dev).abortTarget e.desc d = some (z, false) → exec (.hiuAbort d queued) s = .next (s.withDev
          (({ z with dt := s.dev.dt } : Dev).dropFate d))) ∧
        (({ y with dt := t } : Dev).abortTarget e.desc d = none → exec (.hiuAbort d queued) s = .next (s.withDev
          ((y.complete d .abortTooLate t [0, 0xFFFFFFFF]).dropFate d)))) ∧
      (y.hiu.inFlight.find? (fun e => e.desc.qp == q && e.desc.tag == tag) = none →
        (∀ st, s.dev.fateOf d = some st → exec (.hiuAbort d queued) s = .next (s.withDev
          (y.complete d .abortTooLate t [0, wordN st.code]))) ∧
        (∀ p n f, s.dev.fateOf d = none → p = y.qp q →
          n = (if p.enabled = true then (p.sqTail + p.sqSize - p.sqHead) % p.sqSize else 0) →
          f = ((y.queuedOf q queued).take n).find? (fun e => e.tag == tag) →
          (∀ e, f = some e → e.opcode ≠ 0x0106 → exec (.hiuAbort d queued) s = .next (s.withDev
            ((y.keepAbort ⟨q, tag, t⟩).complete d .abortApplied t [0, 8]))) ∧
          (f = none → (∃ e ∈ p.flushedTags, e.1 = tag ∧ e.2 ≤ t) →
            exec (.hiuAbort d queued) s = .next (s.withDev (y.complete d .abortTooLate t [0, 0x0B]))) ∧
          (f = none → (∀ e ∈ p.flushedTags, e.1 = tag → t < e.2) →
            exec (.hiuAbort d queued) s = .next (s.withDev (y.complete d .abortTooLate t [1, 0xFFFFFFFF]))))))

/-- A field input sample (16 R353-R356): a valid input whose sample repeats its accepted level discards a change under
way, one whose sample differs accepts it at the Nth in a row with the watch comparator's instant and counts it before
that, and the first sample after validity was lost is accepted without debounce, its edge reported only when it
differs from the level accepted before. The field outputs' events complete with their own effect (16 R352, R358-R361):
a sample that agrees with its command starts the count afresh, the second counted one against it latches RBFAIL or
BACKFEED, a thermal shutdown latches OVERLOAD, and so does a group 10 ms above its budget and each millisecond after,
a reading within it ends that, a channel whose turning time ends is an input. Where the spec leaves a reading open,
the model's choice is that of log entries 22, 23 and 24. -/
def Obligations.FieldChannelsComplete : Prop :=
  (∀ (s : State) (n : Fin 48) (mv : Nat) (w : Option Nat) (il : Bool) (c : FioChan) (smp : Bool) (t0 : Nat),
    c = s.dev.fio n → c.cfg.dir = .input → (n : Nat) < s.dev.fios → s.dev.coc.field.running = true →
    s.dev.sampleDue n = true →
    s.dev.coc.field.calDone = true → s.dev.coc.field.min.below = false → smp = readSample mv c.sample →
    t0 = (if c.row = 0 then w.getD s.dev.time else c.stamp) →
    (s.dev.coc.field.link.up = true → c.valid = false → smp = (c.everValid && c.level) →
      exec (.fieldInputSample n mv w il) s = .next (s.withDev (s.dev.modFio n (fun c => { c with
        sample := smp, level := smp, valid := true, everValid := true, row := 0 })))) ∧
    (s.dev.coc.field.link.up = true → c.valid = false → smp ≠ (c.everValid && c.level) →
      exec (.fieldInputSample n mv w il) s = .next (s.withDev ((s.dev.modFio n (fun c => { c with
        sample := smp, level := smp, valid := true, everValid := true, row := 0 })).edgeUp n smp s.dev.time))) ∧
    (s.dev.coc.field.link.up = false → c.valid = false → c.everValid = false →
      exec (.fieldInputSample n mv w il) s = .next (s.withDev (s.dev.modFio n (fun c => { c with sample := smp })))) ∧
    (c.valid = true → c.everValid = true → smp = c.level →
      exec (.fieldInputSample n mv w il) s = .next (s.withDev (s.dev.modFio n (fun c => { c with
        sample := smp, row := 0 })))) ∧
    (c.valid = true → c.everValid = true → smp ≠ c.level → c.row + 1 < c.cfg.needed →
      exec (.fieldInputSample n mv w il) s = .next (s.withDev (s.dev.modFio n (fun c => { c with
        sample := smp, row := c.row + 1, stamp := t0 })))) ∧
    (c.valid = true → c.everValid = true → smp ≠ c.level → c.cfg.needed ≤ c.row + 1 →
      exec (.fieldInputSample n mv w il) s = .next (s.withDev ((s.dev.modFio n (fun c => { c with
        sample := smp, level := smp, row := 0 })).edgeUp n smp t0)))) ∧
  (∀ (s : State), s.dev.coc.field.running = true →
    (∀ (n : Fin 48) mv w il c, c = s.dev.fio n → c.cfg.dir = .output → (n : Nat) < s.dev.fios →
      s.dev.sampleDue n = true →
      (readSample mv c.sample = c.cmd → exec (.fieldInputSample n mv w il) s = .next (s.withDev (s.dev.modFio n (fun c => { c with
        sample := c.cmd, level := c.cmd, ilim := il && c.cmd, mismatch := 0 })))) ∧
      (c.mismatch = 1 → c.cmdAt + 100000 ≤ s.dev.time → c.backfeed = false → readSample mv c.sample = !c.cmd →
        (c.cmd = true → il = false) →
        exec (.fieldInputSample n mv w il) s = .next (s.withDev ((s.dev.modFio n (fun c => { c with
          sample := !c.cmd, level := !c.cmd, ilim := false, mismatch := 2 })).latchFault n
            (if c.cmd then 3 else 1) 0 mv)))) ∧
    (∀ (n : Fin 48) ma, (s.dev.fio n).cmd = true →
      exec (.outputThermalShutdown n ma) s = .next (s.withDev ((s.dev.modFio n (fun c => { c with
        cmd := false, cmdAt := s.dev.time, mismatch := 0, ilim := false, overload := true })).sendUp (.fault n 2 1 ma s.dev.tick)))) ∧
    (∀ (g : Fin 6) ma, ma ≤ 3000 → exec (.groupOvercurrent g ma) s = .next (s.withDev (s.dev.setFioGroup g none))) ∧
    (∀ (g : Fin 6) ma, 3000 < ma → kget none s.dev.coc.field.groups g = none →
      exec (.groupOvercurrent g ma) s = .next (s.withDev (s.dev.setFioGroup g (some (s.dev.time + 10000000))))) ∧
    (∀ (g : Fin 6) (i : Fin 8) ma t, 3000 < ma → kget none s.dev.coc.field.groups g = some t → t ≤ s.dev.time →
      (s.dev.fio (8 * g + i)).cmd = true → (∀ j : Nat, i < j → j < 8 → (s.dev.fio (8 * g + j)).cmd = false) →
      exec (.groupOvercurrent g ma) s = .next (s.withDev
        ((s.dev.setFioGroup g (some (t + 1000000))).latchFault (8 * g + i) 2 2 ma))) ∧
    (∀ (n : Fin 48), (s.dev.fio n).cfg.dir = .turning → (s.dev.fio n).turnEnd ≤ s.dev.time →
      exec (.channelTurningEnd n) s = .next (s.withDev ((s.dev.turned n).modFio n (fun c =>
        c.fresh { c.cfg with dir := .input } (s.dev.turned n).time)))))

/-- The field supply, the watchdog and Cocoon's start complete with their own effect (16 R363-R367, R373, R377): a
watchdog that has run out latches WDTRIP and takes the outputs to their safe state, the fifth measurement below FS_LOW
reports it and below FS_MIN declares the supply lost, the loss of Cocoon's own supply loses its state, a start begins
afresh, a calibration sets CALOK when it passes and is reported when it fails, bridge supplies in range change only
their measurements and the bootstrap counts. Where the spec leaves a reading open, the model's choice is that of log
entries 22, 23 and 24. -/
def Obligations.FieldSupplyComplete : Prop :=
  ∀ (s : State) (f : CocField), f = s.dev.coc.field →
    (∀ wdt, f.running = true → f.wdOn = true → f.wdTrip = false → wdt = clampN 50 100000 (bitsOf f.wd 16 0) →
      f.wdAt + 1000 * wdt ≤ s.dev.time → exec .cocWatchdog s = .next (s.withDev
        (((s.dev.setField (fun f => { f with wdTrip := true })).outputsSafe).sendUp
          (.watchdog f.link.lastFseq wdt s.dev.tick)))) ∧
    (∀ mv, f.running = true → 10 * bitsOf f.fs 8 0 + 80 ≤ mv → mv < 10 * bitsOf f.fs 24 16 →
      f.low = ⟨false, 4, 0⟩ → f.min.below = false →
      exec (.vfieldMeasurement mv) s = .next (s.withDev ((s.dev.setField (fun f => { f with
        vfield := mv, low := ⟨true, 0, 0⟩, min := ⟨false, 0, 0⟩ })).sendUp (.supply 1 mv s.dev.tick)))) ∧
    (∀ mv, f.running = true → mv < 10 * bitsOf f.fs 8 0 → mv < 10 * bitsOf f.fs 24 16 →
      f.low.below = true → f.min = ⟨false, 4, 0⟩ →
      exec (.vfieldMeasurement mv) s = .next (s.withDev ((s.dev.setField (fun f => { f with
        vfield := mv, low := ⟨true, 0, 0⟩, min := ⟨true, 0, 0⟩ })).sagDeclared mv))) ∧
    (s.dev.hwkF.motionEn.level = false → s.dev.hwkF.doorEn.level = false →
      exec .cocoonPowerLoss s = .next (s.withDev { s.dev with
        coc := { s.dev.coc with up := none, field := { CocField.reset with running := false } },
        hwkF := { HwkField.reset with osc := s.dev.hwkF.osc } })) ∧
    (f.running = false → exec .cocoonStart s = .next (s.withDev { s.dev with coc := { s.dev.coc with
        field := CocField.reset } })) ∧
    (∀ i o y, f.running = true → f.calDone = false →
      y = s.dev.setField (fun f => { f with calDone := true, calOk := i == 0 }) →
      (i = 0 → exec (.cocCalib i o) s = .next (s.withDev y)) ∧
      (i ≠ 0 → exec (.cocCalib i o) s = .next (s.withDev (y.sendUp (.calib i o y.tick))))) ∧
    (∀ vb vg l, f.running = true → 1800 ≤ vb → vb ≤ 5600 → 1080 ≤ vg → f.vbLow = ⟨false, 0, 0⟩ →
      f.vbHigh = ⟨false, 0, 0⟩ → f.vgLow = ⟨false, 0, 0⟩ →
      exec (.bridgeSupplyMeasurement vb vg l) s = .next (s.withDev ((List.range 16).foldl (fun (t : Dev) b =>
        (if t.hasBridge b then t.bootStep b (l.getD b 0) else t).clearFaults b)
          (s.dev.setField (fun f => { f with vbridge := vb, vgate := vg }))).settleAll))

/-- The taps and the current cells complete with their own effect (16 R368, R369, R371, 07 R166): a direct-current
sample joins its window, the window's end and a crossing report the tap, one that is overdue reports it late and not
energised; a decision takes the phase current from the amplifiers, keeps the converter's sample when it is due, and
moves the gates toward the side that is forced, that the voltage mode or that the window comparators give, and a phase
blind for 2 us goes to its low side. Where the spec leaves a reading open, the model's choice is that of log entries
22, 23 and 24. -/
def Obligations.TapsAndCellsComplete : Prop :=
  ∀ (s : State), s.dev.coc.field.running = true →
    (∀ (i : Fin 8) (ua : Int) t e thr, t = s.dev.tap i → thr = bitsOf s.dev.coc.field.tap 23 16 →
      (thr < ua.natAbs ∧ e = true ∨ ua.natAbs + 10 < thr ∧ e = false ∨ ua.natAbs ≤ thr ∧ thr ≤ ua.natAbs + 10 ∧ e = t.sample) →
      (s.dev.tapAc i = false → exec (.tapSample i ua) s = .next (s.withDev (s.dev.modTap i (fun t => { t with
        sample := e, neg := if ua = 0 then (s.dev.tap i).neg else decide (ua < 0),
        any := t.any || e, all := t.all && e })))) ∧
      (s.dev.tapAc i = true → ua ≠ 0 → decide (ua < 0) ≠ t.neg →
        exec (.tapSample i ua) s = .next (s.withDev ((s.dev.tapReport i t.any false).modTap i (fun t => { t with
          sample := e, neg := decide (ua < 0), any := t.any || e, all := t.all && e }))))) ∧
    (∀ (i : Fin 8) y, s.dev.tapAc i = false → y = s.dev.modTap i (fun t => { t with
        energised := (s.dev.tap i).all, lastAt := s.dev.time, late := false, any := false, all := true }) →
      ((s.dev.tap i).energised = (s.dev.tap i).all → exec (.tapDcWindowEnd i) s = .next (s.withDev y)) ∧
      ((s.dev.tap i).energised ≠ (s.dev.tap i).all → exec (.tapDcWindowEnd i) s = .next (s.withDev
        (y.sendUp (.tap i (s.dev.tap i).all false s.dev.tick))))) ∧
    (∀ (i : Fin 8) t y, s.dev.tapAc i = true → t = s.dev.tap i →
      t.lastAt + (if t.late then 10000000 else 15000000) ≤ s.dev.time →
      y = s.dev.modTap i (fun t => { t with
        energised := false, lastAt := s.dev.time, late := true, any := false, all := true }) →
      (t.energised = false → exec (.tapAcTimeout i) s = .next (s.withDev y)) ∧
      (t.energised = true → exec (.tapAcTimeout i) s = .next (s.withDev (y.sendUp (.tap i false true s.dev.tick))))) ∧
    (∀ (b : Fin 16) own ma x y z dt, s.dev.hasBridge b = true → x = s.dev.modCell b (fun c => { c with amp := own }) →
      ma = x.phaseNow b own →
      y = (if (s.dev.dt - s.dev.lpe.phaseAt) % 1000 = 0 ∧ (s.dev.dt - s.dev.lpe.phaseAt) % 10000 ≠ 0
        then x.keepSample b ma else x).overcurrent b ma →
      dt = 20 * clampN 1 20 (bitsOf (y.cellCfg b) 4 0) →
      ((∃ x, y.forcedSide b = some x ∧ z = y.modCell b (fun c => (c.force x y.time).drive x dt y.time)) ∨
        y.forcedSide b = none ∧ (y.cell b).set_.mode = 2 ∧
          z = y.modCell b (fun c => ({ c with cut := (y.dutyWant b ma).2 }).drive (y.dutyWant b ma).1 dt y.time) ∨
        y.forcedSide b = none ∧ (y.cell b).set_.mode = 1 ∧
          z = y.modCell b (fun c => c.drive (y.cellWant b ma) dt y.time)) →
      exec (.currentCellDecision b own) s = .next (s.withDev (z.modCell b (fun c => { c with
        blind := if ((z.cell b).side == .high && !z.measured b) = true then some (c.blind.getD z.time) else none })))) ∧
    (∀ (b : Fin 16) t, (s.dev.cell b).blind = some t → t + 2000 ≤ s.dev.time →
      exec (.blindPhaseTimeout b) s = .next (s.withDev (s.dev.modCell b (fun c => { c with
        side := .none, next := .low, want := .low, since := s.dev.time, blind := none }))))

/-- The isolation link's rows complete with their own effect (16 R372-R377): a slot start closes the last slot's phase
currents and builds both frames; an accepted downstream frame gives its fields, its output commands and its record
once, a record that is not the next one is not applied, and a frame with the number of another slot is not accepted
while the link is up; an accepted upstream frame becomes the last one and gives its record, and the third in a row
takes the link up; the second slot missed in a row takes it down, at the logic die with the axes in FAULT, its event
and count, at Cocoon with its withdrawals; training starts 1 ms after the last frame and ends trained, after a start
of either die with both dies' numbers begun anew. Where the spec leaves a reading open, the model's choice is that of
log entries 22, 23 and 24. -/
def Obligations.LinkRowsComplete : Prop :=
  ∀ (s : State),
    (∀ own temp, (s.dev.coc.field.running = false →
        exec (.linkSlotStart own temp) s = .next (s.withDev s.dev.buildDown.buildUp) ∧
        s.dev.buildDown.buildUp.coc.up = none) ∧
      (∀ bs x y, s.dev.coc.field.running = true → bs = (List.range 16).filter s.dev.hasBridge →
        x = bs.foldl (fun (t : Dev) b => t.modCell b (fun c => { c.endSlot with amp := own.getD b 0 })) s.dev →
        y = bs.foldl (fun (t : Dev) b => t.keepSample b (t.phaseNow b (t.cell b).amp)) x →
        y.coc.field.running = true ∧ exec (.linkSlotStart own temp) s = .next (s.withDev
          (y.setField (fun f => { f with temp := wrapS 8 temp })).buildDown.buildUp))) ∧
    (∀ f r x y, s.dev.coc.down = some f → s.dev.coc.field.running = true → s.dev.coc.field.trained = true →
      (s.dev.coc.field.link.up = false ∨ f.fseq = s.dev.slotNo) → f.records = [(r, x)] →
      y = ((s.dev.setCoc (fun c => { c with down := none })).downFields f).applyOuts f →
      exec .cocoonDownstreamFrameAccepted s = .next (s.withDev
        (if y.coc.field.rxNext = r
         then ((y.setField (fun c => { c with rxNext := (r + 1) % 65536 })).applyDown r x).applyOuts f else y))) ∧
    (∀ f, s.dev.coc.down = some f → s.dev.coc.field.running = true → s.dev.coc.field.link.up = true →
      f.fseq ≠ s.dev.slotNo →
      exec .cocoonDownstreamFrameAccepted s = .next (s.withDev (s.dev.setCoc (fun c => { c with down := none })))) ∧
    (∀ f z, s.dev.coc.up = some f → (s.dev.coc.link.up = false ∨ f.fseq = s.dev.slotNo) → s.dev.coc.drops = f.drops →
      (f.records = [] ∧ z = s.dev.upFields f ∨ (∃ r x y, f.records = [(r, x)] ∧ y = s.dev.upFields f ∧
        z = if y.coc.rxNext = r then (y.setCoc (fun c => { c with rxNext := (r + 1) % 65536 })).applyUp f x else y)) →
      ((s.dev.coc.link.up = true ∨ z.coc.link.up = false) →
        exec .cocoonUpstreamFrameAccepted s = .next (s.withDev z)) ∧
      (s.dev.coc.link.up = false → z.coc.link.up = true →
        exec .cocoonUpstreamFrameAccepted s = .next (s.withDev (z.linkCameUp f)))) ∧
    (∀ l y, s.dev.coc.link.up = true → s.dev.coc.link.missed = 1 →
      l = { s.dev.coc.link with up := false, missed := 2, accepted := 0, outage := 2, lastAt := s.dev.time } →
      y = s.dev.setCoc (fun c => { c with
        up := none, trained := false, downs := satInc 16 c.downs, link := l, tx := c.link.requeues l c.tx }) →
      exec (.linkSlotMissed false) s = .next (s.withDev
        (((y.faultAxes 4).chrInc 7 146).event 11 8 7 0xFF s.dev.dt [0, 2]))) ∧
    (∀ l y, s.dev.coc.field.running = true → s.dev.coc.field.link.up = true → s.dev.coc.field.link.missed = 1 →
      l = { s.dev.coc.field.link with up := false, missed := 2, accepted := 0, outage := 2, lastAt := s.dev.time } →
      y = (((s.dev.setCoc (fun c => { c with down := none })).setField (fun f => { f with
        link := l, tx := f.link.requeues l f.tx })).setHwkF (fun h => { h with
          badRow := h.badRow + 1, goodRow := 0, link := h.link || decide (2 ≤ h.badRow + 1) })).linkWithdraws →
      exec (.linkSlotMissed true) s = .next (s.withDev (if y.coc.field.link.up = true then y else y.fieldLinkDown))) ∧
    (s.dev.coc.link.up = false → s.dev.coc.training = false → s.dev.coc.link.lastAt + 1000000 ≤ s.dev.time →
      exec .linkTrainingStart s = .next (s.withDev (s.dev.setCoc (fun c => { c with training := true })))) ∧
    (∀ x y, s.dev.coc.training = true → s.dev.coc.field.running = true →
      (s.dev.coc.fresh = false ∧ s.dev.coc.field.trained = true ∧ x = s.dev ∨
        s.dev.coc.field.trained = false ∧ x = s.dev.syncLink ∨
        s.dev.coc.fresh = true ∧ s.dev.coc.field.trained = true ∧ s.dev.fieldStart.coc.fresh = true ∧
          x = s.dev.fieldStart.syncLink) →
      y = (x.setCoc (fun c => { c with fresh := false })).bootStage 5 →
      exec .linkTrainingComplete s = .next (s.withDev
        ((y.setField (fun c => { c with link := { c.link with accepted := 0 } })).setCoc (fun c => { c with
          training := false, trained := true, link := { c.link with accepted := 0 } }))))

/-- The Cocoon commands complete with their own effect when their checks pass (16 R361, R363, R379): COC_CH_CONFIG,
COC_CLEAR and COC_RELEASE become records, COC_OUT_SET an output command, that wait for Cocoon's acknowledge, and
COC_READ answers with the last upstream frame, or with NOFRAME. Where the spec leaves a reading open, the model's
choice is that of log entries 22, 23 and 24. -/
def Obligations.CocoonCommandsComplete : Prop :=
  ∀ (s : State) (d : Desc), s.dev.isInFlight d = true →
    (∀ n deb per dir, n = bitsOf d.object 5 0 → n < s.dev.fios → bitsOf d.object 31 6 = 0 →
      deb = bitsOf (d.w 4) 15 0 → per = bitsOf (d.w 4) 22 16 → 0 < deb → 0 < per → per ≤ 100 →
      bitsOf (d.w 4) 31 23 = 0 → bitsOf (d.w 3) 31 4 = 0 →
      (bitsOf (d.w 3) 1 0, dir) ∈ [(0, Dir.off), (1, .input), (2, .output)] →
      (s.dev.hwk.locked = false ∨ s.dev.hwkBound n = false) →
      exec (.cocChConfig d) s = .next (s.withDev (s.dev.cocCommand d
        (.config n ⟨dir, deb, per, bitOf (d.w 3) 2, bitOf (d.w 3) 3⟩)))) ∧
    (d.object = 0 → d.w64 3 < 2 ^ s.dev.fios → d.w64 5 < 2 ^ 48 →
      (∀ n, n ∈ maskBits 48 (d.w64 3) → (s.dev.fioCfg n).dir = .output) →
      (∀ f, s.dev.coc.mirror = some f → f.sag = false ∧ f.wdTrip = false) →
      exec (.cocOutSet d) s = .next (s.withDev (s.dev.setCoc (fun c => { c with
        outs := c.outs ++ [⟨c.outNo, d.w64 3, d.w64 5, c.tx.rseq, false, false, d⟩], outNo := c.outNo + 1 })))) ∧
    (d.object = 0 → d.w64 3 < 2 ^ s.dev.fios →
      exec (.cocClear d) s = .next (s.withDev (s.dev.cocCommand d (.clear (d.w64 3))))) ∧
    (d.object = 0 → bitsOf (d.w 3) 31 2 = 0 → (bitOf (d.w 3) 0 = true → s.dev.fieldLow = false) →
      (bitOf (d.w 3) 1 = true → s.dev.coc.link.up = true) →
      exec (.cocRelease d) s = .next (s.withDev
        (s.dev.cocCommand d (.release (bitOf (d.w 3) 0) (bitOf (d.w 3) 1))))) ∧
    (∀ f, d.object = 0 → s.dev.coc.mirror = some f →
      exec (.cocRead d) s = .next (s.withDev (s.dev.complete d .done f.dt0
        (maskWords (f.mask (·.level)) ++ maskWords (f.mask (·.valid)) ++ maskWords (f.mask (·.faulty))
          ++ [f.vmon, wordN f.taps])))) ∧
    (d.object = 0 → s.dev.coc.mirror = none →
      exec (.cocRead d) s = .next (s.withDev (s.dev.complete d .done (s.dev.dispatchedAt d) [0, 0, 0, 0, 0, 0, 0, 0x100])))

/-- The resets complete with their own effect (17 R385, R392, R394): PORST_N, a supply below its reset threshold and a
lost PLL lock reset the logic die with their cause and hold it; each release lets go of its hold, and the start-up
begins with the last; a PMU_RESET resets 1 ms after its dispatch. The start-up and the supply events complete with
their own effect (17 R383, R392, R393): the root PLL's lock starts device time at 0, an image that checks starts its
cluster and the last of them the firmware with its duties, DEV_READY is released when everything it waits for is
there, an armed power failure is reported and commits the record, an unarmed return of power reports PMU_POWER_OK.
Where the spec leaves a reading open, the model's choice is that of log entry 36. -/
def Obligations.ResetStartUpComplete : Prop :=
  (∀ (s : State) (p : Pmu), p = s.dev.pmu →
    exec .porstNLow s = .next (s.withDev (s.dev.resetLogic 0 (putBit p.held 0 true))) ∧
    (∀ i : Fin 4, exec (.supplyReset i) s = .next (s.withDev (s.dev.resetLogic 1 (putBit p.held (i + 1) true)))) ∧
    (p.locked = true → exec .pllLockLost s = .next (s.withDev (s.dev.resetLogic 2 (putBit p.held 5 true)))) ∧
    (∀ ok corr, tbit p.held 0 = true →
      (putBit p.held 0 false ≠ 0 → exec (.porstNRelease ok corr) s = .next (s.withDev { s.dev with
        pmu := { p with held := putBit p.held 0 false } })) ∧
      (putBit p.held 0 false = 0 → exec (.porstNRelease ok corr) s = .next (s.withDev
        (({ s.dev with pmu := { p with held := 0 } } : Dev).startUp ok corr)))) ∧
    (∀ (i : Fin 4) ok corr, tbit p.held (i + 1) = true →
      (putBit p.held (i + 1) false ≠ 0 → exec (.supplyMonitorRelease i ok corr) s = .next (s.withDev { s.dev with
        pmu := { p with held := putBit p.held (i + 1) false } })) ∧
      (putBit p.held (i + 1) false = 0 → exec (.supplyMonitorRelease i ok corr) s = .next (s.withDev
        (({ s.dev with pmu := { p with held := 0 } } : Dev).startUp ok corr)))) ∧
    (∀ ok corr, tbit p.held 5 = true →
      (putBit p.held 5 false ≠ 0 → exec (.pllRelockRelease ok corr) s = .next (s.withDev { s.dev with
        pmu := { p with held := putBit p.held 5 false } })) ∧
      (putBit p.held 5 false = 0 → exec (.pllRelockRelease ok corr) s = .next (s.withDev
        (({ s.dev with pmu := { p with held := 0 } } : Dev).startUp ok corr)))) ∧
    (∀ t ok corr, s.dev.powered 0 = true → p.resetAt = some t → t ≤ s.dev.dt →
      exec (.pmuResetDelayExpiry ok corr) s = .next (s.withDev ((s.dev.resetLogic 3 0).startUp ok corr)))) ∧
  (∀ (s : State) (p : Pmu), p = s.dev.pmu → s.dev.powered 0 = true →
    (p.held = 0 → p.locked = false →
      exec .rootPllLock s = .next (s.withDev { s.dev with
        dt := 0
        sram := []
        coc := { s.dev.coc with training := true }
        pmu := { p with locked := true, stage := 2, pwr := domainsOn 0 (2 ^ s.dev.clusters - 1) (s.dev.bit Reg.pmuCfg 4) } })) ∧
    (∀ a b pkg y z, p.locked = true → s.dev.chry.mounted = true → p.loaded = false →
      y = (List.range s.dev.clusters ++ [4]).foldl (fun (s : Dev) t => s.loadTarget a b pkg t) s.dev →
      z = ({ y with pmu := { y.pmu with
        loaded := true, stage := if y.pmu.bootErr = 0 then 8 else 7, cocAbsent := !y.coc.link.up } } : Dev) →
      exec (.firmwareLoadComplete a b pkg) s = .next (s.withDev (if y.pmu.bootErr = 0 then z.admitFirmware else z))) ∧
    (p.ready = false → s.dev.fuseOk = true → p.loaded = true → p.bootErr = 0 →
        (p.cocAbsent = true ∨ s.dev.coc.calFail = true ∨ ∃ m, s.dev.coc.mirror = some m ∧ m.calOk = true) →
      exec .devReady s = .next (s.withDev (({ s.dev with pmu := { p with ready := true, stage := 9 } } : Dev).emit
        (.pin .devReady true)))) ∧
    (∀ pf low v, (pf || low) = true → p.pfArmed = false →
      exec (.pmuPowerFail pf low v) s = .next (s.withDev { s.dev with
        pmu := { p with pfN := p.pfN && !pf, vddLow := p.vddLow || low } })) ∧
    (∀ pf low v y, (pf || low) = true → p.pfArmed = true →
      y = ({ s.dev with pmu := { p with pfN := p.pfN && !pf, vddLow := p.vddLow || low, pfArmed := false } } : Dev).setBit
        Reg.pmuPf 2 true →
      exec (.pmuPowerFail pf low v) s = .next (s.withDev
        (((((y.event 13 8 3 0 y.dt [b2n pf + 2 * b2n low, v]).chrInc 1 4)).commitRecord 2 none).storePosition))) ∧
    (∀ v, p.pfArmed = false →
      exec (.pmuPowerOk v) s = .next (s.withDev (({ s.dev with pmu := { p with
        pfN := true, vddLow := false, pfArmed := true } } : Dev).event 13 2 4 0 s.dev.dt [v]))))

/-- The power states' events and commands complete with their own effect (17 R386-R389, R395, R396): a target change
and an expired delay take the deepest state that qualifies, in STEEP and BEAN as the wake of source 2, an entry into
STEEP or BEAN isolates its domains once its duties are suspended, an entry or exit ends in its state with PMU_STATE,
an enabled wake source takes the target out of sleep, PMU_STATUS answers, PMU_RESET is remembered 1 ms ahead. Where
the spec leaves a reading open, the model's choice is that of log entry 36. -/
def Obligations.PowerStatesComplete : Prop :=
  ∀ (s : State) (p : Pmu), p = s.dev.pmu → s.dev.powered 0 = true →
    (∀ y, y = s.dev.noteConditions →
      (∀ k, y.sleepState = some k → (∀ j, p.phase ≠ .entering j) → y.deepest < k → k ≤ p.target →
        exec .powerTargetChange s = .next (s.withDev (y.wake 2 0))) ∧
      ((y.sleepState = none ∨ (∃ j, p.phase = .entering j) ∨ ∃ k, y.sleepState = some k ∧ (k ≤ y.deepest ∨ p.target < k)) →
        exec .powerTargetChange s = .next (s.withDev (y.takeTarget y.deepest))) ∧
      (∀ k : Fin 5, 2 ≤ (k : Nat) → y.heldLong k = true →
        exec (.powerEntryDelayExpiry k) s = .next (s.withDev (y.takeTarget y.deepest)))) ∧
    (∀ k y, p.phase = .entering k → 3 ≤ k →
      (p.suspended = true ∨ 3 ≤ p.state ∧ p.stored = true ∧ s.dev.chry.run.isNone = true) → y = s.dev.domainsOff k →
      exec .powerStateEntry s = .next (s.withDev { y with pmu := { y.pmu with phase := .isolated k, entryAt := y.dt } })) ∧
    (∀ k z, (p.phase = .isolated k ∨ (p.phase = .entering k ∧ k < 3)) ∧ z = s.dev ∨
        p.phase = .leaving k ∧ (3 ≤ p.state ∧ k < 3 ∧ z = s.dev.domainsBack ∨
          p.state = 4 ∧ 3 ≤ k ∧ z = { s.dev with pmu := { p with pwr := domainsOn k 0 false } } ∨
          p.state < 4 ∧ ¬ (3 ≤ p.state ∧ k < 3) ∧ z = s.dev) →
      exec .pmuState s = .next (s.withDev (z.settleIn k))) ∧
    (∀ (z : Dev) k y w, y = ({ z with pmu := { z.pmu with state := k, phase := .settled } } : Dev) →
      w = (if k ≤ z.pmu.state then y else if k = 3 then y.chrInc 1 5 else if k = 4 then y.chrInc 1 6 else y) →
      z.settleIn k = (w.event 13 1 1 0 w.dt [z.pmu.state, k, w.pmuBlock]).followTarget) ∧
    (∀ source object k y, (p.phase = .settled ∧ 3 ≤ k ∧ p.state = k ∨ p.phase = .isolated k ∨
        ∃ j, p.phase = .entering j ∧ 3 ≤ j ∧ s.dev.wakes source object j = true ∧ k = p.state) →
      ((∀ j, p.phase ≠ .entering j) → s.dev.wakes source object k = true) → source ≠ 2 →
      y = (({ s.dev with pmu := { p with
        lastWake := wordN (source * 2 ^ 24 + object % 2 ^ 24), steepSince := none, beanSince := none } } : Dev).event 13 2 2 0
          s.dev.dt [source, object, k]).noteConditions →
      exec (.pmuWake source object) s = .next (s.withDev (y.takeTarget y.deepest))) ∧
    (∀ n, (∀ j, p.phase ≠ .entering j) → n = (s.dev.reg Reg.pmuTimer).toNat → n ≠ 0 → p.entryAt + n * 1000000 ≤ s.dev.dt →
      exec .pmuTimerExpiry s = .next (s.withDev (s.dev.wake 10 0))) ∧
    (∀ d, s.dev.isInFlight d = true → d.object = 0 → exec (.pmuStatus d) s = .next (s.withDev (s.dev.complete d .done (s.dev.dispatchedAt d)
      [s.dev.pmuStatWord, s.dev.pmuTolWord, s.dev.pmuDomWord, p.lastWake]))) ∧
    (∀ d, s.dev.isInFlight d = true → d.object = 0 → bitsOf (d.w 3) 15 0 = 0xC0FE →
      exec (.pmuReset d) s = .next (s.withDev { s.dev with pmu := { p with
        resetAt := some (p.resetAt.getD (s.dev.dispatchedAt d + 1000000)) } }))

/-- The lifetime record's rows complete with their own effect (18 R403-R406, R413): a mount takes the slot of the
greater GEN and counts its errors, a period that has run starts a commit into the other slot, the commit's end makes
that slot current and completes what it served, CHR_COMMIT starts one, CHR_READ writes the current record. Where the
spec leaves a reading open, the model's choice is that of log entry 37. -/
def Obligations.RecordRowsComplete : Prop :=
  ∀ (s : State), s.dev.powered 10 = true → s.dev.powered 0 = true →
    (∀ corr unc fmt y z, s.dev.pmu.locked = true → s.dev.chry.mounted = false →
      fmt = formatOf (if (kget UpdTarget.reset s.dev.upd.targets 0).active
        then (kget UpdTarget.reset s.dev.upd.targets 0).pkgB else (kget UpdTarget.reset s.dev.upd.targets 0).pkgA) →
      z = ({ y with
        cpf := { y.cpf with table := newer (·.gen) y.chry.tabA y.chry.tabB, stored := newer (·.serial) y.chry.posA y.chry.posB }
        pmu := { y.pmu with stage := if y.pmu.ready then y.pmu.stage else 4 } } : Dev) →
      (∀ r t, s.dev.chry.current false false = some (t, r) → r.format = fmt →
        y = (let x := (({ s.dev with chr := mergeCounters r.counters s.dev.chr } : Dev).chrAdd 9 89 corr).chrAdd 9 94 unc
          { x with chry := { x.chry with
            mounted := true, fresh := false, archived := false, format := fmt, gen := r.gen, cur := t,
            archive := x.chry.archive.take 29, since := x.dt, period := x.chrPeriod, lost := none } }) →
        (s.dev.chry.lost = none → exec (.chrMount corr unc false false) s = .next (s.withDev
          (z.event 14 2 2 0xFF s.dev.dt [1, fmt, r.gen]))) ∧
        (∀ g v, s.dev.chry.lost = some g → v = z.event 14 2 2 0xFF s.dev.dt [1, fmt, r.gen] →
          exec (.chrMount corr unc false false) s = .next (s.withDev (v.event 14 6 3 0xFF v.dt [g])))) ∧
      (∀ bA bB, s.dev.chry.current bA bB = none → s.dev.chry.lost = none →
        y = (let x := (({ s.dev with chr := mergeCounters [] s.dev.chr } : Dev).chrAdd 9 89 corr).chrAdd 9 94 unc
          { x with chry := { x.chry with
            mounted := true, fresh := true, archived := false, format := fmt, gen := 1, cur := true,
            slotA := if bA then none else x.chry.slotA, slotB := if bB then none else x.chry.slotB,
            archive := x.chry.archive.take 29, since := x.dt, period := x.chrPeriod, lost := none } }) →
        exec (.chrMount corr unc bA bB) s = .next (s.withDev (z.event 14 6 2 0xFF s.dev.dt [5, 0, 1])))) ∧
    (s.dev.chry.mounted = true → s.dev.chry.run = none →
      s.dev.chry.since + s.dev.chry.period * 60000000000 ≤ s.dev.dt →
      exec .chrPeriodExpiry s = .next (s.withDev { s.dev with chry := { s.dev.chry.setSlot (!s.dev.chry.cur) none with
        run := some ⟨1, [], s.dev.chry.gen + 1, s.dev.dt, s.dev.chr⟩ } })) ∧
    (∀ r m y z d, s.dev.chry.run = some r → r.cause = 4 → r.descs = [d] → 
      s.dev.savePosition.saveTable.capture r.start = (m, y) →
      z = (y.setChry (fun c => { c.setSlot (!c.cur) (some (y.record m r.gen r.at_)) with
        cur := !c.cur, gen := r.gen, last := y.dt, since := y.dt, period := y.chrPeriod, run := none, lost := none })).event 14 1 1 0xFF y.dt
          [r.gen, 4] →
      exec .chrCommitted s = .next (s.withDev (z.complete d .done z.dt [lo64 r.gen, hi64 r.gen]))) ∧
    (∀ d, s.dev.isInFlight d = true → d.object = 0 → s.dev.chry.mounted = true → s.dev.chry.run = none →
      exec (.chrCommit d) s = .next (s.withDev { s.dev with chry := { s.dev.chry.setSlot (!s.dev.chry.cur) none with
        run := some ⟨4, [d], s.dev.chry.gen + 1, s.dev.dt, s.dev.chr⟩ } })) ∧
    (∀ d r b y, s.dev.isInFlight d = true → d.object = 0 → bitsOf (d.w 3) 15 8 = 0 → s.dev.addrOk d (d.w64 4) (d.w 6).toNat = true →
      s.dev.readRecord (bitsOf (d.w 3) 1 0) (bitsOf (d.w 3) 7 2) = some r → r.part (bitsOf (d.w 3) 31 16) = some b →
      y = s.dev.hostWrite d (d.w64 4) (b.take (d.w 6).toNat) →
      exec (.chrRead d) s = .next (s.withDev
        (y.complete d .done y.dt [wordN (b.take (d.w 6).toNat).length, wordN r.format, lo64 r.gen])))

/-- The update rows complete with their own effect when their checks pass (18 R407-R413): UPD_WRITE fills the slot
that is not active and clears its VERIFIED, UPD_VERIFY of an image without fault sets it, UPD_ACTIVATE of a verified
slot of a cluster that is down commits at once, the loaded image runs and completes the command, a trial is confirmed
by its time or by UPD_CONFIRM, UPD_ROLLBACK of a confirmed cluster that is down turns to its other verified slot.
Where the spec leaves a reading open, the model's choice is that of log entry 37. -/
def Obligations.UpdateRowsComplete : Prop :=
  ∀ (s : State) (d : Desc) (t : Nat) (x : UpdTarget), s.dev.powered 0 = true → t = bitsOf d.object 2 0 →
    bitsOf d.object 31 3 = 0 → t < s.dev.clusters → x = s.dev.target t →
    (∀ img y b, s.dev.isInFlight d = true → s.dev.hiu.d3hot = false → y = s.dev.charge d.qp img.length → b = (y.fetch d (d.w64 4) img).take (d.w 6).toNat → x.trial = false →
      (d.w 6).toNat ≤ 65536 → (d.w 3).toNat + (d.w 6).toNat ≤ 0x100000 → y.addrOk d (d.w64 4) (d.w 6).toNat = true →
      s.dev.upd.op = none →
      exec (.updWrite d img) s = .next (s.withDev
        (((y.setFlashBytes (slotBase t (!x.active) + (d.w 3).toNat) b).setTarget t (x.setVerified (!x.active) false)).complete
          d .done ((y.setFlashBytes (slotBase t (!x.active) + (d.w 3).toNat) b).setTarget t
            (x.setVerified (!x.active) false)).dt [wordN b.length]))) ∧
    (∀ pkg, s.dev.isInFlight d = true → pkg = leAt (s.dev.flashBytes (slotBase t (!x.active)) 64) 8 4 % 2 ^ 24 →
      s.dev.imageFault t (!x.active) true = 0 →
      exec (.updVerify d true) s = .next (s.withDev
        ((s.dev.setTarget t ((x.setVerified (!x.active) true).setPkg (!x.active) pkg)).complete d .done s.dev.dt
          [0, wordN pkg]))) ∧
    (s.dev.isInFlight d = true → x.verified (!x.active) = true → s.dev.upd.op = none → s.dev.clusterUp t = false →
      exec (.updActivate d) s = .next (s.withDev
        (s.dev.setUpdOp (some ⟨t, !x.active, 0, some d, some s.dev.dt⟩))) ∧
      (x.trial = false → exec (.updRollback d) s = .next (s.withDev
        (s.dev.setUpdOp (some ⟨t, !x.active, 1, some d, some s.dev.dt⟩))))) ∧
    (∀ o y e, s.dev.upd.op = some o → o.target = t → o.cause = 0 → o.desc = some d → o.commit = some e →
      s.dev.clusterUp t = false → s.dev.eng.falling = none → y = (s.dev.runImage o).setUpdOp none →
      exec .updActivated s = .next (s.withDev ((y.event 14 2 0x0101 t y.dt [(y.target t).runPkg, b2n o.slot]).complete d .done e
        [wordN (y.target t).runPkg]))) ∧
    (∀ (k : Fin 5) y, (k : Nat) = t → x.trial = true → x.back = 0 → s.dev.upd.op = none →
      y = s.dev.setTarget t { x with active := x.tslot, trial := false, back := 0 } →
      (x.trialAt + x.trialFor ≤ s.dev.dt →
        exec (.trialTimeout k) s = .next (s.withDev (y.event 14 2 0x0102 t y.dt [x.runPkg, 0]))) ∧
      (s.dev.isInFlight d = true → exec (.updConfirm d) s = .next (s.withDev ((y.event 14 2 0x0102 t y.dt [x.runPkg, 1]).complete d .done
        s.dev.dt [wordN (b2n x.tslot)]))))

/-- The register file (19 R416, R417, R421, 15 R350): a 32-bit write of a register without a row of its own stores its
RW fields and clears its W1C bits written 1; a locked field keeps its value and sets the block's CFGIGN when it would
have changed; a 64-bit write is two, the lower first; any other write is ignored with CFGIGN; a read of a _LO register
captures its pair, a narrow read returns its byte lanes, a misaligned one zero; the doorbells, the MSI-X table and the
configuration space answer beyond BAR0; HIU_IDENTIFY writes the identity and capability blocks. Where the spec leaves
a reading open, the model's choice is that of log entry 38. -/
def Obligations.RegisterRowsComplete : Prop :=
  ∀ (s : State) (off : Nat) (v : BitVec 64) (q : List Desc), s.dev.powered 7 = true → s.dev.hiu.d3hot = false →
    (off < bar2At → (∀ r live n w, off % 4 = 0 → regDef? off = some r → s.dev.regAbsent off = false → live = s.dev.powered (windowDomain off) →
      r.base ∉ [0x48, 0x3000, 0x3200, 0x3800, 0x5010, 0x6000, 0x9000, 0xA000, 0xA600] → r.wl = 0 → ¬ (0x50 ≤ off ∧ off ≤ 0x68) →
      n = r.place off →
      w = clampWrite r.base (writeBits (s.dev.reg off) (lo64 v.toNat) r.rw (if live = true then r.w1c else 0)) →
      (s.dev.lockOf r.base n w = none →
        exec (.registerWrite off 4 v q) s = .next (s.withDev ((((s.dev.beforeWrite r.base n).setReg off w).afterWrite r.base n s.dev)))) ∧
      (∀ mask, s.dev.lockOf r.base n w = some (mask, none) →
        exec (.registerWrite off 4 v q) s = .next (s.withDev (s.dev.setReg off (keepBits (s.dev.reg off) w mask)))) ∧
      (∀ mask reg bit, s.dev.lockOf r.base n w = some (mask, some (reg, bit)) →
        exec (.registerWrite off 4 v q) s = .next (s.withDev
          ((if (live && keepBits (s.dev.reg off) w mask != w) = true then s.dev.setBit reg bit true else s.dev).setReg off
            (keepBits (s.dev.reg off) w mask))))) ∧
    (off % 4 = 0 → exec (.registerWrite off 8 v q) s = .next (s.withDev
      ((s.dev.writeReg off (lo64 v.toNat) q).writeReg (off + 4) (hi64 v.toNat) q))) ∧
    (∀ size, off % 4 ≠ 0 ∨ (size ≠ 4 ∧ size ≠ 8) → s.dev.allAbsent off size = false →
      exec (.registerWrite off size v q) s = .next (s.withDev (s.dev.setBit Reg.hiuStatus 4 true))) ∧
    (∀ x z, s.dev.pairValue off = some z → x = (if s.dev.powered (windowDomain off) = true then z else 0) → off % 4 = 0 →
      exec (.loRegisterCapture ⟨off, 4⟩) s = .next (s.withDev
        (({ s.dev with hiu := { s.dev.hiu with capture := kput 0 s.dev.hiu.capture (off + 4) (hi64 x) } } : Dev).emit
          (.barRead off (lo64 x))))) ∧
    (s.dev.pairValue off = none → off % 4 = 0 →
      exec (.loRegisterCapture ⟨off, 4⟩) s = .next (s.withDev (s.dev.emit (.barRead off (s.dev.readReg off))))) ∧
    (∀ lane size v, lane < 4 → lane + size ≤ 4 → off % 4 = 0 → s.dev.pairValue off = none →
      v = (s.dev.readReg off).toNat / 2 ^ (8 * lane) % 2 ^ (8 * size) →
      exec (.loRegisterCapture ⟨off + lane, size⟩) s = .next (s.withDev (s.dev.emit (.barRead (off + lane) (wordN v))))) ∧
    (∀ size, 4 < off % 4 + size → ¬ (off % 4 = 0 ∧ size = 8) →
      exec (.loRegisterCapture ⟨off, size⟩) s = .next (s.withDev (s.dev.emit (.barRead off 0))))) ∧
    (bar2At ≤ off → off < configAt →
      (∀ size, exec (.registerWrite off size v q) s = .next (s.withDev (bar2Write (off - bar2At) size v s.dev))) ∧
      (off % 4 = 0 → exec (.loRegisterCapture ⟨off, 4⟩) s = .next (s.withDev (s.dev.emit (.barRead off (s.dev.readBar2 (off - bar2At))))))) ∧
    (configAt ≤ off →
      (off % 4 = 0 → exec (.registerWrite off 4 v q) s = .next (s.withDev (configWrite (off - configAt) (lo64 v.toNat) s.dev))) ∧
      (off % 4 = 0 → exec (.loRegisterCapture ⟨off, 4⟩) s = .next (s.withDev (s.dev.emit (.barRead off (s.dev.configRead (off - configAt))))))) ∧
    (∀ d, s.dev.isInFlight d = true → d.object = 0 → d.qp = 0 → exec (.hiuIdentify d) s = .next (s.withDev
      ((s.dev.hostWrite d (d.w64 3) s.dev.identityBytes).complete d .done (s.dev.dispatchedAt d) [100])))

/-- R418 of 19: a register of a fused-off resource reads zero, and a write of it changes nothing, whatever its size
and alignment, alone or as one half of a 64-bit write. -/
def Obligations.AbsentRegisters : Prop :=
  (∀ (s : Dev) (off : Nat) (v : Word) (q : List Desc), s.regAbsent off = true → s.readReg off = 0 ∧ s.writeReg off v q = s) ∧
  (∀ (s : State) (off size : Nat) (v : BitVec 64) (q : List Desc), off < bar2At → s.dev.allAbsent off size = true →
    exec (.registerWrite off size v q) s = .next s)

/-- A step takes the command at the front of the queue and runs it with the queue's rest. With an empty queue one
nanosecond passes (the model's choice, log entry 1). -/
def Obligations.StepRunsTheFrontCommand : Prop :=
  (∀ (c : Instr) (s : State), step { s with pending := c :: s.pending } = exec c s) ∧
  (∀ s : State, s.pending = [] → step s = .next (s.withDev s.dev.nanosecond))

/-- No command stops the block and none touches the queue: from every state, k steps take the first k waiting
commands, first in, first out, and the block runs on for ever. -/
def Obligations.QueueDrainsInOrder : Prop :=
  ∀ (s : State) (k : Nat), ∃ t, core.run k s = .next t ∧ t.pending = s.pending.drop k

/-- A block in a domain that is off executes nothing, takes no command and produces no output (01 R9): commands of
PD6, PD5, PD8, PD7, PD0 and PD10 that hand over no host memory leave the whole state as it is. -/
def Obligations.OffBlockDoesNothing : Prop :=
  ∀ (s : State) (d : Desc),
    (s.dev.powered 6 = false → ∀ i ∈ ([.pfiRead d, .pfiSetPos d, .pfiCmpArm d, .pfiCmpDisarm d, .pfiClear d, .pfiLatch d,
      .cpfRead d, .cpfSetLoad d, .cpfLearn d, .cpfCorrect d, .cpfTableRead d, .cpfTableCommit d, .msqHEnable d, .msqHDisable d,
      .msqHGoto d, .msqHSpeed d, .msqHStop d, .msqHRead d, .msqDEnable d, .msqDDisable d,
      .msqDOpen d, .msqDClose d, .msqDGoto d, .msqDStop d, .msqDRead d, .msqBSet d, .lpeCommit d, .lpeHandover d, .lpeRead d,
      .cpfPeriod, .msqProfileStep, .msqDoorStep, .framePhaseZero] : List Instr), exec i s = .next s) ∧
    (s.dev.powered 5 = false → ∀ i ∈ ([.monCall d, .monCancel d, .monCarMode d, .monTripRead d, .monCarRead d,
      .monConfigCommit d, .monCarDoors d, .grpConfig d, .grpJoin d, .grpLeave d, .grpStatus d, .grpSnapshotRead d,
      .monApplyCall, .monApplyTick, .monEvaluationComplete, .heartbeatSend, .heartbeatReceived] : List Instr),
      exec i s = .next s) ∧
    (s.dev.powered 8 = false → ∀ i ∈ ([.stlRx d, .stlStatus d, .canRx d, .canRecover d, .spiRead d, .ptpSyncSend,
      .hostFrameStart, .drvFaultReset d, .drvRead d, .drvSetpointFrame] : List Instr), exec i s = .next s) ∧
    (s.dev.powered 7 = false → ∀ i ∈ ([.hiuHello d, .hiuIdentify d, .hiuQpConfig d, .hiuQpEnable d, .hiuQpStatus d] : List Instr),
      exec i s = .next s) ∧
    (s.dev.powered 0 = false → ∀ i ∈ ([.pmuReset d, .pmuStatus d, .chrRead d, .updActivate d, .updConfirm d,
      .updRollback d, .powerTargetChange, .pmuState, .devReady] : List Instr), exec i s = .next s) ∧
    (s.dev.powered 10 = false → ∀ i ∈ ([.chrCommit d, .chrPeriodExpiry, .chrCommitted, .chrMount 0 0 false false] : List Instr),
      exec i s = .next s)

/-- After reset every register holds the value the spec gives it (19 R423): each stored setup register its Reset
value, device time 0, no counter counted, the SRAM in its canonical form with nothing listed, no queue pair enabled,
CPF UNREFERENCED with the greatest uncertainty, every field channel off, no axis enabled, no permit given, nothing
admitted, every domain off while PORST_N holds the logic die, and no command waits. -/
def Obligations.ResetState : Prop :=
  State.reset.pending = [] ∧ State.reset.dev.dt = 0 ∧ State.reset.dev.chr = [] ∧ State.reset.dev.out = [] ∧
    (∀ off, State.reset.dev.reg off = regReset off) ∧ kwf 0 State.reset.dev.sram = true ∧ State.reset.dev.sram = [] ∧
    (∀ q, (State.reset.dev.qp q).active = false) ∧ State.reset.dev.cpf.state = .unreferenced ∧
    State.reset.dev.cpf.u = 0xFFFFFFFF ∧ (∀ n, (State.reset.dev.fio n).cfg.dir = .off ∧ (State.reset.dev.fio n).cmd = false) ∧
    State.reset.dev.anyAxisEnabled = false ∧ State.reset.dev.hwk.locked = false ∧ State.reset.dev.hwk.permits = .none ∧
    State.reset.dev.hwkF.permits = .none ∧ State.reset.dev.tlg.duties = [] ∧ (∀ h, State.reset.dev.kernel h = none) ∧
    (∀ pd, State.reset.dev.powered pd = false)

/-- The shared SRAM keeps its canonical form through every step of every command: word addresses rise strictly and no
word that reads as an unlisted one is listed. -/
def Obligations.SramStaysCanonical : Prop :=
  ∀ (s t : State), kwf 0 s.dev.sram = true → step s = .next t → kwf 0 t.dev.sram = true

/-- What a command writes for its submitter (15 R341, 12 Table 12-1): through a LOCAL queue pair exactly the bytes of
its window of the shared SRAM, every byte outside it reading as before; through any other queue pair no byte of it,
and the block sends the bytes to the host, or holds them while D3hot stops DMA (R330). -/
def Obligations.HostWriteBytes : Prop :=
  ∀ (s : Dev) (d : Desc) (a : Nat) (b : List Byte),
    (s.isLocal d = true →
      (∀ k, a ≤ k → k < a + b.length → (s.hostWrite d a b).sramByte k = b.getD (k - a) 0) ∧
      (∀ k, k < a ∨ a + b.length ≤ k → (s.hostWrite d a b).sramByte k = s.sramByte k) ∧
      (s.hostWrite d a b).out = s.out) ∧
    (s.isLocal d = false → (s.hostWrite d a b).sram = s.sram ∧
      (s.hiu.d3hot = false → (s.hostWrite d a b).out = s.out ++ [.hostWrite a b] ∧ (s.hostWrite d a b).hiu.held = s.hiu.held) ∧
      (s.hiu.d3hot = true → (s.hostWrite d a b).out = s.out ∧
        (s.hostWrite d a b).hiu.held = s.hiu.held ++ [.hostWrite a b]))

/-- Completing a command and raising an event (15 R336, R338, R341) change the queue pairs, the shared SRAM, where a
LOCAL queue pair has its rings, and what the block sends, and no other state of any block. -/
def Obligations.CompletionsAndEventsFrame : Prop :=
  ∀ (s : Dev),
    (∀ d st commit res, ∃ m h o, s.complete d st commit res = { s with sram := m, hiu := h, out := o }) ∧
    (∀ src sev code obj time payload, ∃ m h o,
      s.event src sev code obj time payload = { s with sram := m, hiu := h, out := o })

/-- COUNT (03 R34): samples of a new level that are fewer than FILT + 1 change no level and no count, and the first
sample of the accepted levels cancels them. Where the spec leaves a reading open, the model's choice is that of log
entry 8. -/
def Obligations.CountFilters : Prop :=
  (∀ (n : Fin 8) (a b : Bool) (s : State), s.dev.powered 6 = true →
    (s.dev.chan n).runA + 1 < s.dev.filt n → (s.dev.chan n).runB + 1 < s.dev.filt n →
    exec (.count n a b) s = .next (s.withDev (s.dev.setChan n { s.dev.chan n with
      pinA := a, pinB := b,
      runA := if a = (s.dev.chan n).qa then 0 else (s.dev.chan n).runA + 1,
      runB := if b = (s.dev.chan n).qb then 0 else (s.dev.chan n).runB + 1 }))) ∧
  (∀ (n : Fin 8) (s : State), s.dev.powered 6 = true →
    exec (.count n (s.dev.chan n).qa (s.dev.chan n).qb) s = .next (s.withDev (s.dev.setChan n { s.dev.chan n with
      pinA := (s.dev.chan n).qa, pinB := (s.dev.chan n).qb, runA := 0, runB := 0 })))
end

