-- ==== Sys2Proof/Laws/KMap.lean ====
section
/-! SUPPORT. The laws of a keyed table: a read after a write of the same key gives the value written, a write leaves
every other key alone, and every operation keeps the canonical form. -/
namespace Sys2Proof.Machine

variable {α : Type}

theorem kget_kins_same (d : α) (k : Nat) (v : α) : ∀ m : KMap α, kget d (kins k v m) k = v
  | [] => by simp [kins, kget]
  | (i, w) :: t => by
    unfold kins
    split
    · simp [kget]
    · split
      · simp [kget]
      · rename_i h
        simp [kget, Ne.symm h, kget_kins_same d k v t]

theorem kget_kins_other (d : α) {k j : Nat} (h : j ≠ k) (v : α) : ∀ m : KMap α, kget d (kins k v m) j = kget d m j
  | [] => by simp [kins, kget, Ne.symm h]
  | (i, w) :: t => by
    unfold kins
    split
    · simp [kget, Ne.symm h]
    · split
      · rename_i e
        subst e
        simp [kget, Ne.symm h]
      · simp [kget, kget_kins_other d h v t]

theorem kget_kdel_same (d : α) (k : Nat) : ∀ m : KMap α, kget d (kdel k m) k = d
  | [] => rfl
  | (i, w) :: t => by
    unfold kdel
    split
    · exact kget_kdel_same d k t
    · rename_i h
      simp [kget, h, kget_kdel_same d k t]

theorem kget_kdel_other (d : α) {k j : Nat} (h : j ≠ k) : ∀ m : KMap α, kget d (kdel k m) j = kget d m j
  | [] => rfl
  | (i, w) :: t => by
    unfold kdel
    split
    · rename_i e
      subst e
      simp [kget, Ne.symm h, kget_kdel_other d h t]
    · simp [kget, kget_kdel_other d h t]

variable [DecidableEq α]

/-- A read after a write of the same key. -/
@[simp] theorem kget_kput_same (d : α) (m : KMap α) (k : Nat) (v : α) : kget d (kput d m k v) k = v := by
  unfold kput
  split
  · rename_i h
    rw [kget_kdel_same, h]
  · exact kget_kins_same d k v m

/-- A write leaves every other key alone. -/
theorem kget_kput_other (d : α) (m : KMap α) {k j : Nat} (h : j ≠ k) (v : α) : kget d (kput d m k v) j = kget d m j := by
  unfold kput
  split
  · exact kget_kdel_other d h m
  · exact kget_kins_other d h v m

@[simp] theorem kget_kmod_same (d : α) (m : KMap α) (k : Nat) (f : α → α) : kget d (kmod d m k f) k = f (kget d m k) := by
  simp [kmod]

theorem kget_kmod_other (d : α) (m : KMap α) {k j : Nat} (h : j ≠ k) (f : α → α) : kget d (kmod d m k f) j = kget d m j := by
  simp [kmod, kget_kput_other d m h]

/-! ## The canonical form -/

/-- Writing the same value again changes nothing. -/
theorem kins_idem {α : Type} (k : Nat) (v : α) : ∀ m : KMap α, kins k v (kins k v m) = kins k v m
  | [] => by simp [kins]
  | (i, w) :: t => by
    by_cases h1 : k < i
    · simp [kins, h1]
    · by_cases h2 : k = i
      · simp [kins, h2]
      · simp [kins, h1, h2, kins_idem k v t]

theorem kdel_idem {α : Type} (k : Nat) : ∀ m : KMap α, kdel k (kdel k m) = kdel k m
  | [] => rfl
  | (i, w) :: t => by
    by_cases h : i = k
    · simp [kdel, h, kdel_idem k t]
    · simp [kdel, h, kdel_idem k t]

theorem kput_idem (d : α) (m : KMap α) (k : Nat) (v : α) : kput d (kput d m k v) k v = kput d m k v := by
  unfold kput
  split
  · exact kdel_idem k m
  · exact kins_idem k v m

theorem kwfFrom_mono (d : α) {lo lo' : Nat} (h : lo' ≤ lo) : ∀ m : KMap α, kwfFrom d lo m = true → kwfFrom d lo' m = true
  | [], _ => rfl
  | (i, v) :: t, hw => by
    simp only [kwfFrom, Bool.and_eq_true, decide_eq_true_eq] at hw ⊢
    exact ⟨⟨by omega, hw.1.2⟩, hw.2⟩

theorem kwfFrom_kdel (d : α) (k : Nat) : ∀ (m : KMap α) (lo : Nat), kwfFrom d lo m = true → kwfFrom d lo (kdel k m) = true
  | [], _, _ => rfl
  | (i, v) :: t, lo, hw => by
    simp only [kwfFrom, Bool.and_eq_true, decide_eq_true_eq] at hw
    unfold kdel
    split
    · exact kwfFrom_mono d (by omega) _ (kwfFrom_kdel d k t (i + 1) hw.2)
    · simp only [kwfFrom, Bool.and_eq_true, decide_eq_true_eq]
      exact ⟨hw.1, kwfFrom_kdel d k t (i + 1) hw.2⟩

theorem kwfFrom_kins (d : α) {k : Nat} {v : α} (hv : v ≠ d) :
    ∀ (m : KMap α) (lo : Nat), lo ≤ k → kwfFrom d lo m = true → kwfFrom d lo (kins k v m) = true
  | [], lo, hl, _ => by simp [kins, kwfFrom, hl, hv]
  | (i, w) :: t, lo, hl, hw => by
    simp only [kwfFrom, Bool.and_eq_true, decide_eq_true_eq] at hw
    unfold kins
    split
    · simp only [kwfFrom, Bool.and_eq_true, decide_eq_true_eq]
      exact ⟨⟨hl, hv⟩, ⟨by omega, hw.1.2⟩, hw.2⟩
    · split
      · rename_i e
        subst e
        simp only [kwfFrom, Bool.and_eq_true, decide_eq_true_eq]
        exact ⟨⟨hl, hv⟩, hw.2⟩
      · simp only [kwfFrom, Bool.and_eq_true, decide_eq_true_eq]
        exact ⟨hw.1, kwfFrom_kins d hv t (i + 1) (by omega) hw.2⟩

/-- A write keeps the canonical form. -/
theorem kwf_kput (d : α) (m : KMap α) (k : Nat) (v : α) (h : kwf d m = true) : kwf d (kput d m k v) = true := by
  unfold kput
  split
  · exact kwfFrom_kdel d k m 0 h
  · rename_i hv
    exact kwfFrom_kins d hv m 0 (Nat.zero_le _) h

theorem kwf_kmod (d : α) (m : KMap α) (k : Nat) (f : α → α) (h : kwf d m = true) : kwf d (kmod d m k f) = true :=
  kwf_kput d m k _ h

theorem kwfFrom_filter (d : α) (p : Nat × α → Bool) :
    ∀ (m : KMap α) (lo : Nat), kwfFrom d lo m = true → kwfFrom d lo (m.filter p) = true
  | [], _, _ => rfl
  | (i, v) :: t, lo, hw => by
    simp only [kwfFrom, Bool.and_eq_true, decide_eq_true_eq] at hw
    have ht := kwfFrom_filter d p t (i + 1) hw.2
    rw [List.filter_cons]
    split
    · simp only [kwfFrom, Bool.and_eq_true, decide_eq_true_eq]
      exact ⟨hw.1, ht⟩
    · exact kwfFrom_mono d (by omega) _ ht

/-- Leaving out entries keeps the canonical form. -/
theorem kwf_filter (d : α) (p : Nat × α → Bool) (m : KMap α) (h : kwf d m = true) : kwf d (m.filter p) = true :=
  kwfFrom_filter d p m 0 h

end Sys2Proof.Machine
end

