-- ==== Sys2Proof/Laws/Ops.lean ====
section
/-! SUPPORT. What the shared operations can do: the SRAM's read-after-write laws and its canonical form, and what a
message, an event record and a completion leave alone. -/
namespace Sys2Proof.Machine

/-- The number of a word after eight of its bits are set at byte `r`. -/
theorem setBitsOf_byte (w : Word) (r : Nat) (hr : r < 4) (v : Nat) :
    (setBitsOf w (8 * r + 7) (8 * r) v).toNat =
      w.toNat / 2 ^ (8 * r + 8) * 2 ^ (8 * r + 8) + v % 256 * 2 ^ (8 * r) + w.toNat % 2 ^ (8 * r) := by
  have hw := w.isLt
  have hv : v % 256 < 256 := Nat.mod_lt _ (by decide)
  unfold setBitsOf natBits
  generalize w.toNat = n at *
  rw [BitVec.toNat_ofNat]
  obtain rfl | rfl | rfl | rfl : r = 0 ∨ r = 1 ∨ r = 2 ∨ r = 3 := by omega
  all_goals simp; omega

/-- A byte reads what was stored there, and every other byte of its word as before. -/
theorem setBitsOf_get (w : Word) (r q : Nat) (hr : r < 4) (hq : q < 4) (b : Byte) :
    BitVec.ofNat 8 ((setBitsOf w (8 * r + 7) (8 * r) b.toNat).toNat / 2 ^ (8 * q)) =
      if q = r then b else BitVec.ofNat 8 (w.toNat / 2 ^ (8 * q)) := by
  have hw := w.isLt
  have hb := b.isLt
  apply BitVec.eq_of_toNat_eq
  rw [setBitsOf_byte w r hr]
  obtain rfl | rfl | rfl | rfl : r = 0 ∨ r = 1 ∨ r = 2 ∨ r = 3 := by omega
  all_goals obtain rfl | rfl | rfl | rfl : q = 0 ∨ q = 1 ∨ q = 2 ∨ q = 3 := by omega
  all_goals simp
  all_goals omega

theorem Dev.sramByte_setSramByte_same (s : Dev) (a : Nat) (b : Byte) : (s.setSramByte a b).sramByte a = b := by
  have h : a % 4 < 4 := Nat.mod_lt _ (by decide)
  simp only [Dev.setSramByte, Dev.sramByte, kget_kput_same]
  rw [setBitsOf_get _ _ _ h h, if_pos rfl]

theorem Dev.sramByte_setSramByte_other (s : Dev) {a k : Nat} (h : k ≠ a) (b : Byte) :
    (s.setSramByte a b).sramByte k = s.sramByte k := by
  have hr : a % 4 < 4 := Nat.mod_lt _ (by decide)
  have hq : k % 4 < 4 := Nat.mod_lt _ (by decide)
  simp only [Dev.setSramByte, Dev.sramByte]
  by_cases e : k / 4 = a / 4
  · have : k % 4 ≠ a % 4 := by omega
    rw [e, kget_kput_same, setBitsOf_get _ _ _ hr hq, if_neg this]
  · rw [kget_kput_other _ _ e]

/-- A store of bytes leaves every byte outside it. -/
theorem Dev.sramByte_setSramBytes_outside (l : List Byte) :
    ∀ (s : Dev) (a k : Nat), k < a ∨ a + l.length ≤ k → (s.setSramBytes a l).sramByte k = s.sramByte k := by
  induction l with
  | nil => intro s a k _; rfl
  | cons b t ih =>
    intro s a k h
    simp only [List.length_cons] at h
    rw [Dev.setSramBytes, ih _ _ _ (by omega), Dev.sramByte_setSramByte_other _ (by omega)]

/-- The SRAM keeps its canonical form through a store of bytes. -/
theorem Dev.setSramBytes_wf (l : List Byte) :
    ∀ (s : Dev) (a : Nat), kwf 0 s.sram = true → kwf 0 (s.setSramBytes a l).sram = true := by
  induction l with
  | nil => intro s a h; exact h
  | cons b t ih => intro s a h; exact ih _ _ (kwf_kput _ _ _ _ h)

/-- A store of bytes changes the SRAM alone. -/
theorem Dev.setSramBytes_frame (l : List Byte) :
    ∀ (s : Dev) (a : Nat), ∃ m, s.setSramBytes a l = { s with sram := m } := by
  induction l with
  | nil => intro s a; exact ⟨_, rfl⟩
  | cons b t ih => intro s a; obtain ⟨m, h⟩ := ih (s.setSramByte a b) (a + 1); exact ⟨m, h⟩

/-- `t` differs from `s` at most in the host interface, in what the block sends and, for a LOCAL ring, in the SRAM. -/
def Dev.HostSide (s t : Dev) : Prop := ∃ m h o, t = { s with sram := m, hiu := h, out := o }

theorem Dev.HostSide.refl (s : Dev) : s.HostSide s := ⟨_, _, _, rfl⟩

theorem Dev.HostSide.trans {s t u : Dev} (a : s.HostSide t) (b : t.HostSide u) : s.HostSide u := by
  obtain ⟨_, _, _, rfl⟩ := a
  obtain ⟨m, h, o, rfl⟩ := b
  exact ⟨m, h, o, rfl⟩

theorem Dev.HostSide.dt {s t : Dev} (a : s.HostSide t) : t.dt = s.dt := by
  obtain ⟨_, _, _, rfl⟩ := a
  rfl

theorem Dev.setQp_frame (s : Dev) (q : Nat) (p : QPair) : s.HostSide (s.setQp q p) := ⟨_, _, _, rfl⟩

/-- Anything for the host is sent, or in D3hot held (15 R330). -/
theorem Dev.toHost_frame (s : Dev) (x : Output) : s.HostSide (s.toHost x) := by
  unfold Dev.toHost
  split <;> exact ⟨_, _, _, rfl⟩

theorem Dev.toHost_sram (s : Dev) (x : Output) : (s.toHost x).sram = s.sram := by
  unfold Dev.toHost
  split <;> rfl

/-- A record shown to the host is sent, or in D3hot held (15 R330). -/
theorem Dev.show_frame (s : Dev) (p : QPair) (x : Output) : s.HostSide (s.show p x) := by
  unfold Dev.show
  split
  · exact ⟨_, _, _, rfl⟩
  · exact s.toHost_frame x

/-- A store of bytes to the SRAM. -/
theorem Dev.setSramBytes_side (s : Dev) (a : Nat) (b : List Byte) : s.HostSide (s.setSramBytes a b) := by
  obtain ⟨m, e⟩ := Dev.setSramBytes_frame b s a
  exact ⟨m, _, _, e⟩

/-- Sending or holding a message (15 R340). -/
theorem Dev.msixNote_frame (s : Dev) (v : Option Nat) (n : Nat) (u : Bool) : s.HostSide (s.msixNote v n u) := by
  unfold Dev.msixNote Dev.msixSend
  dsimp only
  repeat' split
  all_goals first
    | exact ⟨_, _, _, rfl⟩
    | exact .trans ⟨_, _, _, rfl⟩ (Dev.toHost_frame _ _)

/-- Writing a ring entry (15 R332, R341). -/
theorem Dev.ringWrite_frame (s : Dev) (p : QPair) (base i : Nat) (b : List Byte) :
    s.HostSide (s.ringWrite p base i b) := by
  unfold Dev.ringWrite
  dsimp only
  repeat' split
  · exact s.toHost_frame _
  · exact s.setSramBytes_side _ b
  · exact .refl s

/-- The SRAM keeps its canonical form through a ring entry. -/
theorem Dev.ringWrite_wf (s : Dev) (p : QPair) (base i : Nat) (b : List Byte) (h : kwf 0 s.sram = true) :
    kwf 0 (s.ringWrite p base i b).sram = true := by
  unfold Dev.ringWrite
  dsimp only
  repeat' split
  · rw [Dev.toHost_sram]
    exact h
  · exact Dev.setSramBytes_wf b s _ h
  · exact h

/-- Writing a completion (15 R336). -/
theorem Dev.writeCompletion_frame (s : Dev) (d : Desc) (st : Status) (c : Nat) (res : List Word) :
    s.HostSide (s.writeCompletion d st c res) := by
  unfold Dev.writeCompletion
  dsimp only
  split
  · exact ⟨_, _, _, rfl⟩
  · refine .trans (.trans (.trans (.trans ?_ (Dev.ringWrite_frame _ _ _ _ _)) (Dev.setQp_frame _ _ _))
      (Dev.show_frame _ _ _)) (Dev.msixNote_frame _ _ _ _)
    split
    · exact s.ringWrite_frame _ _ _ _
    · exact .refl s

/-- Writing the completions of flushed descriptors (15 R344). -/
theorem Dev.flushSome_frame (n q : Nat) : ∀ s : Dev, s.HostSide (Dev.flushSome n q s) := by
  induction n with
  | zero => exact Dev.HostSide.refl
  | succ n ih =>
    intro s
    unfold Dev.flushSome
    dsimp only
    repeat' split
    · exact .refl s
    · refine .trans (.trans ?_ (Dev.writeCompletion_frame _ _ _ _ _)) (ih _)
      exact ⟨_, _, _, rfl⟩
    · refine .trans (.trans ?_ (Dev.writeCompletion_frame _ _ _ _ _)) (ih _)
      exact ⟨_, _, _, rfl⟩
    · exact .refl s

/-- Completing a descriptor (15 R336, R337). -/
theorem Dev.complete_frame (s : Dev) (d : Desc) (st : Status) (c : Nat) (res : List Word) :
    s.HostSide (s.complete d st c res) := by
  have released : s.HostSide ((s.release d).noteFate d st) := by
    unfold Dev.release Dev.noteFate
    dsimp only
    repeat' split
    all_goals exact ⟨_, _, _, rfl⟩
  unfold Dev.complete
  dsimp only
  split
  · split <;> exact ⟨_, _, _, rfl⟩
  · refine .trans ?_ (Dev.flushSome_frame _ _ _)
    split
    · exact released
    · exact released.trans (Dev.writeCompletion_frame _ _ _ _ _)

@[simp] theorem Dev.complete_dt (s : Dev) (d : Desc) (st : Status) (c : Nat) (res : List Word) :
    (s.complete d st c res).dt = s.dt := (s.complete_frame d st c res).dt

/-- Writing an event record (15 R338). -/
theorem Dev.putEvent_frame (s : Dev) (src sev code obj time : Nat) (p : List Int) :
    s.HostSide (s.putEvent src sev code obj time p) := by
  unfold Dev.putEvent
  dsimp only
  exact .trans (.trans (.trans (Dev.ringWrite_frame _ _ _ _ _) (Dev.setQp_frame _ _ _)) (Dev.show_frame _ _ _))
    (Dev.msixNote_frame _ _ _ _)

/-- The credit charged to a queue pair is the only thing a charge changes (15 R335). -/
theorem Dev.charge_frame (s : Dev) (q n : Nat) : ∃ h, s.charge q n = { s with hiu := h } := by
  unfold Dev.charge
  split <;> exact ⟨_, rfl⟩

/-- Device time passes through messages, records, completions, charges and answers. -/
theorem Dev.raiseHiu_dt (s : Dev) (sev code obj time : Nat) (p : List Int) : (s.raiseHiu sev code obj time p).dt = s.dt := by
  have put : ∀ (s : Dev) (a b c d e : Nat) (q : List Int), (s.putEvent a b c d e q).dt = s.dt := by
    intro s a b c d e q
    exact (s.putEvent_frame a b c d e q).dt
  unfold Dev.raiseHiu
  dsimp only
  repeat' split
  all_goals first | rfl | simp only [put] | (simp only [Dev.dropEvent, put])

@[simp] theorem Dev.event_dt (s : Dev) (src sev code obj time : Nat) (p : List Int) :
    (s.event src sev code obj time p).dt = s.dt := by
  have put : ∀ (s : Dev) (a b c d e : Nat) (q : List Int), (s.putEvent a b c d e q).dt = s.dt := by
    intro s a b c d e q
    exact (s.putEvent_frame a b c d e q).dt
  unfold Dev.event
  repeat' split
  all_goals first | rfl | simp only [put, Dev.raiseHiu_dt]

/-- A store or a DMA write of a command, and its charge. -/
theorem Dev.hostWrite_frame (s : Dev) (d : Desc) (a : Nat) (b : List Byte) : s.HostSide (s.hostWrite d a b) := by
  have charged : ∀ t : Dev, t.HostSide (t.charge d.qp b.length) := by
    intro t
    obtain ⟨h, e⟩ := t.charge_frame d.qp b.length
    exact ⟨_, h, _, e⟩
  unfold Dev.hostWrite
  refine .trans ?_ (charged _)
  split
  · exact s.setSramBytes_side a b
  · exact s.toHost_frame _

@[simp] theorem Dev.hostWrite_dt (s : Dev) (d : Desc) (a : Nat) (b : List Byte) : (s.hostWrite d a b).dt = s.dt :=
  (s.hostWrite_frame d a b).dt

end Sys2Proof.Machine
end

