-- ==== Sys2Proof/Laws/State.lean ====
section
/-! SUPPORT. What each update of one part of the block leaves: the part it names takes its new value, and every other
part keeps its own. One lemma for each update, true by rfl, so that no later proof unfolds a record update. -/
namespace Sys2Proof.Machine

@[simp] theorem Dev.bootStage_fields (s : Dev) (n : Nat) :
    (s.bootStage n).pmu = { s.pmu with stage := if s.pmu.ready then s.pmu.stage else n } ∧ (s.bootStage n).part = s.part ∧
    (s.bootStage n).fuseOk = s.fuseOk ∧ (s.bootStage n).eccCorr = s.eccCorr ∧ (s.bootStage n).dt = s.dt ∧
    (s.bootStage n).time = s.time ∧ (s.bootStage n).timePart = s.timePart ∧ (s.bootStage n).freeCtr = s.freeCtr ∧
    (s.bootStage n).out = s.out ∧ (s.bootStage n).cfg = s.cfg ∧ (s.bootStage n).chr = s.chr ∧ (s.bootStage n).sram = s.sram ∧
    (s.bootStage n).pfi = s.pfi ∧ (s.bootStage n).cpf = s.cpf ∧ (s.bootStage n).hoist = s.hoist ∧
    (s.bootStage n).drv = s.drv ∧ (s.bootStage n).door = s.door ∧ (s.bootStage n).lpe = s.lpe ∧ (s.bootStage n).hiu = s.hiu ∧
    (s.bootStage n).hwk = s.hwk ∧ (s.bootStage n).hwkF = s.hwkF ∧ (s.bootStage n).coc = s.coc ∧ (s.bootStage n).mon = s.mon ∧
    (s.bootStage n).grp = s.grp ∧ (s.bootStage n).stl = s.stl ∧ (s.bootStage n).canCtl = s.canCtl ∧
    (s.bootStage n).spiPort = s.spiPort ∧ (s.bootStage n).eng = s.eng ∧ (s.bootStage n).krn = s.krn ∧
    (s.bootStage n).tlg = s.tlg ∧ (s.bootStage n).chry = s.chry ∧ (s.bootStage n).upd = s.upd :=
  ⟨rfl, rfl, rfl, rfl, rfl, rfl, rfl, rfl, rfl, rfl, rfl, rfl, rfl, rfl, rfl, rfl, rfl, rfl, rfl, rfl, rfl, rfl, rfl, rfl, rfl, rfl, rfl, rfl, rfl, rfl, rfl, rfl⟩

@[simp] theorem Dev.setReg_fields (s : Dev) (off : Nat) (w : Word) :
    (s.setReg off w).cfg = kput (regReset off) s.cfg off w ∧ (s.setReg off w).part = s.part ∧
    (s.setReg off w).fuseOk = s.fuseOk ∧ (s.setReg off w).eccCorr = s.eccCorr ∧ (s.setReg off w).dt = s.dt ∧
    (s.setReg off w).time = s.time ∧ (s.setReg off w).timePart = s.timePart ∧ (s.setReg off w).freeCtr = s.freeCtr ∧
    (s.setReg off w).out = s.out ∧ (s.setReg off w).chr = s.chr ∧ (s.setReg off w).sram = s.sram ∧
    (s.setReg off w).pfi = s.pfi ∧ (s.setReg off w).cpf = s.cpf ∧ (s.setReg off w).hoist = s.hoist ∧
    (s.setReg off w).drv = s.drv ∧ (s.setReg off w).door = s.door ∧ (s.setReg off w).lpe = s.lpe ∧
    (s.setReg off w).hiu = s.hiu ∧ (s.setReg off w).hwk = s.hwk ∧ (s.setReg off w).hwkF = s.hwkF ∧
    (s.setReg off w).coc = s.coc ∧ (s.setReg off w).mon = s.mon ∧ (s.setReg off w).grp = s.grp ∧
    (s.setReg off w).stl = s.stl ∧ (s.setReg off w).canCtl = s.canCtl ∧ (s.setReg off w).spiPort = s.spiPort ∧
    (s.setReg off w).eng = s.eng ∧ (s.setReg off w).krn = s.krn ∧ (s.setReg off w).tlg = s.tlg ∧
    (s.setReg off w).chry = s.chry ∧ (s.setReg off w).upd = s.upd ∧ (s.setReg off w).pmu = s.pmu :=
  ⟨rfl, rfl, rfl, rfl, rfl, rfl, rfl, rfl, rfl, rfl, rfl, rfl, rfl, rfl, rfl, rfl, rfl, rfl, rfl, rfl, rfl, rfl, rfl, rfl, rfl, rfl, rfl, rfl, rfl, rfl, rfl, rfl⟩

@[simp] theorem Dev.drawn_fields (s : Dev) :
    (s.drawn).freeCtr = s.freeCtr + 1 ∧ (s.drawn).part = s.part ∧ (s.drawn).fuseOk = s.fuseOk ∧
    (s.drawn).eccCorr = s.eccCorr ∧ (s.drawn).dt = s.dt ∧ (s.drawn).time = s.time ∧ (s.drawn).timePart = s.timePart ∧
    (s.drawn).out = s.out ∧ (s.drawn).cfg = s.cfg ∧ (s.drawn).chr = s.chr ∧ (s.drawn).sram = s.sram ∧ (s.drawn).pfi = s.pfi ∧
    (s.drawn).cpf = s.cpf ∧ (s.drawn).hoist = s.hoist ∧ (s.drawn).drv = s.drv ∧ (s.drawn).door = s.door ∧
    (s.drawn).lpe = s.lpe ∧ (s.drawn).hiu = s.hiu ∧ (s.drawn).hwk = s.hwk ∧ (s.drawn).hwkF = s.hwkF ∧ (s.drawn).coc = s.coc ∧
    (s.drawn).mon = s.mon ∧ (s.drawn).grp = s.grp ∧ (s.drawn).stl = s.stl ∧ (s.drawn).canCtl = s.canCtl ∧
    (s.drawn).spiPort = s.spiPort ∧ (s.drawn).eng = s.eng ∧ (s.drawn).krn = s.krn ∧ (s.drawn).tlg = s.tlg ∧
    (s.drawn).chry = s.chry ∧ (s.drawn).upd = s.upd ∧ (s.drawn).pmu = s.pmu :=
  ⟨rfl, rfl, rfl, rfl, rfl, rfl, rfl, rfl, rfl, rfl, rfl, rfl, rfl, rfl, rfl, rfl, rfl, rfl, rfl, rfl, rfl, rfl, rfl, rfl, rfl, rfl, rfl, rfl, rfl, rfl, rfl, rfl⟩

@[simp] theorem Dev.emit_fields (s : Dev) (o : Output) :
    (s.emit o).out = s.out ++ [o] ∧ (s.emit o).part = s.part ∧ (s.emit o).fuseOk = s.fuseOk ∧
    (s.emit o).eccCorr = s.eccCorr ∧ (s.emit o).dt = s.dt ∧ (s.emit o).time = s.time ∧ (s.emit o).timePart = s.timePart ∧
    (s.emit o).freeCtr = s.freeCtr ∧ (s.emit o).cfg = s.cfg ∧ (s.emit o).chr = s.chr ∧ (s.emit o).sram = s.sram ∧
    (s.emit o).pfi = s.pfi ∧ (s.emit o).cpf = s.cpf ∧ (s.emit o).hoist = s.hoist ∧ (s.emit o).drv = s.drv ∧
    (s.emit o).door = s.door ∧ (s.emit o).lpe = s.lpe ∧ (s.emit o).hiu = s.hiu ∧ (s.emit o).hwk = s.hwk ∧
    (s.emit o).hwkF = s.hwkF ∧ (s.emit o).coc = s.coc ∧ (s.emit o).mon = s.mon ∧ (s.emit o).grp = s.grp ∧
    (s.emit o).stl = s.stl ∧ (s.emit o).canCtl = s.canCtl ∧ (s.emit o).spiPort = s.spiPort ∧ (s.emit o).eng = s.eng ∧
    (s.emit o).krn = s.krn ∧ (s.emit o).tlg = s.tlg ∧ (s.emit o).chry = s.chry ∧ (s.emit o).upd = s.upd ∧
    (s.emit o).pmu = s.pmu :=
  ⟨rfl, rfl, rfl, rfl, rfl, rfl, rfl, rfl, rfl, rfl, rfl, rfl, rfl, rfl, rfl, rfl, rfl, rfl, rfl, rfl, rfl, rfl, rfl, rfl, rfl, rfl, rfl, rfl, rfl, rfl, rfl, rfl⟩

@[simp] theorem Dev.chrAdd_fields (s : Dev) (sec i n : Nat) :
    (s.chrAdd sec i n).chr = kmod 0 s.chr (1024 * sec + i) (fun x => satAdd 64 x n) ∧ (s.chrAdd sec i n).part = s.part ∧
    (s.chrAdd sec i n).fuseOk = s.fuseOk ∧ (s.chrAdd sec i n).eccCorr = s.eccCorr ∧ (s.chrAdd sec i n).dt = s.dt ∧
    (s.chrAdd sec i n).time = s.time ∧ (s.chrAdd sec i n).timePart = s.timePart ∧ (s.chrAdd sec i n).freeCtr = s.freeCtr ∧
    (s.chrAdd sec i n).out = s.out ∧ (s.chrAdd sec i n).cfg = s.cfg ∧ (s.chrAdd sec i n).sram = s.sram ∧
    (s.chrAdd sec i n).pfi = s.pfi ∧ (s.chrAdd sec i n).cpf = s.cpf ∧ (s.chrAdd sec i n).hoist = s.hoist ∧
    (s.chrAdd sec i n).drv = s.drv ∧ (s.chrAdd sec i n).door = s.door ∧ (s.chrAdd sec i n).lpe = s.lpe ∧
    (s.chrAdd sec i n).hiu = s.hiu ∧ (s.chrAdd sec i n).hwk = s.hwk ∧ (s.chrAdd sec i n).hwkF = s.hwkF ∧
    (s.chrAdd sec i n).coc = s.coc ∧ (s.chrAdd sec i n).mon = s.mon ∧ (s.chrAdd sec i n).grp = s.grp ∧
    (s.chrAdd sec i n).stl = s.stl ∧ (s.chrAdd sec i n).canCtl = s.canCtl ∧ (s.chrAdd sec i n).spiPort = s.spiPort ∧
    (s.chrAdd sec i n).eng = s.eng ∧ (s.chrAdd sec i n).krn = s.krn ∧ (s.chrAdd sec i n).tlg = s.tlg ∧
    (s.chrAdd sec i n).chry = s.chry ∧ (s.chrAdd sec i n).upd = s.upd ∧ (s.chrAdd sec i n).pmu = s.pmu :=
  ⟨rfl, rfl, rfl, rfl, rfl, rfl, rfl, rfl, rfl, rfl, rfl, rfl, rfl, rfl, rfl, rfl, rfl, rfl, rfl, rfl, rfl, rfl, rfl, rfl, rfl, rfl, rfl, rfl, rfl, rfl, rfl, rfl⟩

@[simp] theorem Dev.setHiu_fields (s : Dev) (f : Hiu → Hiu) :
    (s.setHiu f).hiu = f s.hiu ∧ (s.setHiu f).part = s.part ∧ (s.setHiu f).fuseOk = s.fuseOk ∧
    (s.setHiu f).eccCorr = s.eccCorr ∧ (s.setHiu f).dt = s.dt ∧ (s.setHiu f).time = s.time ∧
    (s.setHiu f).timePart = s.timePart ∧ (s.setHiu f).freeCtr = s.freeCtr ∧ (s.setHiu f).out = s.out ∧
    (s.setHiu f).cfg = s.cfg ∧ (s.setHiu f).chr = s.chr ∧ (s.setHiu f).sram = s.sram ∧ (s.setHiu f).pfi = s.pfi ∧
    (s.setHiu f).cpf = s.cpf ∧ (s.setHiu f).hoist = s.hoist ∧ (s.setHiu f).drv = s.drv ∧ (s.setHiu f).door = s.door ∧
    (s.setHiu f).lpe = s.lpe ∧ (s.setHiu f).hwk = s.hwk ∧ (s.setHiu f).hwkF = s.hwkF ∧ (s.setHiu f).coc = s.coc ∧
    (s.setHiu f).mon = s.mon ∧ (s.setHiu f).grp = s.grp ∧ (s.setHiu f).stl = s.stl ∧ (s.setHiu f).canCtl = s.canCtl ∧
    (s.setHiu f).spiPort = s.spiPort ∧ (s.setHiu f).eng = s.eng ∧ (s.setHiu f).krn = s.krn ∧ (s.setHiu f).tlg = s.tlg ∧
    (s.setHiu f).chry = s.chry ∧ (s.setHiu f).upd = s.upd ∧ (s.setHiu f).pmu = s.pmu :=
  ⟨rfl, rfl, rfl, rfl, rfl, rfl, rfl, rfl, rfl, rfl, rfl, rfl, rfl, rfl, rfl, rfl, rfl, rfl, rfl, rfl, rfl, rfl, rfl, rfl, rfl, rfl, rfl, rfl, rfl, rfl, rfl, rfl⟩

@[simp] theorem Dev.setQp_fields (s : Dev) (q : Nat) (p : QPair) :
    (s.setQp q p).hiu = { s.hiu with qps := kput .reset s.hiu.qps q p } ∧ (s.setQp q p).part = s.part ∧
    (s.setQp q p).fuseOk = s.fuseOk ∧ (s.setQp q p).eccCorr = s.eccCorr ∧ (s.setQp q p).dt = s.dt ∧
    (s.setQp q p).time = s.time ∧ (s.setQp q p).timePart = s.timePart ∧ (s.setQp q p).freeCtr = s.freeCtr ∧
    (s.setQp q p).out = s.out ∧ (s.setQp q p).cfg = s.cfg ∧ (s.setQp q p).chr = s.chr ∧ (s.setQp q p).sram = s.sram ∧
    (s.setQp q p).pfi = s.pfi ∧ (s.setQp q p).cpf = s.cpf ∧ (s.setQp q p).hoist = s.hoist ∧ (s.setQp q p).drv = s.drv ∧
    (s.setQp q p).door = s.door ∧ (s.setQp q p).lpe = s.lpe ∧ (s.setQp q p).hwk = s.hwk ∧ (s.setQp q p).hwkF = s.hwkF ∧
    (s.setQp q p).coc = s.coc ∧ (s.setQp q p).mon = s.mon ∧ (s.setQp q p).grp = s.grp ∧ (s.setQp q p).stl = s.stl ∧
    (s.setQp q p).canCtl = s.canCtl ∧ (s.setQp q p).spiPort = s.spiPort ∧ (s.setQp q p).eng = s.eng ∧
    (s.setQp q p).krn = s.krn ∧ (s.setQp q p).tlg = s.tlg ∧ (s.setQp q p).chry = s.chry ∧ (s.setQp q p).upd = s.upd ∧
    (s.setQp q p).pmu = s.pmu :=
  ⟨rfl, rfl, rfl, rfl, rfl, rfl, rfl, rfl, rfl, rfl, rfl, rfl, rfl, rfl, rfl, rfl, rfl, rfl, rfl, rfl, rfl, rfl, rfl, rfl, rfl, rfl, rfl, rfl, rfl, rfl, rfl, rfl⟩

@[simp] theorem Dev.setVec_fields (s : Dev) (v : Nat) (x : Vector) :
    (s.setVec v x).hiu = { s.hiu with vectors := kput .reset s.hiu.vectors v x } ∧ (s.setVec v x).part = s.part ∧
    (s.setVec v x).fuseOk = s.fuseOk ∧ (s.setVec v x).eccCorr = s.eccCorr ∧ (s.setVec v x).dt = s.dt ∧
    (s.setVec v x).time = s.time ∧ (s.setVec v x).timePart = s.timePart ∧ (s.setVec v x).freeCtr = s.freeCtr ∧
    (s.setVec v x).out = s.out ∧ (s.setVec v x).cfg = s.cfg ∧ (s.setVec v x).chr = s.chr ∧ (s.setVec v x).sram = s.sram ∧
    (s.setVec v x).pfi = s.pfi ∧ (s.setVec v x).cpf = s.cpf ∧ (s.setVec v x).hoist = s.hoist ∧ (s.setVec v x).drv = s.drv ∧
    (s.setVec v x).door = s.door ∧ (s.setVec v x).lpe = s.lpe ∧ (s.setVec v x).hwk = s.hwk ∧ (s.setVec v x).hwkF = s.hwkF ∧
    (s.setVec v x).coc = s.coc ∧ (s.setVec v x).mon = s.mon ∧ (s.setVec v x).grp = s.grp ∧ (s.setVec v x).stl = s.stl ∧
    (s.setVec v x).canCtl = s.canCtl ∧ (s.setVec v x).spiPort = s.spiPort ∧ (s.setVec v x).eng = s.eng ∧
    (s.setVec v x).krn = s.krn ∧ (s.setVec v x).tlg = s.tlg ∧ (s.setVec v x).chry = s.chry ∧ (s.setVec v x).upd = s.upd ∧
    (s.setVec v x).pmu = s.pmu :=
  ⟨rfl, rfl, rfl, rfl, rfl, rfl, rfl, rfl, rfl, rfl, rfl, rfl, rfl, rfl, rfl, rfl, rfl, rfl, rfl, rfl, rfl, rfl, rfl, rfl, rfl, rfl, rfl, rfl, rfl, rfl, rfl, rfl⟩

@[simp] theorem Dev.discard_fields (s : Dev) :
    (s.discard).hiu = { s.hiu with lostCpl := satInc 16 s.hiu.lostCpl, discarded := s.hiu.discarded + 1 } ∧
    (s.discard).part = s.part ∧ (s.discard).fuseOk = s.fuseOk ∧ (s.discard).eccCorr = s.eccCorr ∧ (s.discard).dt = s.dt ∧
    (s.discard).time = s.time ∧ (s.discard).timePart = s.timePart ∧ (s.discard).freeCtr = s.freeCtr ∧
    (s.discard).out = s.out ∧ (s.discard).cfg = s.cfg ∧ (s.discard).chr = s.chr ∧ (s.discard).sram = s.sram ∧
    (s.discard).pfi = s.pfi ∧ (s.discard).cpf = s.cpf ∧ (s.discard).hoist = s.hoist ∧ (s.discard).drv = s.drv ∧
    (s.discard).door = s.door ∧ (s.discard).lpe = s.lpe ∧ (s.discard).hwk = s.hwk ∧ (s.discard).hwkF = s.hwkF ∧
    (s.discard).coc = s.coc ∧ (s.discard).mon = s.mon ∧ (s.discard).grp = s.grp ∧ (s.discard).stl = s.stl ∧
    (s.discard).canCtl = s.canCtl ∧ (s.discard).spiPort = s.spiPort ∧ (s.discard).eng = s.eng ∧ (s.discard).krn = s.krn ∧
    (s.discard).tlg = s.tlg ∧ (s.discard).chry = s.chry ∧ (s.discard).upd = s.upd ∧ (s.discard).pmu = s.pmu :=
  ⟨rfl, rfl, rfl, rfl, rfl, rfl, rfl, rfl, rfl, rfl, rfl, rfl, rfl, rfl, rfl, rfl, rfl, rfl, rfl, rfl, rfl, rfl, rfl, rfl, rfl, rfl, rfl, rfl, rfl, rfl, rfl, rfl⟩

@[simp] theorem Dev.setLoop_fields (s : Dev) (l : Nat) (x : Loop) :
    (s.setLoop l x).lpe = { s.lpe with loops := kput .reset s.lpe.loops l x } ∧ (s.setLoop l x).part = s.part ∧
    (s.setLoop l x).fuseOk = s.fuseOk ∧ (s.setLoop l x).eccCorr = s.eccCorr ∧ (s.setLoop l x).dt = s.dt ∧
    (s.setLoop l x).time = s.time ∧ (s.setLoop l x).timePart = s.timePart ∧ (s.setLoop l x).freeCtr = s.freeCtr ∧
    (s.setLoop l x).out = s.out ∧ (s.setLoop l x).cfg = s.cfg ∧ (s.setLoop l x).chr = s.chr ∧ (s.setLoop l x).sram = s.sram ∧
    (s.setLoop l x).pfi = s.pfi ∧ (s.setLoop l x).cpf = s.cpf ∧ (s.setLoop l x).hoist = s.hoist ∧
    (s.setLoop l x).drv = s.drv ∧ (s.setLoop l x).door = s.door ∧ (s.setLoop l x).hiu = s.hiu ∧ (s.setLoop l x).hwk = s.hwk ∧
    (s.setLoop l x).hwkF = s.hwkF ∧ (s.setLoop l x).coc = s.coc ∧ (s.setLoop l x).mon = s.mon ∧ (s.setLoop l x).grp = s.grp ∧
    (s.setLoop l x).stl = s.stl ∧ (s.setLoop l x).canCtl = s.canCtl ∧ (s.setLoop l x).spiPort = s.spiPort ∧
    (s.setLoop l x).eng = s.eng ∧ (s.setLoop l x).krn = s.krn ∧ (s.setLoop l x).tlg = s.tlg ∧ (s.setLoop l x).chry = s.chry ∧
    (s.setLoop l x).upd = s.upd ∧ (s.setLoop l x).pmu = s.pmu :=
  ⟨rfl, rfl, rfl, rfl, rfl, rfl, rfl, rfl, rfl, rfl, rfl, rfl, rfl, rfl, rfl, rfl, rfl, rfl, rfl, rfl, rfl, rfl, rfl, rfl, rfl, rfl, rfl, rfl, rfl, rfl, rfl, rfl⟩

@[simp] theorem Dev.setBank_fields (s : Dev) (l m : Nat) (p : LoopParams) :
    (s.setBank l m p).lpe = { s.lpe with banks := kput .reset s.lpe.banks (8 * l + m) p } ∧ (s.setBank l m p).part = s.part ∧
    (s.setBank l m p).fuseOk = s.fuseOk ∧ (s.setBank l m p).eccCorr = s.eccCorr ∧ (s.setBank l m p).dt = s.dt ∧
    (s.setBank l m p).time = s.time ∧ (s.setBank l m p).timePart = s.timePart ∧ (s.setBank l m p).freeCtr = s.freeCtr ∧
    (s.setBank l m p).out = s.out ∧ (s.setBank l m p).cfg = s.cfg ∧ (s.setBank l m p).chr = s.chr ∧
    (s.setBank l m p).sram = s.sram ∧ (s.setBank l m p).pfi = s.pfi ∧ (s.setBank l m p).cpf = s.cpf ∧
    (s.setBank l m p).hoist = s.hoist ∧ (s.setBank l m p).drv = s.drv ∧ (s.setBank l m p).door = s.door ∧
    (s.setBank l m p).hiu = s.hiu ∧ (s.setBank l m p).hwk = s.hwk ∧ (s.setBank l m p).hwkF = s.hwkF ∧
    (s.setBank l m p).coc = s.coc ∧ (s.setBank l m p).mon = s.mon ∧ (s.setBank l m p).grp = s.grp ∧
    (s.setBank l m p).stl = s.stl ∧ (s.setBank l m p).canCtl = s.canCtl ∧ (s.setBank l m p).spiPort = s.spiPort ∧
    (s.setBank l m p).eng = s.eng ∧ (s.setBank l m p).krn = s.krn ∧ (s.setBank l m p).tlg = s.tlg ∧
    (s.setBank l m p).chry = s.chry ∧ (s.setBank l m p).upd = s.upd ∧ (s.setBank l m p).pmu = s.pmu :=
  ⟨rfl, rfl, rfl, rfl, rfl, rfl, rfl, rfl, rfl, rfl, rfl, rfl, rfl, rfl, rfl, rfl, rfl, rfl, rfl, rfl, rfl, rfl, rfl, rfl, rfl, rfl, rfl, rfl, rfl, rfl, rfl, rfl⟩

@[simp] theorem Dev.handAt_fields (s : Dev) (l mode at_ : Nat) (desc : Option Desc) :
    (s.handAt l mode at_ desc).lpe = { s.lpe with hands := s.lpe.hands ++ [⟨l, mode, false, at_, desc⟩] } ∧
    (s.handAt l mode at_ desc).part = s.part ∧ (s.handAt l mode at_ desc).fuseOk = s.fuseOk ∧
    (s.handAt l mode at_ desc).eccCorr = s.eccCorr ∧ (s.handAt l mode at_ desc).dt = s.dt ∧
    (s.handAt l mode at_ desc).time = s.time ∧ (s.handAt l mode at_ desc).timePart = s.timePart ∧
    (s.handAt l mode at_ desc).freeCtr = s.freeCtr ∧ (s.handAt l mode at_ desc).out = s.out ∧
    (s.handAt l mode at_ desc).cfg = s.cfg ∧ (s.handAt l mode at_ desc).chr = s.chr ∧
    (s.handAt l mode at_ desc).sram = s.sram ∧ (s.handAt l mode at_ desc).pfi = s.pfi ∧
    (s.handAt l mode at_ desc).cpf = s.cpf ∧ (s.handAt l mode at_ desc).hoist = s.hoist ∧
    (s.handAt l mode at_ desc).drv = s.drv ∧ (s.handAt l mode at_ desc).door = s.door ∧
    (s.handAt l mode at_ desc).hiu = s.hiu ∧ (s.handAt l mode at_ desc).hwk = s.hwk ∧
    (s.handAt l mode at_ desc).hwkF = s.hwkF ∧ (s.handAt l mode at_ desc).coc = s.coc ∧
    (s.handAt l mode at_ desc).mon = s.mon ∧ (s.handAt l mode at_ desc).grp = s.grp ∧
    (s.handAt l mode at_ desc).stl = s.stl ∧ (s.handAt l mode at_ desc).canCtl = s.canCtl ∧
    (s.handAt l mode at_ desc).spiPort = s.spiPort ∧ (s.handAt l mode at_ desc).eng = s.eng ∧
    (s.handAt l mode at_ desc).krn = s.krn ∧ (s.handAt l mode at_ desc).tlg = s.tlg ∧
    (s.handAt l mode at_ desc).chry = s.chry ∧ (s.handAt l mode at_ desc).upd = s.upd ∧
    (s.handAt l mode at_ desc).pmu = s.pmu :=
  ⟨rfl, rfl, rfl, rfl, rfl, rfl, rfl, rfl, rfl, rfl, rfl, rfl, rfl, rfl, rfl, rfl, rfl, rfl, rfl, rfl, rfl, rfl, rfl, rfl, rfl, rfl, rfl, rfl, rfl, rfl, rfl, rfl⟩

@[simp] theorem Dev.setCoc_fields (s : Dev) (f : Coc → Coc) :
    (s.setCoc f).coc = f s.coc ∧ (s.setCoc f).part = s.part ∧ (s.setCoc f).fuseOk = s.fuseOk ∧
    (s.setCoc f).eccCorr = s.eccCorr ∧ (s.setCoc f).dt = s.dt ∧ (s.setCoc f).time = s.time ∧
    (s.setCoc f).timePart = s.timePart ∧ (s.setCoc f).freeCtr = s.freeCtr ∧ (s.setCoc f).out = s.out ∧
    (s.setCoc f).cfg = s.cfg ∧ (s.setCoc f).chr = s.chr ∧ (s.setCoc f).sram = s.sram ∧ (s.setCoc f).pfi = s.pfi ∧
    (s.setCoc f).cpf = s.cpf ∧ (s.setCoc f).hoist = s.hoist ∧ (s.setCoc f).drv = s.drv ∧ (s.setCoc f).door = s.door ∧
    (s.setCoc f).lpe = s.lpe ∧ (s.setCoc f).hiu = s.hiu ∧ (s.setCoc f).hwk = s.hwk ∧ (s.setCoc f).hwkF = s.hwkF ∧
    (s.setCoc f).mon = s.mon ∧ (s.setCoc f).grp = s.grp ∧ (s.setCoc f).stl = s.stl ∧ (s.setCoc f).canCtl = s.canCtl ∧
    (s.setCoc f).spiPort = s.spiPort ∧ (s.setCoc f).eng = s.eng ∧ (s.setCoc f).krn = s.krn ∧ (s.setCoc f).tlg = s.tlg ∧
    (s.setCoc f).chry = s.chry ∧ (s.setCoc f).upd = s.upd ∧ (s.setCoc f).pmu = s.pmu :=
  ⟨rfl, rfl, rfl, rfl, rfl, rfl, rfl, rfl, rfl, rfl, rfl, rfl, rfl, rfl, rfl, rfl, rfl, rfl, rfl, rfl, rfl, rfl, rfl, rfl, rfl, rfl, rfl, rfl, rfl, rfl, rfl, rfl⟩

@[simp] theorem Dev.setGroup_fields (s : Dev) (g : Nat) (r : Option RateGroup) :
    (s.setGroup g r).lpe = { s.lpe with groups := kput none s.lpe.groups g r } ∧ (s.setGroup g r).part = s.part ∧
    (s.setGroup g r).fuseOk = s.fuseOk ∧ (s.setGroup g r).eccCorr = s.eccCorr ∧ (s.setGroup g r).dt = s.dt ∧
    (s.setGroup g r).time = s.time ∧ (s.setGroup g r).timePart = s.timePart ∧ (s.setGroup g r).freeCtr = s.freeCtr ∧
    (s.setGroup g r).out = s.out ∧ (s.setGroup g r).cfg = s.cfg ∧ (s.setGroup g r).chr = s.chr ∧
    (s.setGroup g r).sram = s.sram ∧ (s.setGroup g r).pfi = s.pfi ∧ (s.setGroup g r).cpf = s.cpf ∧
    (s.setGroup g r).hoist = s.hoist ∧ (s.setGroup g r).drv = s.drv ∧ (s.setGroup g r).door = s.door ∧
    (s.setGroup g r).hiu = s.hiu ∧ (s.setGroup g r).hwk = s.hwk ∧ (s.setGroup g r).hwkF = s.hwkF ∧
    (s.setGroup g r).coc = s.coc ∧ (s.setGroup g r).mon = s.mon ∧ (s.setGroup g r).grp = s.grp ∧
    (s.setGroup g r).stl = s.stl ∧ (s.setGroup g r).canCtl = s.canCtl ∧ (s.setGroup g r).spiPort = s.spiPort ∧
    (s.setGroup g r).eng = s.eng ∧ (s.setGroup g r).krn = s.krn ∧ (s.setGroup g r).tlg = s.tlg ∧
    (s.setGroup g r).chry = s.chry ∧ (s.setGroup g r).upd = s.upd ∧ (s.setGroup g r).pmu = s.pmu :=
  ⟨rfl, rfl, rfl, rfl, rfl, rfl, rfl, rfl, rfl, rfl, rfl, rfl, rfl, rfl, rfl, rfl, rfl, rfl, rfl, rfl, rfl, rfl, rfl, rfl, rfl, rfl, rfl, rfl, rfl, rfl, rfl, rfl⟩

@[simp] theorem Dev.dropAxis_fields (s : Dev) (n : Nat) :
    (s.dropAxis n).lpe = { s.lpe with groups := s.withAxis n false } ∧ (s.dropAxis n).part = s.part ∧
    (s.dropAxis n).fuseOk = s.fuseOk ∧ (s.dropAxis n).eccCorr = s.eccCorr ∧ (s.dropAxis n).dt = s.dt ∧
    (s.dropAxis n).time = s.time ∧ (s.dropAxis n).timePart = s.timePart ∧ (s.dropAxis n).freeCtr = s.freeCtr ∧
    (s.dropAxis n).out = s.out ∧ (s.dropAxis n).cfg = s.cfg ∧ (s.dropAxis n).chr = s.chr ∧ (s.dropAxis n).sram = s.sram ∧
    (s.dropAxis n).pfi = s.pfi ∧ (s.dropAxis n).cpf = s.cpf ∧ (s.dropAxis n).hoist = s.hoist ∧ (s.dropAxis n).drv = s.drv ∧
    (s.dropAxis n).door = s.door ∧ (s.dropAxis n).hiu = s.hiu ∧ (s.dropAxis n).hwk = s.hwk ∧ (s.dropAxis n).hwkF = s.hwkF ∧
    (s.dropAxis n).coc = s.coc ∧ (s.dropAxis n).mon = s.mon ∧ (s.dropAxis n).grp = s.grp ∧ (s.dropAxis n).stl = s.stl ∧
    (s.dropAxis n).canCtl = s.canCtl ∧ (s.dropAxis n).spiPort = s.spiPort ∧ (s.dropAxis n).eng = s.eng ∧
    (s.dropAxis n).krn = s.krn ∧ (s.dropAxis n).tlg = s.tlg ∧ (s.dropAxis n).chry = s.chry ∧ (s.dropAxis n).upd = s.upd ∧
    (s.dropAxis n).pmu = s.pmu :=
  ⟨rfl, rfl, rfl, rfl, rfl, rfl, rfl, rfl, rfl, rfl, rfl, rfl, rfl, rfl, rfl, rfl, rfl, rfl, rfl, rfl, rfl, rfl, rfl, rfl, rfl, rfl, rfl, rfl, rfl, rfl, rfl, rfl⟩

@[simp] theorem Dev.setMon_fields (s : Dev) (f : Mon → Mon) :
    (s.setMon f).mon = f s.mon ∧ (s.setMon f).part = s.part ∧ (s.setMon f).fuseOk = s.fuseOk ∧
    (s.setMon f).eccCorr = s.eccCorr ∧ (s.setMon f).dt = s.dt ∧ (s.setMon f).time = s.time ∧
    (s.setMon f).timePart = s.timePart ∧ (s.setMon f).freeCtr = s.freeCtr ∧ (s.setMon f).out = s.out ∧
    (s.setMon f).cfg = s.cfg ∧ (s.setMon f).chr = s.chr ∧ (s.setMon f).sram = s.sram ∧ (s.setMon f).pfi = s.pfi ∧
    (s.setMon f).cpf = s.cpf ∧ (s.setMon f).hoist = s.hoist ∧ (s.setMon f).drv = s.drv ∧ (s.setMon f).door = s.door ∧
    (s.setMon f).lpe = s.lpe ∧ (s.setMon f).hiu = s.hiu ∧ (s.setMon f).hwk = s.hwk ∧ (s.setMon f).hwkF = s.hwkF ∧
    (s.setMon f).coc = s.coc ∧ (s.setMon f).grp = s.grp ∧ (s.setMon f).stl = s.stl ∧ (s.setMon f).canCtl = s.canCtl ∧
    (s.setMon f).spiPort = s.spiPort ∧ (s.setMon f).eng = s.eng ∧ (s.setMon f).krn = s.krn ∧ (s.setMon f).tlg = s.tlg ∧
    (s.setMon f).chry = s.chry ∧ (s.setMon f).upd = s.upd ∧ (s.setMon f).pmu = s.pmu :=
  ⟨rfl, rfl, rfl, rfl, rfl, rfl, rfl, rfl, rfl, rfl, rfl, rfl, rfl, rfl, rfl, rfl, rfl, rfl, rfl, rfl, rfl, rfl, rfl, rfl, rfl, rfl, rfl, rfl, rfl, rfl, rfl, rfl⟩

@[simp] theorem Dev.setGrp_fields (s : Dev) (f : Grp → Grp) :
    (s.setGrp f).grp = f s.grp ∧ (s.setGrp f).part = s.part ∧ (s.setGrp f).fuseOk = s.fuseOk ∧
    (s.setGrp f).eccCorr = s.eccCorr ∧ (s.setGrp f).dt = s.dt ∧ (s.setGrp f).time = s.time ∧
    (s.setGrp f).timePart = s.timePart ∧ (s.setGrp f).freeCtr = s.freeCtr ∧ (s.setGrp f).out = s.out ∧
    (s.setGrp f).cfg = s.cfg ∧ (s.setGrp f).chr = s.chr ∧ (s.setGrp f).sram = s.sram ∧ (s.setGrp f).pfi = s.pfi ∧
    (s.setGrp f).cpf = s.cpf ∧ (s.setGrp f).hoist = s.hoist ∧ (s.setGrp f).drv = s.drv ∧ (s.setGrp f).door = s.door ∧
    (s.setGrp f).lpe = s.lpe ∧ (s.setGrp f).hiu = s.hiu ∧ (s.setGrp f).hwk = s.hwk ∧ (s.setGrp f).hwkF = s.hwkF ∧
    (s.setGrp f).coc = s.coc ∧ (s.setGrp f).mon = s.mon ∧ (s.setGrp f).stl = s.stl ∧ (s.setGrp f).canCtl = s.canCtl ∧
    (s.setGrp f).spiPort = s.spiPort ∧ (s.setGrp f).eng = s.eng ∧ (s.setGrp f).krn = s.krn ∧ (s.setGrp f).tlg = s.tlg ∧
    (s.setGrp f).chry = s.chry ∧ (s.setGrp f).upd = s.upd ∧ (s.setGrp f).pmu = s.pmu :=
  ⟨rfl, rfl, rfl, rfl, rfl, rfl, rfl, rfl, rfl, rfl, rfl, rfl, rfl, rfl, rfl, rfl, rfl, rfl, rfl, rfl, rfl, rfl, rfl, rfl, rfl, rfl, rfl, rfl, rfl, rfl, rfl, rfl⟩

@[simp] theorem Dev.setStl_fields (s : Dev) (f : Stl → Stl) :
    (s.setStl f).stl = f s.stl ∧ (s.setStl f).part = s.part ∧ (s.setStl f).fuseOk = s.fuseOk ∧
    (s.setStl f).eccCorr = s.eccCorr ∧ (s.setStl f).dt = s.dt ∧ (s.setStl f).time = s.time ∧
    (s.setStl f).timePart = s.timePart ∧ (s.setStl f).freeCtr = s.freeCtr ∧ (s.setStl f).out = s.out ∧
    (s.setStl f).cfg = s.cfg ∧ (s.setStl f).chr = s.chr ∧ (s.setStl f).sram = s.sram ∧ (s.setStl f).pfi = s.pfi ∧
    (s.setStl f).cpf = s.cpf ∧ (s.setStl f).hoist = s.hoist ∧ (s.setStl f).drv = s.drv ∧ (s.setStl f).door = s.door ∧
    (s.setStl f).lpe = s.lpe ∧ (s.setStl f).hiu = s.hiu ∧ (s.setStl f).hwk = s.hwk ∧ (s.setStl f).hwkF = s.hwkF ∧
    (s.setStl f).coc = s.coc ∧ (s.setStl f).mon = s.mon ∧ (s.setStl f).grp = s.grp ∧ (s.setStl f).canCtl = s.canCtl ∧
    (s.setStl f).spiPort = s.spiPort ∧ (s.setStl f).eng = s.eng ∧ (s.setStl f).krn = s.krn ∧ (s.setStl f).tlg = s.tlg ∧
    (s.setStl f).chry = s.chry ∧ (s.setStl f).upd = s.upd ∧ (s.setStl f).pmu = s.pmu :=
  ⟨rfl, rfl, rfl, rfl, rfl, rfl, rfl, rfl, rfl, rfl, rfl, rfl, rfl, rfl, rfl, rfl, rfl, rfl, rfl, rfl, rfl, rfl, rfl, rfl, rfl, rfl, rfl, rfl, rfl, rfl, rfl, rfl⟩

@[simp] theorem Dev.setChan_fields (s : Dev) (n : Nat) (c : Chan) :
    (s.setChan n c).pfi = { s.pfi with chans := kput .reset s.pfi.chans n c } ∧ (s.setChan n c).part = s.part ∧
    (s.setChan n c).fuseOk = s.fuseOk ∧ (s.setChan n c).eccCorr = s.eccCorr ∧ (s.setChan n c).dt = s.dt ∧
    (s.setChan n c).time = s.time ∧ (s.setChan n c).timePart = s.timePart ∧ (s.setChan n c).freeCtr = s.freeCtr ∧
    (s.setChan n c).out = s.out ∧ (s.setChan n c).cfg = s.cfg ∧ (s.setChan n c).chr = s.chr ∧ (s.setChan n c).sram = s.sram ∧
    (s.setChan n c).cpf = s.cpf ∧ (s.setChan n c).hoist = s.hoist ∧ (s.setChan n c).drv = s.drv ∧
    (s.setChan n c).door = s.door ∧ (s.setChan n c).lpe = s.lpe ∧ (s.setChan n c).hiu = s.hiu ∧ (s.setChan n c).hwk = s.hwk ∧
    (s.setChan n c).hwkF = s.hwkF ∧ (s.setChan n c).coc = s.coc ∧ (s.setChan n c).mon = s.mon ∧ (s.setChan n c).grp = s.grp ∧
    (s.setChan n c).stl = s.stl ∧ (s.setChan n c).canCtl = s.canCtl ∧ (s.setChan n c).spiPort = s.spiPort ∧
    (s.setChan n c).eng = s.eng ∧ (s.setChan n c).krn = s.krn ∧ (s.setChan n c).tlg = s.tlg ∧ (s.setChan n c).chry = s.chry ∧
    (s.setChan n c).upd = s.upd ∧ (s.setChan n c).pmu = s.pmu :=
  ⟨rfl, rfl, rfl, rfl, rfl, rfl, rfl, rfl, rfl, rfl, rfl, rfl, rfl, rfl, rfl, rfl, rfl, rfl, rfl, rfl, rfl, rfl, rfl, rfl, rfl, rfl, rfl, rfl, rfl, rfl, rfl, rfl⟩

@[simp] theorem Dev.setSlot_fields (s : Dev) (n k : Nat) (x : Slot) :
    (s.setSlot n k x).pfi = { s.pfi with slots := kput .reset s.pfi.slots (64 * n + k) x } ∧
    (s.setSlot n k x).part = s.part ∧ (s.setSlot n k x).fuseOk = s.fuseOk ∧ (s.setSlot n k x).eccCorr = s.eccCorr ∧
    (s.setSlot n k x).dt = s.dt ∧ (s.setSlot n k x).time = s.time ∧ (s.setSlot n k x).timePart = s.timePart ∧
    (s.setSlot n k x).freeCtr = s.freeCtr ∧ (s.setSlot n k x).out = s.out ∧ (s.setSlot n k x).cfg = s.cfg ∧
    (s.setSlot n k x).chr = s.chr ∧ (s.setSlot n k x).sram = s.sram ∧ (s.setSlot n k x).cpf = s.cpf ∧
    (s.setSlot n k x).hoist = s.hoist ∧ (s.setSlot n k x).drv = s.drv ∧ (s.setSlot n k x).door = s.door ∧
    (s.setSlot n k x).lpe = s.lpe ∧ (s.setSlot n k x).hiu = s.hiu ∧ (s.setSlot n k x).hwk = s.hwk ∧
    (s.setSlot n k x).hwkF = s.hwkF ∧ (s.setSlot n k x).coc = s.coc ∧ (s.setSlot n k x).mon = s.mon ∧
    (s.setSlot n k x).grp = s.grp ∧ (s.setSlot n k x).stl = s.stl ∧ (s.setSlot n k x).canCtl = s.canCtl ∧
    (s.setSlot n k x).spiPort = s.spiPort ∧ (s.setSlot n k x).eng = s.eng ∧ (s.setSlot n k x).krn = s.krn ∧
    (s.setSlot n k x).tlg = s.tlg ∧ (s.setSlot n k x).chry = s.chry ∧ (s.setSlot n k x).upd = s.upd ∧
    (s.setSlot n k x).pmu = s.pmu :=
  ⟨rfl, rfl, rfl, rfl, rfl, rfl, rfl, rfl, rfl, rfl, rfl, rfl, rfl, rfl, rfl, rfl, rfl, rfl, rfl, rfl, rfl, rfl, rfl, rfl, rfl, rfl, rfl, rfl, rfl, rfl, rfl, rfl⟩

@[simp] theorem Dev.setSsi_fields (s : Dev) (m : Nat) (x : Ssi) :
    (s.setSsi m x).pfi = { s.pfi with ssis := kput .reset s.pfi.ssis m x } ∧ (s.setSsi m x).part = s.part ∧
    (s.setSsi m x).fuseOk = s.fuseOk ∧ (s.setSsi m x).eccCorr = s.eccCorr ∧ (s.setSsi m x).dt = s.dt ∧
    (s.setSsi m x).time = s.time ∧ (s.setSsi m x).timePart = s.timePart ∧ (s.setSsi m x).freeCtr = s.freeCtr ∧
    (s.setSsi m x).out = s.out ∧ (s.setSsi m x).cfg = s.cfg ∧ (s.setSsi m x).chr = s.chr ∧ (s.setSsi m x).sram = s.sram ∧
    (s.setSsi m x).cpf = s.cpf ∧ (s.setSsi m x).hoist = s.hoist ∧ (s.setSsi m x).drv = s.drv ∧ (s.setSsi m x).door = s.door ∧
    (s.setSsi m x).lpe = s.lpe ∧ (s.setSsi m x).hiu = s.hiu ∧ (s.setSsi m x).hwk = s.hwk ∧ (s.setSsi m x).hwkF = s.hwkF ∧
    (s.setSsi m x).coc = s.coc ∧ (s.setSsi m x).mon = s.mon ∧ (s.setSsi m x).grp = s.grp ∧ (s.setSsi m x).stl = s.stl ∧
    (s.setSsi m x).canCtl = s.canCtl ∧ (s.setSsi m x).spiPort = s.spiPort ∧ (s.setSsi m x).eng = s.eng ∧
    (s.setSsi m x).krn = s.krn ∧ (s.setSsi m x).tlg = s.tlg ∧ (s.setSsi m x).chry = s.chry ∧ (s.setSsi m x).upd = s.upd ∧
    (s.setSsi m x).pmu = s.pmu :=
  ⟨rfl, rfl, rfl, rfl, rfl, rfl, rfl, rfl, rfl, rfl, rfl, rfl, rfl, rfl, rfl, rfl, rfl, rfl, rfl, rfl, rfl, rfl, rfl, rfl, rfl, rfl, rfl, rfl, rfl, rfl, rfl, rfl⟩

@[simp] theorem Dev.setCpf_fields (s : Dev) (f : Cpf → Cpf) :
    (s.setCpf f).cpf = f s.cpf ∧ (s.setCpf f).part = s.part ∧ (s.setCpf f).fuseOk = s.fuseOk ∧
    (s.setCpf f).eccCorr = s.eccCorr ∧ (s.setCpf f).dt = s.dt ∧ (s.setCpf f).time = s.time ∧
    (s.setCpf f).timePart = s.timePart ∧ (s.setCpf f).freeCtr = s.freeCtr ∧ (s.setCpf f).out = s.out ∧
    (s.setCpf f).cfg = s.cfg ∧ (s.setCpf f).chr = s.chr ∧ (s.setCpf f).sram = s.sram ∧ (s.setCpf f).pfi = s.pfi ∧
    (s.setCpf f).hoist = s.hoist ∧ (s.setCpf f).drv = s.drv ∧ (s.setCpf f).door = s.door ∧ (s.setCpf f).lpe = s.lpe ∧
    (s.setCpf f).hiu = s.hiu ∧ (s.setCpf f).hwk = s.hwk ∧ (s.setCpf f).hwkF = s.hwkF ∧ (s.setCpf f).coc = s.coc ∧
    (s.setCpf f).mon = s.mon ∧ (s.setCpf f).grp = s.grp ∧ (s.setCpf f).stl = s.stl ∧ (s.setCpf f).canCtl = s.canCtl ∧
    (s.setCpf f).spiPort = s.spiPort ∧ (s.setCpf f).eng = s.eng ∧ (s.setCpf f).krn = s.krn ∧ (s.setCpf f).tlg = s.tlg ∧
    (s.setCpf f).chry = s.chry ∧ (s.setCpf f).upd = s.upd ∧ (s.setCpf f).pmu = s.pmu :=
  ⟨rfl, rfl, rfl, rfl, rfl, rfl, rfl, rfl, rfl, rfl, rfl, rfl, rfl, rfl, rfl, rfl, rfl, rfl, rfl, rfl, rfl, rfl, rfl, rfl, rfl, rfl, rfl, rfl, rfl, rfl, rfl, rfl⟩

@[simp] theorem Dev.setHoist_fields (s : Dev) (f : Hoist → Hoist) :
    (s.setHoist f).hoist = f s.hoist ∧ (s.setHoist f).part = s.part ∧ (s.setHoist f).fuseOk = s.fuseOk ∧
    (s.setHoist f).eccCorr = s.eccCorr ∧ (s.setHoist f).dt = s.dt ∧ (s.setHoist f).time = s.time ∧
    (s.setHoist f).timePart = s.timePart ∧ (s.setHoist f).freeCtr = s.freeCtr ∧ (s.setHoist f).out = s.out ∧
    (s.setHoist f).cfg = s.cfg ∧ (s.setHoist f).chr = s.chr ∧ (s.setHoist f).sram = s.sram ∧ (s.setHoist f).pfi = s.pfi ∧
    (s.setHoist f).cpf = s.cpf ∧ (s.setHoist f).drv = s.drv ∧ (s.setHoist f).door = s.door ∧ (s.setHoist f).lpe = s.lpe ∧
    (s.setHoist f).hiu = s.hiu ∧ (s.setHoist f).hwk = s.hwk ∧ (s.setHoist f).hwkF = s.hwkF ∧ (s.setHoist f).coc = s.coc ∧
    (s.setHoist f).mon = s.mon ∧ (s.setHoist f).grp = s.grp ∧ (s.setHoist f).stl = s.stl ∧ (s.setHoist f).canCtl = s.canCtl ∧
    (s.setHoist f).spiPort = s.spiPort ∧ (s.setHoist f).eng = s.eng ∧ (s.setHoist f).krn = s.krn ∧
    (s.setHoist f).tlg = s.tlg ∧ (s.setHoist f).chry = s.chry ∧ (s.setHoist f).upd = s.upd ∧ (s.setHoist f).pmu = s.pmu :=
  ⟨rfl, rfl, rfl, rfl, rfl, rfl, rfl, rfl, rfl, rfl, rfl, rfl, rfl, rfl, rfl, rfl, rfl, rfl, rfl, rfl, rfl, rfl, rfl, rfl, rfl, rfl, rfl, rfl, rfl, rfl, rfl, rfl⟩

@[simp] theorem Dev.setDrv_fields (s : Dev) (f : Drv → Drv) :
    (s.setDrv f).drv = f s.drv ∧ (s.setDrv f).part = s.part ∧ (s.setDrv f).fuseOk = s.fuseOk ∧
    (s.setDrv f).eccCorr = s.eccCorr ∧ (s.setDrv f).dt = s.dt ∧ (s.setDrv f).time = s.time ∧
    (s.setDrv f).timePart = s.timePart ∧ (s.setDrv f).freeCtr = s.freeCtr ∧ (s.setDrv f).out = s.out ∧
    (s.setDrv f).cfg = s.cfg ∧ (s.setDrv f).chr = s.chr ∧ (s.setDrv f).sram = s.sram ∧ (s.setDrv f).pfi = s.pfi ∧
    (s.setDrv f).cpf = s.cpf ∧ (s.setDrv f).hoist = s.hoist ∧ (s.setDrv f).door = s.door ∧ (s.setDrv f).lpe = s.lpe ∧
    (s.setDrv f).hiu = s.hiu ∧ (s.setDrv f).hwk = s.hwk ∧ (s.setDrv f).hwkF = s.hwkF ∧ (s.setDrv f).coc = s.coc ∧
    (s.setDrv f).mon = s.mon ∧ (s.setDrv f).grp = s.grp ∧ (s.setDrv f).stl = s.stl ∧ (s.setDrv f).canCtl = s.canCtl ∧
    (s.setDrv f).spiPort = s.spiPort ∧ (s.setDrv f).eng = s.eng ∧ (s.setDrv f).krn = s.krn ∧ (s.setDrv f).tlg = s.tlg ∧
    (s.setDrv f).chry = s.chry ∧ (s.setDrv f).upd = s.upd ∧ (s.setDrv f).pmu = s.pmu :=
  ⟨rfl, rfl, rfl, rfl, rfl, rfl, rfl, rfl, rfl, rfl, rfl, rfl, rfl, rfl, rfl, rfl, rfl, rfl, rfl, rfl, rfl, rfl, rfl, rfl, rfl, rfl, rfl, rfl, rfl, rfl, rfl, rfl⟩

@[simp] theorem Dev.setAxis_fields (s : Dev) (n : Nat) (x : Axis) :
    (s.setAxis n x).door = { s.door with axes := kput .reset s.door.axes n x } ∧ (s.setAxis n x).part = s.part ∧
    (s.setAxis n x).fuseOk = s.fuseOk ∧ (s.setAxis n x).eccCorr = s.eccCorr ∧ (s.setAxis n x).dt = s.dt ∧
    (s.setAxis n x).time = s.time ∧ (s.setAxis n x).timePart = s.timePart ∧ (s.setAxis n x).freeCtr = s.freeCtr ∧
    (s.setAxis n x).out = s.out ∧ (s.setAxis n x).cfg = s.cfg ∧ (s.setAxis n x).chr = s.chr ∧ (s.setAxis n x).sram = s.sram ∧
    (s.setAxis n x).pfi = s.pfi ∧ (s.setAxis n x).cpf = s.cpf ∧ (s.setAxis n x).hoist = s.hoist ∧
    (s.setAxis n x).drv = s.drv ∧ (s.setAxis n x).lpe = s.lpe ∧ (s.setAxis n x).hiu = s.hiu ∧ (s.setAxis n x).hwk = s.hwk ∧
    (s.setAxis n x).hwkF = s.hwkF ∧ (s.setAxis n x).coc = s.coc ∧ (s.setAxis n x).mon = s.mon ∧ (s.setAxis n x).grp = s.grp ∧
    (s.setAxis n x).stl = s.stl ∧ (s.setAxis n x).canCtl = s.canCtl ∧ (s.setAxis n x).spiPort = s.spiPort ∧
    (s.setAxis n x).eng = s.eng ∧ (s.setAxis n x).krn = s.krn ∧ (s.setAxis n x).tlg = s.tlg ∧ (s.setAxis n x).chry = s.chry ∧
    (s.setAxis n x).upd = s.upd ∧ (s.setAxis n x).pmu = s.pmu :=
  ⟨rfl, rfl, rfl, rfl, rfl, rfl, rfl, rfl, rfl, rfl, rfl, rfl, rfl, rfl, rfl, rfl, rfl, rfl, rfl, rfl, rfl, rfl, rfl, rfl, rfl, rfl, rfl, rfl, rfl, rfl, rfl, rfl⟩

@[simp] theorem Dev.setCamSlot_fields (s : Dev) (n k : Nat) (x : CamSlot) :
    (s.setCamSlot n k x).door = { s.door with cams := kput .reset s.door.cams (4 * n + k) x } ∧
    (s.setCamSlot n k x).part = s.part ∧ (s.setCamSlot n k x).fuseOk = s.fuseOk ∧ (s.setCamSlot n k x).eccCorr = s.eccCorr ∧
    (s.setCamSlot n k x).dt = s.dt ∧ (s.setCamSlot n k x).time = s.time ∧ (s.setCamSlot n k x).timePart = s.timePart ∧
    (s.setCamSlot n k x).freeCtr = s.freeCtr ∧ (s.setCamSlot n k x).out = s.out ∧ (s.setCamSlot n k x).cfg = s.cfg ∧
    (s.setCamSlot n k x).chr = s.chr ∧ (s.setCamSlot n k x).sram = s.sram ∧ (s.setCamSlot n k x).pfi = s.pfi ∧
    (s.setCamSlot n k x).cpf = s.cpf ∧ (s.setCamSlot n k x).hoist = s.hoist ∧ (s.setCamSlot n k x).drv = s.drv ∧
    (s.setCamSlot n k x).lpe = s.lpe ∧ (s.setCamSlot n k x).hiu = s.hiu ∧ (s.setCamSlot n k x).hwk = s.hwk ∧
    (s.setCamSlot n k x).hwkF = s.hwkF ∧ (s.setCamSlot n k x).coc = s.coc ∧ (s.setCamSlot n k x).mon = s.mon ∧
    (s.setCamSlot n k x).grp = s.grp ∧ (s.setCamSlot n k x).stl = s.stl ∧ (s.setCamSlot n k x).canCtl = s.canCtl ∧
    (s.setCamSlot n k x).spiPort = s.spiPort ∧ (s.setCamSlot n k x).eng = s.eng ∧ (s.setCamSlot n k x).krn = s.krn ∧
    (s.setCamSlot n k x).tlg = s.tlg ∧ (s.setCamSlot n k x).chry = s.chry ∧ (s.setCamSlot n k x).upd = s.upd ∧
    (s.setCamSlot n k x).pmu = s.pmu :=
  ⟨rfl, rfl, rfl, rfl, rfl, rfl, rfl, rfl, rfl, rfl, rfl, rfl, rfl, rfl, rfl, rfl, rfl, rfl, rfl, rfl, rfl, rfl, rfl, rfl, rfl, rfl, rfl, rfl, rfl, rfl, rfl, rfl⟩

@[simp] theorem Dev.setBridge_fields (s : Dev) (b : Nat) (x : Bridge) :
    (s.setBridge b x).door = { s.door with bridges := kput .reset s.door.bridges b x } ∧ (s.setBridge b x).part = s.part ∧
    (s.setBridge b x).fuseOk = s.fuseOk ∧ (s.setBridge b x).eccCorr = s.eccCorr ∧ (s.setBridge b x).dt = s.dt ∧
    (s.setBridge b x).time = s.time ∧ (s.setBridge b x).timePart = s.timePart ∧ (s.setBridge b x).freeCtr = s.freeCtr ∧
    (s.setBridge b x).out = s.out ∧ (s.setBridge b x).cfg = s.cfg ∧ (s.setBridge b x).chr = s.chr ∧
    (s.setBridge b x).sram = s.sram ∧ (s.setBridge b x).pfi = s.pfi ∧ (s.setBridge b x).cpf = s.cpf ∧
    (s.setBridge b x).hoist = s.hoist ∧ (s.setBridge b x).drv = s.drv ∧ (s.setBridge b x).lpe = s.lpe ∧
    (s.setBridge b x).hiu = s.hiu ∧ (s.setBridge b x).hwk = s.hwk ∧ (s.setBridge b x).hwkF = s.hwkF ∧
    (s.setBridge b x).coc = s.coc ∧ (s.setBridge b x).mon = s.mon ∧ (s.setBridge b x).grp = s.grp ∧
    (s.setBridge b x).stl = s.stl ∧ (s.setBridge b x).canCtl = s.canCtl ∧ (s.setBridge b x).spiPort = s.spiPort ∧
    (s.setBridge b x).eng = s.eng ∧ (s.setBridge b x).krn = s.krn ∧ (s.setBridge b x).tlg = s.tlg ∧
    (s.setBridge b x).chry = s.chry ∧ (s.setBridge b x).upd = s.upd ∧ (s.setBridge b x).pmu = s.pmu :=
  ⟨rfl, rfl, rfl, rfl, rfl, rfl, rfl, rfl, rfl, rfl, rfl, rfl, rfl, rfl, rfl, rfl, rfl, rfl, rfl, rfl, rfl, rfl, rfl, rfl, rfl, rfl, rfl, rfl, rfl, rfl, rfl, rfl⟩

@[simp] theorem Dev.doorWait_fields (s : Dev) (d : Desc) :
    (s.doorWait d).door = { s.door with waiting := s.door.waiting ++ [(d, s.dt)] } ∧ (s.doorWait d).part = s.part ∧
    (s.doorWait d).fuseOk = s.fuseOk ∧ (s.doorWait d).eccCorr = s.eccCorr ∧ (s.doorWait d).dt = s.dt ∧
    (s.doorWait d).time = s.time ∧ (s.doorWait d).timePart = s.timePart ∧ (s.doorWait d).freeCtr = s.freeCtr ∧
    (s.doorWait d).out = s.out ∧ (s.doorWait d).cfg = s.cfg ∧ (s.doorWait d).chr = s.chr ∧ (s.doorWait d).sram = s.sram ∧
    (s.doorWait d).pfi = s.pfi ∧ (s.doorWait d).cpf = s.cpf ∧ (s.doorWait d).hoist = s.hoist ∧ (s.doorWait d).drv = s.drv ∧
    (s.doorWait d).lpe = s.lpe ∧ (s.doorWait d).hiu = s.hiu ∧ (s.doorWait d).hwk = s.hwk ∧ (s.doorWait d).hwkF = s.hwkF ∧
    (s.doorWait d).coc = s.coc ∧ (s.doorWait d).mon = s.mon ∧ (s.doorWait d).grp = s.grp ∧ (s.doorWait d).stl = s.stl ∧
    (s.doorWait d).canCtl = s.canCtl ∧ (s.doorWait d).spiPort = s.spiPort ∧ (s.doorWait d).eng = s.eng ∧
    (s.doorWait d).krn = s.krn ∧ (s.doorWait d).tlg = s.tlg ∧ (s.doorWait d).chry = s.chry ∧ (s.doorWait d).upd = s.upd ∧
    (s.doorWait d).pmu = s.pmu :=
  ⟨rfl, rfl, rfl, rfl, rfl, rfl, rfl, rfl, rfl, rfl, rfl, rfl, rfl, rfl, rfl, rfl, rfl, rfl, rfl, rfl, rfl, rfl, rfl, rfl, rfl, rfl, rfl, rfl, rfl, rfl, rfl, rfl⟩

@[simp] theorem Dev.setHwk_fields (s : Dev) (f : HwkLogic → HwkLogic) :
    (s.setHwk f).hwk = f s.hwk ∧ (s.setHwk f).part = s.part ∧ (s.setHwk f).fuseOk = s.fuseOk ∧
    (s.setHwk f).eccCorr = s.eccCorr ∧ (s.setHwk f).dt = s.dt ∧ (s.setHwk f).time = s.time ∧
    (s.setHwk f).timePart = s.timePart ∧ (s.setHwk f).freeCtr = s.freeCtr ∧ (s.setHwk f).out = s.out ∧
    (s.setHwk f).cfg = s.cfg ∧ (s.setHwk f).chr = s.chr ∧ (s.setHwk f).sram = s.sram ∧ (s.setHwk f).pfi = s.pfi ∧
    (s.setHwk f).cpf = s.cpf ∧ (s.setHwk f).hoist = s.hoist ∧ (s.setHwk f).drv = s.drv ∧ (s.setHwk f).door = s.door ∧
    (s.setHwk f).lpe = s.lpe ∧ (s.setHwk f).hiu = s.hiu ∧ (s.setHwk f).hwkF = s.hwkF ∧ (s.setHwk f).coc = s.coc ∧
    (s.setHwk f).mon = s.mon ∧ (s.setHwk f).grp = s.grp ∧ (s.setHwk f).stl = s.stl ∧ (s.setHwk f).canCtl = s.canCtl ∧
    (s.setHwk f).spiPort = s.spiPort ∧ (s.setHwk f).eng = s.eng ∧ (s.setHwk f).krn = s.krn ∧ (s.setHwk f).tlg = s.tlg ∧
    (s.setHwk f).chry = s.chry ∧ (s.setHwk f).upd = s.upd ∧ (s.setHwk f).pmu = s.pmu :=
  ⟨rfl, rfl, rfl, rfl, rfl, rfl, rfl, rfl, rfl, rfl, rfl, rfl, rfl, rfl, rfl, rfl, rfl, rfl, rfl, rfl, rfl, rfl, rfl, rfl, rfl, rfl, rfl, rfl, rfl, rfl, rfl, rfl⟩

@[simp] theorem Dev.setHwkF_fields (s : Dev) (f : HwkField → HwkField) :
    (s.setHwkF f).hwkF = f s.hwkF ∧ (s.setHwkF f).part = s.part ∧ (s.setHwkF f).fuseOk = s.fuseOk ∧
    (s.setHwkF f).eccCorr = s.eccCorr ∧ (s.setHwkF f).dt = s.dt ∧ (s.setHwkF f).time = s.time ∧
    (s.setHwkF f).timePart = s.timePart ∧ (s.setHwkF f).freeCtr = s.freeCtr ∧ (s.setHwkF f).out = s.out ∧
    (s.setHwkF f).cfg = s.cfg ∧ (s.setHwkF f).chr = s.chr ∧ (s.setHwkF f).sram = s.sram ∧ (s.setHwkF f).pfi = s.pfi ∧
    (s.setHwkF f).cpf = s.cpf ∧ (s.setHwkF f).hoist = s.hoist ∧ (s.setHwkF f).drv = s.drv ∧ (s.setHwkF f).door = s.door ∧
    (s.setHwkF f).lpe = s.lpe ∧ (s.setHwkF f).hiu = s.hiu ∧ (s.setHwkF f).hwk = s.hwk ∧ (s.setHwkF f).coc = s.coc ∧
    (s.setHwkF f).mon = s.mon ∧ (s.setHwkF f).grp = s.grp ∧ (s.setHwkF f).stl = s.stl ∧ (s.setHwkF f).canCtl = s.canCtl ∧
    (s.setHwkF f).spiPort = s.spiPort ∧ (s.setHwkF f).eng = s.eng ∧ (s.setHwkF f).krn = s.krn ∧ (s.setHwkF f).tlg = s.tlg ∧
    (s.setHwkF f).chry = s.chry ∧ (s.setHwkF f).upd = s.upd ∧ (s.setHwkF f).pmu = s.pmu :=
  ⟨rfl, rfl, rfl, rfl, rfl, rfl, rfl, rfl, rfl, rfl, rfl, rfl, rfl, rfl, rfl, rfl, rfl, rfl, rfl, rfl, rfl, rfl, rfl, rfl, rfl, rfl, rfl, rfl, rfl, rfl, rfl, rfl⟩

@[simp] theorem Dev.setField_fields (s : Dev) (f : CocField → CocField) :
    (s.setField f).coc = { s.coc with field := f s.coc.field } ∧ (s.setField f).part = s.part ∧
    (s.setField f).fuseOk = s.fuseOk ∧ (s.setField f).eccCorr = s.eccCorr ∧ (s.setField f).dt = s.dt ∧
    (s.setField f).time = s.time ∧ (s.setField f).timePart = s.timePart ∧ (s.setField f).freeCtr = s.freeCtr ∧
    (s.setField f).out = s.out ∧ (s.setField f).cfg = s.cfg ∧ (s.setField f).chr = s.chr ∧ (s.setField f).sram = s.sram ∧
    (s.setField f).pfi = s.pfi ∧ (s.setField f).cpf = s.cpf ∧ (s.setField f).hoist = s.hoist ∧ (s.setField f).drv = s.drv ∧
    (s.setField f).door = s.door ∧ (s.setField f).lpe = s.lpe ∧ (s.setField f).hiu = s.hiu ∧ (s.setField f).hwk = s.hwk ∧
    (s.setField f).hwkF = s.hwkF ∧ (s.setField f).mon = s.mon ∧ (s.setField f).grp = s.grp ∧ (s.setField f).stl = s.stl ∧
    (s.setField f).canCtl = s.canCtl ∧ (s.setField f).spiPort = s.spiPort ∧ (s.setField f).eng = s.eng ∧
    (s.setField f).krn = s.krn ∧ (s.setField f).tlg = s.tlg ∧ (s.setField f).chry = s.chry ∧ (s.setField f).upd = s.upd ∧
    (s.setField f).pmu = s.pmu :=
  ⟨rfl, rfl, rfl, rfl, rfl, rfl, rfl, rfl, rfl, rfl, rfl, rfl, rfl, rfl, rfl, rfl, rfl, rfl, rfl, rfl, rfl, rfl, rfl, rfl, rfl, rfl, rfl, rfl, rfl, rfl, rfl, rfl⟩

@[simp] theorem Dev.modCan_fields (s : Dev) (n : Nat) (f : Can → Can) :
    (s.modCan n f).canCtl = kmod .reset s.canCtl n f ∧ (s.modCan n f).part = s.part ∧ (s.modCan n f).fuseOk = s.fuseOk ∧
    (s.modCan n f).eccCorr = s.eccCorr ∧ (s.modCan n f).dt = s.dt ∧ (s.modCan n f).time = s.time ∧
    (s.modCan n f).timePart = s.timePart ∧ (s.modCan n f).freeCtr = s.freeCtr ∧ (s.modCan n f).out = s.out ∧
    (s.modCan n f).cfg = s.cfg ∧ (s.modCan n f).chr = s.chr ∧ (s.modCan n f).sram = s.sram ∧ (s.modCan n f).pfi = s.pfi ∧
    (s.modCan n f).cpf = s.cpf ∧ (s.modCan n f).hoist = s.hoist ∧ (s.modCan n f).drv = s.drv ∧ (s.modCan n f).door = s.door ∧
    (s.modCan n f).lpe = s.lpe ∧ (s.modCan n f).hiu = s.hiu ∧ (s.modCan n f).hwk = s.hwk ∧ (s.modCan n f).hwkF = s.hwkF ∧
    (s.modCan n f).coc = s.coc ∧ (s.modCan n f).mon = s.mon ∧ (s.modCan n f).grp = s.grp ∧ (s.modCan n f).stl = s.stl ∧
    (s.modCan n f).spiPort = s.spiPort ∧ (s.modCan n f).eng = s.eng ∧ (s.modCan n f).krn = s.krn ∧
    (s.modCan n f).tlg = s.tlg ∧ (s.modCan n f).chry = s.chry ∧ (s.modCan n f).upd = s.upd ∧ (s.modCan n f).pmu = s.pmu :=
  ⟨rfl, rfl, rfl, rfl, rfl, rfl, rfl, rfl, rfl, rfl, rfl, rfl, rfl, rfl, rfl, rfl, rfl, rfl, rfl, rfl, rfl, rfl, rfl, rfl, rfl, rfl, rfl, rfl, rfl, rfl, rfl, rfl⟩

@[simp] theorem Dev.modSpi_fields (s : Dev) (m : Nat) (f : Spi → Spi) :
    (s.modSpi m f).spiPort = kmod .reset s.spiPort m f ∧ (s.modSpi m f).part = s.part ∧ (s.modSpi m f).fuseOk = s.fuseOk ∧
    (s.modSpi m f).eccCorr = s.eccCorr ∧ (s.modSpi m f).dt = s.dt ∧ (s.modSpi m f).time = s.time ∧
    (s.modSpi m f).timePart = s.timePart ∧ (s.modSpi m f).freeCtr = s.freeCtr ∧ (s.modSpi m f).out = s.out ∧
    (s.modSpi m f).cfg = s.cfg ∧ (s.modSpi m f).chr = s.chr ∧ (s.modSpi m f).sram = s.sram ∧ (s.modSpi m f).pfi = s.pfi ∧
    (s.modSpi m f).cpf = s.cpf ∧ (s.modSpi m f).hoist = s.hoist ∧ (s.modSpi m f).drv = s.drv ∧ (s.modSpi m f).door = s.door ∧
    (s.modSpi m f).lpe = s.lpe ∧ (s.modSpi m f).hiu = s.hiu ∧ (s.modSpi m f).hwk = s.hwk ∧ (s.modSpi m f).hwkF = s.hwkF ∧
    (s.modSpi m f).coc = s.coc ∧ (s.modSpi m f).mon = s.mon ∧ (s.modSpi m f).grp = s.grp ∧ (s.modSpi m f).stl = s.stl ∧
    (s.modSpi m f).canCtl = s.canCtl ∧ (s.modSpi m f).eng = s.eng ∧ (s.modSpi m f).krn = s.krn ∧ (s.modSpi m f).tlg = s.tlg ∧
    (s.modSpi m f).chry = s.chry ∧ (s.modSpi m f).upd = s.upd ∧ (s.modSpi m f).pmu = s.pmu :=
  ⟨rfl, rfl, rfl, rfl, rfl, rfl, rfl, rfl, rfl, rfl, rfl, rfl, rfl, rfl, rfl, rfl, rfl, rfl, rfl, rfl, rfl, rfl, rfl, rfl, rfl, rfl, rfl, rfl, rfl, rfl, rfl, rfl⟩

@[simp] theorem Dev.setKrn_fields (s : Dev) (f : Krn → Krn) :
    (s.setKrn f).krn = f s.krn ∧ (s.setKrn f).part = s.part ∧ (s.setKrn f).fuseOk = s.fuseOk ∧
    (s.setKrn f).eccCorr = s.eccCorr ∧ (s.setKrn f).dt = s.dt ∧ (s.setKrn f).time = s.time ∧
    (s.setKrn f).timePart = s.timePart ∧ (s.setKrn f).freeCtr = s.freeCtr ∧ (s.setKrn f).out = s.out ∧
    (s.setKrn f).cfg = s.cfg ∧ (s.setKrn f).chr = s.chr ∧ (s.setKrn f).sram = s.sram ∧ (s.setKrn f).pfi = s.pfi ∧
    (s.setKrn f).cpf = s.cpf ∧ (s.setKrn f).hoist = s.hoist ∧ (s.setKrn f).drv = s.drv ∧ (s.setKrn f).door = s.door ∧
    (s.setKrn f).lpe = s.lpe ∧ (s.setKrn f).hiu = s.hiu ∧ (s.setKrn f).hwk = s.hwk ∧ (s.setKrn f).hwkF = s.hwkF ∧
    (s.setKrn f).coc = s.coc ∧ (s.setKrn f).mon = s.mon ∧ (s.setKrn f).grp = s.grp ∧ (s.setKrn f).stl = s.stl ∧
    (s.setKrn f).canCtl = s.canCtl ∧ (s.setKrn f).spiPort = s.spiPort ∧ (s.setKrn f).eng = s.eng ∧ (s.setKrn f).tlg = s.tlg ∧
    (s.setKrn f).chry = s.chry ∧ (s.setKrn f).upd = s.upd ∧ (s.setKrn f).pmu = s.pmu :=
  ⟨rfl, rfl, rfl, rfl, rfl, rfl, rfl, rfl, rfl, rfl, rfl, rfl, rfl, rfl, rfl, rfl, rfl, rfl, rfl, rfl, rfl, rfl, rfl, rfl, rfl, rfl, rfl, rfl, rfl, rfl, rfl, rfl⟩

@[simp] theorem Dev.setEngine_fields (s : Dev) (e : Nat) (x : Engine) :
    (s.setEngine e x).eng = { s.eng with engines := kput .reset s.eng.engines e x } ∧ (s.setEngine e x).part = s.part ∧
    (s.setEngine e x).fuseOk = s.fuseOk ∧ (s.setEngine e x).eccCorr = s.eccCorr ∧ (s.setEngine e x).dt = s.dt ∧
    (s.setEngine e x).time = s.time ∧ (s.setEngine e x).timePart = s.timePart ∧ (s.setEngine e x).freeCtr = s.freeCtr ∧
    (s.setEngine e x).out = s.out ∧ (s.setEngine e x).cfg = s.cfg ∧ (s.setEngine e x).chr = s.chr ∧
    (s.setEngine e x).sram = s.sram ∧ (s.setEngine e x).pfi = s.pfi ∧ (s.setEngine e x).cpf = s.cpf ∧
    (s.setEngine e x).hoist = s.hoist ∧ (s.setEngine e x).drv = s.drv ∧ (s.setEngine e x).door = s.door ∧
    (s.setEngine e x).lpe = s.lpe ∧ (s.setEngine e x).hiu = s.hiu ∧ (s.setEngine e x).hwk = s.hwk ∧
    (s.setEngine e x).hwkF = s.hwkF ∧ (s.setEngine e x).coc = s.coc ∧ (s.setEngine e x).mon = s.mon ∧
    (s.setEngine e x).grp = s.grp ∧ (s.setEngine e x).stl = s.stl ∧ (s.setEngine e x).canCtl = s.canCtl ∧
    (s.setEngine e x).spiPort = s.spiPort ∧ (s.setEngine e x).krn = s.krn ∧ (s.setEngine e x).tlg = s.tlg ∧
    (s.setEngine e x).chry = s.chry ∧ (s.setEngine e x).upd = s.upd ∧ (s.setEngine e x).pmu = s.pmu :=
  ⟨rfl, rfl, rfl, rfl, rfl, rfl, rfl, rfl, rfl, rfl, rfl, rfl, rfl, rfl, rfl, rfl, rfl, rfl, rfl, rfl, rfl, rfl, rfl, rfl, rfl, rfl, rfl, rfl, rfl, rfl, rfl, rfl⟩

@[simp] theorem Dev.setTlg_fields (s : Dev) (f : Tlg → Tlg) :
    (s.setTlg f).tlg = f s.tlg ∧ (s.setTlg f).part = s.part ∧ (s.setTlg f).fuseOk = s.fuseOk ∧
    (s.setTlg f).eccCorr = s.eccCorr ∧ (s.setTlg f).dt = s.dt ∧ (s.setTlg f).time = s.time ∧
    (s.setTlg f).timePart = s.timePart ∧ (s.setTlg f).freeCtr = s.freeCtr ∧ (s.setTlg f).out = s.out ∧
    (s.setTlg f).cfg = s.cfg ∧ (s.setTlg f).chr = s.chr ∧ (s.setTlg f).sram = s.sram ∧ (s.setTlg f).pfi = s.pfi ∧
    (s.setTlg f).cpf = s.cpf ∧ (s.setTlg f).hoist = s.hoist ∧ (s.setTlg f).drv = s.drv ∧ (s.setTlg f).door = s.door ∧
    (s.setTlg f).lpe = s.lpe ∧ (s.setTlg f).hiu = s.hiu ∧ (s.setTlg f).hwk = s.hwk ∧ (s.setTlg f).hwkF = s.hwkF ∧
    (s.setTlg f).coc = s.coc ∧ (s.setTlg f).mon = s.mon ∧ (s.setTlg f).grp = s.grp ∧ (s.setTlg f).stl = s.stl ∧
    (s.setTlg f).canCtl = s.canCtl ∧ (s.setTlg f).spiPort = s.spiPort ∧ (s.setTlg f).eng = s.eng ∧ (s.setTlg f).krn = s.krn ∧
    (s.setTlg f).chry = s.chry ∧ (s.setTlg f).upd = s.upd ∧ (s.setTlg f).pmu = s.pmu :=
  ⟨rfl, rfl, rfl, rfl, rfl, rfl, rfl, rfl, rfl, rfl, rfl, rfl, rfl, rfl, rfl, rfl, rfl, rfl, rfl, rfl, rfl, rfl, rfl, rfl, rfl, rfl, rfl, rfl, rfl, rfl, rfl, rfl⟩

@[simp] theorem Dev.setPeriod_fields (s : Dev) (id : Nat) (p : Option Period) :
    (s.setPeriod id p).eng = { s.eng with periods := kput none s.eng.periods id p } ∧ (s.setPeriod id p).part = s.part ∧
    (s.setPeriod id p).fuseOk = s.fuseOk ∧ (s.setPeriod id p).eccCorr = s.eccCorr ∧ (s.setPeriod id p).dt = s.dt ∧
    (s.setPeriod id p).time = s.time ∧ (s.setPeriod id p).timePart = s.timePart ∧ (s.setPeriod id p).freeCtr = s.freeCtr ∧
    (s.setPeriod id p).out = s.out ∧ (s.setPeriod id p).cfg = s.cfg ∧ (s.setPeriod id p).chr = s.chr ∧
    (s.setPeriod id p).sram = s.sram ∧ (s.setPeriod id p).pfi = s.pfi ∧ (s.setPeriod id p).cpf = s.cpf ∧
    (s.setPeriod id p).hoist = s.hoist ∧ (s.setPeriod id p).drv = s.drv ∧ (s.setPeriod id p).door = s.door ∧
    (s.setPeriod id p).lpe = s.lpe ∧ (s.setPeriod id p).hiu = s.hiu ∧ (s.setPeriod id p).hwk = s.hwk ∧
    (s.setPeriod id p).hwkF = s.hwkF ∧ (s.setPeriod id p).coc = s.coc ∧ (s.setPeriod id p).mon = s.mon ∧
    (s.setPeriod id p).grp = s.grp ∧ (s.setPeriod id p).stl = s.stl ∧ (s.setPeriod id p).canCtl = s.canCtl ∧
    (s.setPeriod id p).spiPort = s.spiPort ∧ (s.setPeriod id p).krn = s.krn ∧ (s.setPeriod id p).tlg = s.tlg ∧
    (s.setPeriod id p).chry = s.chry ∧ (s.setPeriod id p).upd = s.upd ∧ (s.setPeriod id p).pmu = s.pmu :=
  ⟨rfl, rfl, rfl, rfl, rfl, rfl, rfl, rfl, rfl, rfl, rfl, rfl, rfl, rfl, rfl, rfl, rfl, rfl, rfl, rfl, rfl, rfl, rfl, rfl, rfl, rfl, rfl, rfl, rfl, rfl, rfl, rfl⟩

@[simp] theorem Dev.setChry_fields (s : Dev) (f : Chry → Chry) :
    (s.setChry f).chry = f s.chry ∧ (s.setChry f).part = s.part ∧ (s.setChry f).fuseOk = s.fuseOk ∧
    (s.setChry f).eccCorr = s.eccCorr ∧ (s.setChry f).dt = s.dt ∧ (s.setChry f).time = s.time ∧
    (s.setChry f).timePart = s.timePart ∧ (s.setChry f).freeCtr = s.freeCtr ∧ (s.setChry f).out = s.out ∧
    (s.setChry f).cfg = s.cfg ∧ (s.setChry f).chr = s.chr ∧ (s.setChry f).sram = s.sram ∧ (s.setChry f).pfi = s.pfi ∧
    (s.setChry f).cpf = s.cpf ∧ (s.setChry f).hoist = s.hoist ∧ (s.setChry f).drv = s.drv ∧ (s.setChry f).door = s.door ∧
    (s.setChry f).lpe = s.lpe ∧ (s.setChry f).hiu = s.hiu ∧ (s.setChry f).hwk = s.hwk ∧ (s.setChry f).hwkF = s.hwkF ∧
    (s.setChry f).coc = s.coc ∧ (s.setChry f).mon = s.mon ∧ (s.setChry f).grp = s.grp ∧ (s.setChry f).stl = s.stl ∧
    (s.setChry f).canCtl = s.canCtl ∧ (s.setChry f).spiPort = s.spiPort ∧ (s.setChry f).eng = s.eng ∧
    (s.setChry f).krn = s.krn ∧ (s.setChry f).tlg = s.tlg ∧ (s.setChry f).upd = s.upd ∧ (s.setChry f).pmu = s.pmu :=
  ⟨rfl, rfl, rfl, rfl, rfl, rfl, rfl, rfl, rfl, rfl, rfl, rfl, rfl, rfl, rfl, rfl, rfl, rfl, rfl, rfl, rfl, rfl, rfl, rfl, rfl, rfl, rfl, rfl, rfl, rfl, rfl, rfl⟩

@[simp] theorem Dev.setPmu_fields (s : Dev) (f : Pmu → Pmu) :
    (s.setPmu f).pmu = f s.pmu ∧ (s.setPmu f).part = s.part ∧ (s.setPmu f).fuseOk = s.fuseOk ∧
    (s.setPmu f).eccCorr = s.eccCorr ∧ (s.setPmu f).dt = s.dt ∧ (s.setPmu f).time = s.time ∧
    (s.setPmu f).timePart = s.timePart ∧ (s.setPmu f).freeCtr = s.freeCtr ∧ (s.setPmu f).out = s.out ∧
    (s.setPmu f).cfg = s.cfg ∧ (s.setPmu f).chr = s.chr ∧ (s.setPmu f).sram = s.sram ∧ (s.setPmu f).pfi = s.pfi ∧
    (s.setPmu f).cpf = s.cpf ∧ (s.setPmu f).hoist = s.hoist ∧ (s.setPmu f).drv = s.drv ∧ (s.setPmu f).door = s.door ∧
    (s.setPmu f).lpe = s.lpe ∧ (s.setPmu f).hiu = s.hiu ∧ (s.setPmu f).hwk = s.hwk ∧ (s.setPmu f).hwkF = s.hwkF ∧
    (s.setPmu f).coc = s.coc ∧ (s.setPmu f).mon = s.mon ∧ (s.setPmu f).grp = s.grp ∧ (s.setPmu f).stl = s.stl ∧
    (s.setPmu f).canCtl = s.canCtl ∧ (s.setPmu f).spiPort = s.spiPort ∧ (s.setPmu f).eng = s.eng ∧ (s.setPmu f).krn = s.krn ∧
    (s.setPmu f).tlg = s.tlg ∧ (s.setPmu f).chry = s.chry ∧ (s.setPmu f).upd = s.upd :=
  ⟨rfl, rfl, rfl, rfl, rfl, rfl, rfl, rfl, rfl, rfl, rfl, rfl, rfl, rfl, rfl, rfl, rfl, rfl, rfl, rfl, rfl, rfl, rfl, rfl, rfl, rfl, rfl, rfl, rfl, rfl, rfl, rfl⟩

@[simp] theorem Dev.enginesOff_fields (s : Dev) :
    (s.enginesOff).eng = { s.eng with engines := [], pwr := 0 } ∧ (s.enginesOff).part = s.part ∧
    (s.enginesOff).fuseOk = s.fuseOk ∧ (s.enginesOff).eccCorr = s.eccCorr ∧ (s.enginesOff).dt = s.dt ∧
    (s.enginesOff).time = s.time ∧ (s.enginesOff).timePart = s.timePart ∧ (s.enginesOff).freeCtr = s.freeCtr ∧
    (s.enginesOff).out = s.out ∧ (s.enginesOff).cfg = s.cfg ∧ (s.enginesOff).chr = s.chr ∧ (s.enginesOff).sram = s.sram ∧
    (s.enginesOff).pfi = s.pfi ∧ (s.enginesOff).cpf = s.cpf ∧ (s.enginesOff).hoist = s.hoist ∧ (s.enginesOff).drv = s.drv ∧
    (s.enginesOff).door = s.door ∧ (s.enginesOff).lpe = s.lpe ∧ (s.enginesOff).hiu = s.hiu ∧ (s.enginesOff).hwk = s.hwk ∧
    (s.enginesOff).hwkF = s.hwkF ∧ (s.enginesOff).coc = s.coc ∧ (s.enginesOff).mon = s.mon ∧ (s.enginesOff).grp = s.grp ∧
    (s.enginesOff).stl = s.stl ∧ (s.enginesOff).canCtl = s.canCtl ∧ (s.enginesOff).spiPort = s.spiPort ∧
    (s.enginesOff).krn = s.krn ∧ (s.enginesOff).tlg = s.tlg ∧ (s.enginesOff).chry = s.chry ∧ (s.enginesOff).upd = s.upd ∧
    (s.enginesOff).pmu = s.pmu :=
  ⟨rfl, rfl, rfl, rfl, rfl, rfl, rfl, rfl, rfl, rfl, rfl, rfl, rfl, rfl, rfl, rfl, rfl, rfl, rfl, rfl, rfl, rfl, rfl, rfl, rfl, rfl, rfl, rfl, rfl, rfl, rfl, rfl⟩

@[simp] theorem Dev.pd9Off_fields (s : Dev) :
    (s.pd9Off).sram = s.sram.filter (fun x => decide (x.1 < 0x10800000 / 4)) ∧ (s.pd9Off).part = s.part ∧
    (s.pd9Off).fuseOk = s.fuseOk ∧ (s.pd9Off).eccCorr = s.eccCorr ∧ (s.pd9Off).dt = s.dt ∧ (s.pd9Off).time = s.time ∧
    (s.pd9Off).timePart = s.timePart ∧ (s.pd9Off).freeCtr = s.freeCtr ∧ (s.pd9Off).out = s.out ∧ (s.pd9Off).cfg = s.cfg ∧
    (s.pd9Off).chr = s.chr ∧ (s.pd9Off).pfi = s.pfi ∧ (s.pd9Off).cpf = s.cpf ∧ (s.pd9Off).hoist = s.hoist ∧
    (s.pd9Off).drv = s.drv ∧ (s.pd9Off).door = s.door ∧ (s.pd9Off).lpe = s.lpe ∧ (s.pd9Off).hiu = s.hiu ∧
    (s.pd9Off).hwk = s.hwk ∧ (s.pd9Off).hwkF = s.hwkF ∧ (s.pd9Off).coc = s.coc ∧ (s.pd9Off).mon = s.mon ∧
    (s.pd9Off).grp = s.grp ∧ (s.pd9Off).stl = s.stl ∧ (s.pd9Off).canCtl = s.canCtl ∧ (s.pd9Off).spiPort = s.spiPort ∧
    (s.pd9Off).eng = s.eng ∧ (s.pd9Off).krn = s.krn ∧ (s.pd9Off).tlg = s.tlg ∧ (s.pd9Off).chry = s.chry ∧
    (s.pd9Off).upd = s.upd ∧ (s.pd9Off).pmu = s.pmu :=
  ⟨rfl, rfl, rfl, rfl, rfl, rfl, rfl, rfl, rfl, rfl, rfl, rfl, rfl, rfl, rfl, rfl, rfl, rfl, rfl, rfl, rfl, rfl, rfl, rfl, rfl, rfl, rfl, rfl, rfl, rfl, rfl, rfl⟩

@[simp] theorem Dev.setTarget_fields (s : Dev) (t : Nat) (x : UpdTarget) :
    (s.setTarget t x).upd = { s.upd with targets := kput .reset s.upd.targets t x } ∧ (s.setTarget t x).part = s.part ∧
    (s.setTarget t x).fuseOk = s.fuseOk ∧ (s.setTarget t x).eccCorr = s.eccCorr ∧ (s.setTarget t x).dt = s.dt ∧
    (s.setTarget t x).time = s.time ∧ (s.setTarget t x).timePart = s.timePart ∧ (s.setTarget t x).freeCtr = s.freeCtr ∧
    (s.setTarget t x).out = s.out ∧ (s.setTarget t x).cfg = s.cfg ∧ (s.setTarget t x).chr = s.chr ∧
    (s.setTarget t x).sram = s.sram ∧ (s.setTarget t x).pfi = s.pfi ∧ (s.setTarget t x).cpf = s.cpf ∧
    (s.setTarget t x).hoist = s.hoist ∧ (s.setTarget t x).drv = s.drv ∧ (s.setTarget t x).door = s.door ∧
    (s.setTarget t x).lpe = s.lpe ∧ (s.setTarget t x).hiu = s.hiu ∧ (s.setTarget t x).hwk = s.hwk ∧
    (s.setTarget t x).hwkF = s.hwkF ∧ (s.setTarget t x).coc = s.coc ∧ (s.setTarget t x).mon = s.mon ∧
    (s.setTarget t x).grp = s.grp ∧ (s.setTarget t x).stl = s.stl ∧ (s.setTarget t x).canCtl = s.canCtl ∧
    (s.setTarget t x).spiPort = s.spiPort ∧ (s.setTarget t x).eng = s.eng ∧ (s.setTarget t x).krn = s.krn ∧
    (s.setTarget t x).tlg = s.tlg ∧ (s.setTarget t x).chry = s.chry ∧ (s.setTarget t x).pmu = s.pmu :=
  ⟨rfl, rfl, rfl, rfl, rfl, rfl, rfl, rfl, rfl, rfl, rfl, rfl, rfl, rfl, rfl, rfl, rfl, rfl, rfl, rfl, rfl, rfl, rfl, rfl, rfl, rfl, rfl, rfl, rfl, rfl, rfl, rfl⟩

@[simp] theorem Dev.setUpdOp_fields (s : Dev) (o : Option UpdOp) :
    (s.setUpdOp o).upd = { s.upd with op := o } ∧ (s.setUpdOp o).part = s.part ∧ (s.setUpdOp o).fuseOk = s.fuseOk ∧
    (s.setUpdOp o).eccCorr = s.eccCorr ∧ (s.setUpdOp o).dt = s.dt ∧ (s.setUpdOp o).time = s.time ∧
    (s.setUpdOp o).timePart = s.timePart ∧ (s.setUpdOp o).freeCtr = s.freeCtr ∧ (s.setUpdOp o).out = s.out ∧
    (s.setUpdOp o).cfg = s.cfg ∧ (s.setUpdOp o).chr = s.chr ∧ (s.setUpdOp o).sram = s.sram ∧ (s.setUpdOp o).pfi = s.pfi ∧
    (s.setUpdOp o).cpf = s.cpf ∧ (s.setUpdOp o).hoist = s.hoist ∧ (s.setUpdOp o).drv = s.drv ∧ (s.setUpdOp o).door = s.door ∧
    (s.setUpdOp o).lpe = s.lpe ∧ (s.setUpdOp o).hiu = s.hiu ∧ (s.setUpdOp o).hwk = s.hwk ∧ (s.setUpdOp o).hwkF = s.hwkF ∧
    (s.setUpdOp o).coc = s.coc ∧ (s.setUpdOp o).mon = s.mon ∧ (s.setUpdOp o).grp = s.grp ∧ (s.setUpdOp o).stl = s.stl ∧
    (s.setUpdOp o).canCtl = s.canCtl ∧ (s.setUpdOp o).spiPort = s.spiPort ∧ (s.setUpdOp o).eng = s.eng ∧
    (s.setUpdOp o).krn = s.krn ∧ (s.setUpdOp o).tlg = s.tlg ∧ (s.setUpdOp o).chry = s.chry ∧ (s.setUpdOp o).pmu = s.pmu :=
  ⟨rfl, rfl, rfl, rfl, rfl, rfl, rfl, rfl, rfl, rfl, rfl, rfl, rfl, rfl, rfl, rfl, rfl, rfl, rfl, rfl, rfl, rfl, rfl, rfl, rfl, rfl, rfl, rfl, rfl, rfl, rfl, rfl⟩

@[simp] theorem Dev.setFlashByte_fields (s : Dev) (a : Nat) (b : Byte) :
   
    (s.setFlashByte a b).upd = { s.upd with flash := kmod 0 s.upd.flash (a / 4) (fun w => setBitsOf w (8 * (a % 4) + 7) (8 * (a % 4)) b.toNat) } ∧
    (s.setFlashByte a b).part = s.part ∧ (s.setFlashByte a b).fuseOk = s.fuseOk ∧ (s.setFlashByte a b).eccCorr = s.eccCorr ∧
    (s.setFlashByte a b).dt = s.dt ∧ (s.setFlashByte a b).time = s.time ∧ (s.setFlashByte a b).timePart = s.timePart ∧
    (s.setFlashByte a b).freeCtr = s.freeCtr ∧ (s.setFlashByte a b).out = s.out ∧ (s.setFlashByte a b).cfg = s.cfg ∧
    (s.setFlashByte a b).chr = s.chr ∧ (s.setFlashByte a b).sram = s.sram ∧ (s.setFlashByte a b).pfi = s.pfi ∧
    (s.setFlashByte a b).cpf = s.cpf ∧ (s.setFlashByte a b).hoist = s.hoist ∧ (s.setFlashByte a b).drv = s.drv ∧
    (s.setFlashByte a b).door = s.door ∧ (s.setFlashByte a b).lpe = s.lpe ∧ (s.setFlashByte a b).hiu = s.hiu ∧
    (s.setFlashByte a b).hwk = s.hwk ∧ (s.setFlashByte a b).hwkF = s.hwkF ∧ (s.setFlashByte a b).coc = s.coc ∧
    (s.setFlashByte a b).mon = s.mon ∧ (s.setFlashByte a b).grp = s.grp ∧ (s.setFlashByte a b).stl = s.stl ∧
    (s.setFlashByte a b).canCtl = s.canCtl ∧ (s.setFlashByte a b).spiPort = s.spiPort ∧ (s.setFlashByte a b).eng = s.eng ∧
    (s.setFlashByte a b).krn = s.krn ∧ (s.setFlashByte a b).tlg = s.tlg ∧ (s.setFlashByte a b).chry = s.chry ∧
    (s.setFlashByte a b).pmu = s.pmu :=
  ⟨rfl, rfl, rfl, rfl, rfl, rfl, rfl, rfl, rfl, rfl, rfl, rfl, rfl, rfl, rfl, rfl, rfl, rfl, rfl, rfl, rfl, rfl, rfl, rfl, rfl, rfl, rfl, rfl, rfl, rfl, rfl, rfl⟩

end Sys2Proof.Machine
end

