-- ==== Sys2Proof/Machine/Balls.lean ====
section
/-! DEFINITION. The packages' balls: which signal or supply every position carries, and which balls a part bonds to
no-connect (20 R425-R429, 02 R21). -/
namespace Sys2Proof.Machine

/-- What a ball carries (20 Tables 20-2 to 20-4). In the groups of several signals a number counts in the group's order
(R428). -/
inductive Ball where
  | gnd | fgnd | vddPll | vdd33 | vdd18 | vddCore
  /-- PE_TX and PE_RX of a lane, the positive and (`true`) the negative line; REFCLK likewise. -/
  | peTx (lane : Nat) (neg : Bool) | peRx (lane : Nat) (neg : Bool) | refclk (neg : Bool)
  | pePerstN | peWakeN | porstN | pfN | devReady
  /-- Signal i of port A or (`true`) B: TXC, TXCTL, TXD0-3, RXC, RXCTL, RXD0-3. -/
  | port (b : Bool) (i : Nat)
  /-- FL_CLK, FL_CS_N, FL_DQS, FL_RESET_N, FL_DQ0-7. -/
  | flash (i : Nat)
  | canTx (n : Nat) | canRx (n : Nat)
  /-- DBG_TCK, DBG_TMS, DBG_TDI, DBG_TDO. -/
  | dbg (i : Nat)
  /-- DBG_TRST_N, DBG_TRCLK, DBG_TRD0-3. -/
  | trace (i : Nat)
  /-- QA, QB, QZ of a channel, and the pass-through outputs QOA, QOB, QOZ. -/
  | q (n i : Nat) | qo (i : Nat)
  | ssiClk (m : Nat) | ssiDat (m : Nat)
  /-- SCK, MOSI, MISO, CS0, CS1. -/
  | spi (m i : Nat)
  /-- DRV_TXP, DRV_TXN, DRV_RXP, DRV_RXN, DRV_CLKP, DRV_CLKN. -/
  | drv (i : Nat)
  | fio (n : Nat) | vfield (g : Nat) | gh (n : Nat) | sw (n : Nat) | bst (n : Nat) | gl (n : Nat) | isp (n : Nat) | isn (n : Nat)
  | sc (i : Nat) | motionEn | doorEn | vgate | vbridge
deriving DecidableEq, Repr

/-! ## Outlines and names (R425, R426) -/

/-- Rows and columns of the logic region, of F and (`false`) C. -/
def logicRows (f : Bool) : Nat := if f then 25 else 21
def logicCols (f : Bool) : Nat := if f then 36 else 29
/-- Rows and columns of the field region. -/
def fieldRows (f : Bool) : Nat := if f then 8 else 6
def fieldCols (f : Bool) : Nat := if f then 32 else 20

/-- The letters of logic row i, counted from 1. -/
def logicRowName (i : Nat) : Option String :=
  ["A", "B", "C", "D", "E", "F", "G", "H", "J", "K", "L", "M", "N", "P", "T", "U", "V", "W", "Y",
   "AA", "AB", "AC", "AD", "AE", "AF"][i - 1]?

/-- The letters of field row i, counted from 1: FA lies nearest the gap. -/
def fieldRowName (i : Nat) : Option String := ["FA", "FB", "FC", "FD", "FE", "FF", "FG", "FH"][i - 1]?

/-! ## The field region (R427) -/

/-- The ball at row i and column j of the field region of F (Table 20-2). -/
def fieldBallF (i j : Nat) : Ball :=
  let n := (j - 1) / 2
  let first := j % 2 == 1
  match i with
  | 1 => .fio (j - 1)
  | 2 => if j ≤ 16 then .fio (j + 31) else if j ≤ 28 then .vfield ((j - 17) / 2) else .fgnd
  | 3 => if first then .gh n else .sw n
  | 4 => if first then .bst n else .gl n
  | 5 => if first then .isp n else .isn n
  | 7 =>
    if j ≤ 8 then .sc (j - 1) else if j = 11 then .motionEn else if j = 13 then .doorEn
    else if 17 ≤ j ∧ j ≤ 22 then .vgate else if 23 ≤ j ∧ j ≤ 26 then .vbridge else .fgnd
  | _ => .fgnd

/-- The ball at row i and column j of the field region of C (Table 20-3). -/
def fieldBallC (i j : Nat) : Ball :=
  let n := (j - 1) / 2
  let first := j % 2 == 1
  match i with
  | 1 => .fio (j - 1)
  | 2 =>
    if j ≤ 4 then .fio (j + 19) else if j ≤ 10 then .vfield ((j - 5) / 2) else if j ≤ 12 then .fgnd else .sc (j - 13)
  | 3 => if j = 17 then .motionEn else if j = 19 then .doorEn else if 16 < j then .fgnd else if first then .gh n else .sw n
  | 4 => if 18 < j then .vbridge else if 16 < j then .vgate else if first then .bst n else .gl n
  | 5 => if 16 < j then .fgnd else if first then .isp n else .isn n
  | _ => .fgnd

def fieldBall (f : Bool) (i j : Nat) : Ball := if f then fieldBallF i j else fieldBallC i j

/-- The field supply group that feeds an output (R359, R427). -/
def supplyGroup (n : Nat) : Nat := n / 8

/-! ## The logic region (R428, R429) -/

/-- A run of balls of Table 20-4 by its first column. -/
def ballRun (from_ : Nat) (l : List Ball) (j : Nat) : Option Ball := if from_ ≤ j then l[j - from_]? else none

def portBalls (b : Bool) : List Ball := (List.range 12).map (.port b)
def flashBalls : List Ball := (List.range 12).map .flash
def spiBalls (m : Nat) : List Ball := (List.range 5).map (.spi m)
def driveBalls : List Ball := [.drv 0, .drv 1, .gnd, .drv 2, .drv 3, .gnd, .drv 4, .drv 5]
def traceBalls : List Ball := (List.range 6).map .trace
def dbgBalls : List Ball := (List.range 4).map .dbg
def quadBalls (n : Nat) : List Ball := (List.range n).flatMap (fun c => (List.range 3).map (.q c))
def qoBalls : List Ball := (List.range 3).map .qo
def canBalls (n : Nat) : List Ball := (List.range n).flatMap (fun c => [.canTx c, .canRx c])

/-- Rows A to D of Table 20-4; none: a position the table does not name. -/
def tableBall (f : Bool) (i j : Nat) : Option Ball :=
  match f, i with
  | true, 1 => ballRun 1 ([.peTx 0 false, .peTx 0 true, .gnd, .peTx 1 false, .peTx 1 true, .gnd, .refclk false, .refclk true, .gnd,
      .vddPll, .vddPll, .gnd] ++ portBalls false ++ portBalls true) j
  | true, 2 => ballRun 1 ([.peRx 0 false, .peRx 0 true, .gnd, .peRx 1 false, .peRx 1 true, .gnd, .pePerstN, .peWakeN, .gnd,
      .porstN, .pfN, .devReady] ++ flashBalls ++ canBalls 4 ++ dbgBalls) j
  | true, 3 => ballRun 1 (quadBalls 8 ++ qoBalls ++ [.ssiClk 0, .ssiDat 0, .ssiClk 1, .ssiDat 1] ++ spiBalls 0) j
  | true, 4 => ballRun 1 (spiBalls 1 ++ driveBalls ++ traceBalls) j
  | false, 1 => ballRun 1 ([.peTx 0 false, .peTx 0 true, .gnd, .refclk false, .refclk true, .gnd, .vddPll, .vddPll, .gnd,
      .porstN, .pfN, .devReady, .pePerstN, .peWakeN, .gnd] ++ portBalls false) j
  | false, 2 => ballRun 1 ([.peRx 0 false, .peRx 0 true, .gnd] ++ portBalls true ++ flashBalls) j
  | false, 3 => ballRun 1 (quadBalls 4 ++ qoBalls ++ [.ssiClk 0, .ssiDat 0] ++ canBalls 2 ++ dbgBalls) j
  | false, 4 => ballRun 1 (spiBalls 0 ++ spiBalls 1 ++ driveBalls ++ traceBalls) j
  | _, _ => none

/-- The supplies and grounds that R429 assigns by row and column. -/
def ruleBall (f : Bool) (i j : Nat) : Ball :=
  let edge := if f then decide (j ≤ 6) || decide (31 ≤ j) else decide (j ≤ 5) || decide (25 ≤ j)
  let inner := if f then decide (j ≤ 10) || decide (27 ≤ j) else decide (j ≤ 8) || decide (22 ≤ j)
  if i = logicRows f ∨ (i + j) % 2 = 0 then .gnd else if edge then .vdd33 else if inner then .vdd18 else .vddCore

/-- The ball at row i and column j of the logic region. -/
def logicBall (f : Bool) (i j : Nat) : Ball := (tableBall f i j).getD (ruleBall f i j)

/-! ## Fused-off resources (02 R21, R25) -/

/-- The ball is bonded to no-connect: its resource is fused off in the part. -/
def Dev.noConnect (s : Dev) : Ball → Bool
  | .peTx l _ | .peRx l _ => decide (s.lanes ≤ l)
  | .q n _ => decide (s.quads ≤ n)
  | .ssiClk m | .ssiDat m => decide (s.ssis ≤ m)
  | .canTx n | .canRx n => decide (s.cans ≤ n)
  | .fio n => decide (s.fios ≤ n)
  | .gh n | .sw n | .bst n | .gl n | .isp n | .isn n => !s.hasBridge n
  | _ => false

end Sys2Proof.Machine
end

