-- ==== Sys2Proof/WellFormed.lean ====
section
/-! DEFINITION. Which commands are well formed: the operands a sender can send. -/
namespace Sys2Proof

/-- `x` has at most `n` bits. -/
def below (n x : Nat) : Bool := decide (x < 2 ^ n)

/-- A descriptor names one of 96 queue pairs and has sixteen words (15 Table 15-3). -/
def Desc.wf (d : Desc) : Bool := decide (d.qp < 96) && d.words.length == 16

/-- An identifier of 29 bits, a byte of flags and at most 64 data bytes (11 Table 11-5). -/
def CanFrame.wf (f : CanFrame) : Bool := below 29 f.id && below 8 f.flags && decide (f.data.length ≤ 64)

/-- An access of `size` bytes lies in the space of `len` bytes at `base`. -/
def inSpace (base len off size : Nat) : Bool := decide (base ≤ off) && decide (off + size ≤ base + len)

/-- An access of 1 to 8 bytes inside the 64 KiB of BAR0, the 16 KiB of BAR2 or the 4 KiB of the configuration space, at
the places the rows give them (15 R330, R331, 19 R415, R416; log entry 42). -/
def hostSpaceOk (off size : Nat) : Bool :=
  decide (1 ≤ size) && decide (size ≤ 8) && (inSpace 0 0x10000 off size || inSpace 0x10000 0x4000 off size || inSpace 0x20000 0x1000 off size)

/-- One or two lanes at 2.5, 5.0 or 8.0 GT/s (15 R330). -/
def linkOk (width rate : Nat) : Bool := (width == 1 || width == 2) && decide (1 ≤ rate) && decide (rate ≤ 3)

/-- Identities and times of 64 bits, 16 bits of steps removed (IEEE 802.1AS, 11 R262). -/
def PtpBody.wf : PtpBody → Bool
  | .announce v => below 64 v.gm && below 16 v.steps && below 64 v.source && below 16 v.port
  | .sync source => below 64 source
  | .followUp source origin _ => below 64 source && below 64 origin
  | .pdelayReq source => below 64 source
  | .pdelayResp source receipt => below 64 source && below 64 receipt
  | .pdelayRespFollowUp source origin => below 64 source && below 64 origin

/-- Five package versions of 24 bits: clusters 0-3 and Monarch (18 Table 18-4). -/
def pkgsOk (pkg : List Nat) : Bool := pkg.length == 5 && pkg.all (below 24)

/-- A command is well formed. -/
def Instr.wf : Instr → Bool
  | .registerWrite off size _ queued => hostSpaceOk off size && queued.all (·.wf)
  | .loRegisterCapture a => hostSpaceOk a.off a.size
  | .ssiFrameComplete _ _ _ pos stat _ => below 32 pos && below 4 stat
  | .count _ _ _ => true
  | .indexCheck _ => true
  | .indexGoesActive _ => true
  | .zeroSpeedTimeout _ => true
  | .pfiQcfgWrite _ _ => true
  | .pfiScfgWrite _ _ => true
  | .pfiRead d => d.wf
  | .pfiSetPos d => d.wf
  | .pfiCmpArm d => d.wf
  | .pfiCmpDisarm d => d.wf
  | .pfiClear d => d.wf
  | .pfiLatch d => d.wf
  | .cpfPeriod => true
  | .trackReadmitted => true
  | .revalidation => true
  | .autoCorrectionStart => true
  | .learnRunComplete => true
  | .learnPassTimeout => true
  | .correctionRunComplete => true
  | .cpfCfgWrite _ => true
  | .cpfRead d => d.wf
  | .cpfSetLoad d => d.wf
  | .cpfLearn d => d.wf
  | .cpfCorrect d => d.wf
  | .cpfTableRead d => d.wf
  | .cpfTableWrite d _ => d.wf
  | .cpfTableCommit d => d.wf
  | .msqProfileStep => true
  | .hoistDwellEnd => true
  | .hoistStartTimeout => true
  | .hoistStopTimeout => true
  | .relevelStart => true
  | .drvSetpointFrame => true
  | .drvStatusFrame _ _ => true
  | .drvStatusWindowExpiry => true
  | .drvHelloAck _ _ => true
  | .drvNegotiationTimeout => true
  | .drvEnableTimeout => true
  | .drvFaultResetTimeout => true
  | .msqHEnable d => d.wf
  | .msqHDisable d => d.wf
  | .msqHGoto d => d.wf
  | .msqHSpeed d => d.wf
  | .msqHStop d => d.wf
  | .msqHRead d => d.wf
  | .drvFaultReset d => d.wf
  | .drvRead d => d.wf
  | .msqDoorStep => true
  | .commutationStep _ => true
  | .doorLimiterEvaluation _ => true
  | .quietModeEntry _ => true
  | .homeReferenceDone _ => true
  | .alignDone _ => true
  | .doorMotionTimeout _ => true
  | .camCheckComplete _ _ => true
  | .msqDEnable d => d.wf
  | .msqDDisable d => d.wf
  | .msqDOpen d => d.wf
  | .msqDClose d => d.wf
  | .msqDGoto d => d.wf
  | .msqDStop d => d.wf
  | .msqDCamLoad d _ => d.wf
  | .msqDSineLoad d _ => d.wf
  | .msqDRead d => d.wf
  | .msqBSet d => d.wf
  | .framePhaseZero => true
  | .lpeParamWrite d _ => d.wf
  | .lpeCommit d => d.wf
  | .lpeHandover d => d.wf
  | .lpeRead d => d.wf
  | .lpeTableLoad d _ => d.wf
  | .hwkEvaluation => true
  | .hwkCocoonEvaluation => true
  | .hwkSpeedUpdate => true
  | .hwkQ1Count _ _ => true
  | .hwkClockCheck _ => true
  | .hwkSpeedCauseRelease => true
  | .hwkParkStart => true
  | .enableTimebaseEdge => true
  | .enableReadback _ _ => true
  | .hwkLock _ => true
  | .hwkRecordDelivery => true
  | .hawkmothOscillatorStop _ => true
  | .hwkRulesLoad d _ => d.wf
  | .hwkStatus d => d.wf
  | .hwkRulesRead d => d.wf
  | .monApplyCall => true
  | .monApplyCancel => true
  | .monApplyCarStatus => true
  | .monApplyTick => true
  | .monEvaluationComplete => true
  | .monCall d => d.wf
  | .monCancel d => d.wf
  | .monCarMode d => d.wf
  | .monTripRead d => d.wf
  | .monCarRead d => d.wf
  | .monFttLoad d _ => d.wf
  | .monConfigLoad d _ => d.wf
  | .monConfigCommit d => d.wf
  | .monCarDoors d => d.wf
  | .heartbeatSend => true
  | .heartbeatReceived => true
  | .eventRecordReceived => true
  | .gapRetx _ => true
  | .retxReceived => true
  | .grpPeerLost _ => true
  | .flushReceived => true
  | .flushWaitExpiry => true
  | .epochStartReceived => true
  | .epochStartApply => true
  | .epochStartTimeout => true
  | .cutTimeout => true
  | .snapReceived => true
  | .grpSnapshotDone => true
  | .installTimeout => true
  | .groupFormation => true
  | .localCommit => true
  | .grpConfig d => d.wf
  | .grpJoin d => d.wf
  | .grpLeave d => d.wf
  | .grpStatus d => d.wf
  | .grpSnapshotRead d => d.wf
  | .portLinkChange _ _ _ speed => decide (speed ≤ 2)
  | .portRecovery _ => true
  | .groupFrameCopyReceived _ _ _ => true
  | .skewWindowClose _ => true
  | .senderForget _ => true
  | .ptpMessageReceived _ domain seq _ body sfd => below 8 domain && below 16 seq && body.wf && below 64 sfd
  | .ptpSyncSend => true
  | .hostFrameReceived _ _ _ => true
  | .hostFrameStart => true
  | .canFrameReceived _ f _ _ => f.wf
  | .canTxAttemptEnd _ _ _ _ => true
  | .canBusoffRecovery _ => true
  | .spiPeriod _ => true
  | .spiTransactionsComplete _ _ => true
  | .stlCfgWrite _ => true
  | .canCfgWrite _ _ => true
  | .spiCfgWrite _ _ => true
  | .stlTx d _ => d.wf
  | .stlRx d => d.wf
  | .stlStatus d => d.wf
  | .canTx d _ => d.wf
  | .canRx d => d.wf
  | .canRecover d => d.wf
  | .spiProg d _ => d.wf
  | .spiRead d => d.wf
  | .dutyRelease _ => true
  | .arbiterCopyCommit => true
  | .dutyDeadline _ => true
  | .reexecutionComplete _ _ _ => true
  | .engFault _ cause _ => decide (1 ≤ cause) && decide (cause ≤ 5)
  | .tlgOverrun _ _ => true
  | .clusterUpComplete _ => true
  | .engStatus d => d.wf
  | .engClusterDown d => d.wf
  | .engClusterUp d => d.wf
  | .engRestart d _ => d.wf
  | .vNop _ => true
  | .vLoop _ _ len n => len != 0 && n != 0
  | .vEnd _ => true
  | .vLdi _ _ _ => true
  | .vLdih _ _ _ => true
  | .vLda _ _ _ _ _ => true
  | .vMva _ _ _ _ _ => true
  | .vMov _ _ _ => true
  | .vSel _ _ _ _ _ => true
  | .vLd _ _ _ => true
  | .vSt _ _ _ => true
  | .vLd2 _ _ _ _ _ => true
  | .vSta _ _ _ _ => true
  | .vAdd _ _ _ _ _ => true
  | .vSub _ _ _ _ _ => true
  | .vNeg _ _ _ _ => true
  | .vAbs _ _ _ _ => true
  | .vAnd _ _ _ _ => true
  | .vOr _ _ _ _ => true
  | .vXor _ _ _ _ => true
  | .vShl _ _ _ _ _ => true
  | .vShr _ _ _ _ => true
  | .vCmp _ _ _ => true
  | .vMin _ _ _ _ => true
  | .vMax _ _ _ _ => true
  | .vAddi _ _ _ _ _ => true
  | .vMac _ _ _ _ _ _ => true
  | .vMac2 _ _ _ _ _ _ _ _ => true
  | .vDmac _ _ _ _ _ _ _ _ _ => true
  | .vMacm _ _ _ _ _ _ => true
  | .vTapx _ _ _ _ _ _ _ _ _ _ => true
  | .vAdda _ _ _ _ => true
  | .vAccld _ _ _ _ => true
  | .vAsh _ _ _ => true
  | .vRda _ _ _ _ _ => true
  | .vRdesr _ _ => true
  | .vWresr _ _ _ _ => true
  | .krnLoad d _ => d.wf
  | .krnUnload d => d.wf
  | .krnRead d => d.wf
  | .ledgerAnalysisComplete => true
  | .tlgCommit => true
  | .tlgConfig d _ => d.wf
  | .tlgCheck d _ => d.wf
  | .tlgRead d => d.wf
  | .tlgMigrate d => d.wf
  | .tlgList d => d.wf
  | .descriptorDispatch heads => heads.all (·.wf)
  | .sqTail _ _ => true
  | .cqHead _ _ => true
  | .eqHead _ _ => true
  | .msixModerationTimeout _ => true
  | .msixUnmask _ addr _ => below 64 addr
  | .hiuCreditRelease _ => true
  | .hiuAqCtrlWrite _ queued => queued.all (·.wf)
  | .qpDrainComplete _ => true
  | .hostSideReset => true
  | .hiuLink up width rate => !up || linkOk width rate
  | .pcieDStateChange _ => true
  | .hiuHello d => d.wf
  | .hiuIdentify d => d.wf
  | .hiuQpConfig d => d.wf
  | .hiuQpEnable d => d.wf
  | .hiuQpDisable d queued => d.wf && queued.all (·.wf)
  | .hiuAbort d queued => d.wf && queued.all (·.wf)
  | .hiuQpStatus d => d.wf
  | .fieldInputSample _ _ _ _ => true
  | .outputThermalShutdown _ _ => true
  | .groupOvercurrent _ _ => true
  | .channelTurningEnd _ => true
  | .cocWatchdog => true
  | .vfieldMeasurement _ => true
  | .bridgeSupplyMeasurement _ _ boot => boot.length == 16
  | .cocoonPowerLoss => true
  | .cocoonStart => true
  | .cocCalib _ _ => true
  | .tapSample _ _ => true
  | .tapDcWindowEnd _ => true
  | .tapAcTimeout _ => true
  | .currentCellDecision _ _ => true
  | .blindPhaseTimeout _ => true
  | .linkSlotStart own _ => own.length == 16
  | .cocoonDownstreamFrameAccepted => true
  | .cocoonUpstreamFrameAccepted => true
  | .linkSlotMissed _ => true
  | .linkTrainingStart => true
  | .linkTrainingComplete => true
  | .cocChConfig d => d.wf
  | .cocOutSet d => d.wf
  | .cocClear d => d.wf
  | .cocRelease d => d.wf
  | .cocRead d => d.wf
  | .porstNLow => true
  | .porstNRelease _ _ => true
  | .supplyReset _ => true
  | .supplyMonitorRelease _ _ _ => true
  | .pmuPowerFail _ _ _ => true
  | .pmuPowerOk _ => true
  | .pllLockLost => true
  | .pllRelockRelease _ _ => true
  | .rootPllLock => true
  | .powerTargetChange => true
  | .powerEntryDelayExpiry _ => true
  | .powerStateEntry => true
  | .pmuState => true
  | .pmuWake source _ => decide (1 ≤ source) && decide (source ≤ 10)
  | .pmuTimerExpiry => true
  | .firmwareLoadComplete okA okB pkg => below 5 okA && below 5 okB && pkgsOk pkg
  | .devReady => true
  | .pmuReset d => d.wf
  | .pmuResetDelayExpiry _ _ => true
  | .pmuStatus d => d.wf
  | .chrMount _ _ _ _ => true
  | .chrPeriodExpiry => true
  | .chrCommitted => true
  | .updActivated => true
  | .trialTimeout _ => true
  | .chrRead d => d.wf
  | .chrCommit d => d.wf
  | .updWrite d _ => d.wf
  | .updVerify d _ => d.wf
  | .updActivate d => d.wf
  | .updConfirm d => d.wf
  | .updRollback d => d.wf

end Sys2Proof
end

