-- ==== Sys2Proof/Tests/Slice0.lean ====
section
/-! SUPPORT. Small checks of the model: witnesses that the hypotheses of each statement can be met, one ill-formed term
for each check of WellFormed, and single commands against worked values of the spec. -/
namespace Sys2Proof.Tests
open Sys2Proof Sys2Proof.Machine

set_option maxRecDepth 100000

/-- A descriptor of queue pair 0 with these words first. -/
def dsc (w : List Word) : Desc := ⟨0, w, 0⟩
/-- The block with a command dispatched now and in flight. -/
def fly (d : Desc) (s : Dev) : Dev := { s with hiu := { s.hiu with inFlight := s.hiu.inFlight ++ [⟨d, s.dt⟩] } }
/-- The block with its part running: every domain on, an engine in service, start-up done, a command of words 0 in
flight. -/
def on : Dev := fly (dsc [])
  { Dev.reset with
    pmu := { Pmu.reset with held := 0, locked := true, loaded := true, ready := true, pwr := 0xFFF, stage := 9 }
    eng := { Eng.reset with pwr := 15, engines := [(0, { Engine.reset with state := 1 })] } }
/-- The block with a register's word, and with fields of one record. -/
def reg (off : Nat) (w : Word) (d : Dev) : Dev := d.setReg off w

/-! ## Position feedback (03) -/

def q0on : Dev := reg (Reg.pfiQcfg 0) 0x10001 on
def q0index : Dev := q0on.setChan 0 { Chan.reset with idxActive := true, idxTaken := true, qz := true }
def q0filt : Dev := reg (Reg.pfiQcfg 0) 0x10021 on
def q0edge : Dev := { q0on.setChan 0 { Chan.reset with edges := [(0, 1)] } with dt := 255000000 }
def ssiRead : Dev := on.setSsi 0 { Ssi.reset with reading := some 5 }

theorem witness_CountMovesRawByOne : ∃ (n : Fin 8) (a b : Bool) (s : Dev), s.powered 6 = true ∧ s.qEnabled n = true ∧
    quadStep (s.chan n).qa (s.chan n).qb a b ≠ 0 ∧ ((s.chan n).qa ≠ a → s.filt n ≤ (s.chan n).runA + 1) ∧
    ((s.chan n).qb ≠ b → s.filt n ≤ (s.chan n).runB + 1) := ⟨0, true, false, q0on, by decide⟩
theorem witness_CountFilters : (∃ (n : Fin 8) (s : Dev), s.powered 6 = true ∧ (s.chan n).runA + 1 < s.filt n ∧
    (s.chan n).runB + 1 < s.filt n) ∧ (∃ s : Dev, s.powered 6 = true) := ⟨⟨0, q0filt, by decide⟩, ⟨on, by decide⟩⟩
theorem witness_CountUndetermined : ∃ (n : Fin 8) (a b : Bool) (s : Dev), s.powered 6 = true ∧ s.qEnabled n = true ∧
    (s.chan n).qa ≠ a ∧ (s.chan n).qb ≠ b ∧ s.filt n ≤ (s.chan n).runA + 1 ∧ s.filt n ≤ (s.chan n).runB + 1 :=
  ⟨0, true, true, q0on, by decide⟩
theorem witness_PfiRowsComplete_PfiEvents :
    (∃ (n : Fin 8) (z : Bool) (s : Dev), s.powered 6 = true ∧ z = s.idxLevel n ∧ (s.chan n).qz ≠ z ∧
      s.filt n ≤ (s.chan n).runZ + 1 ∧ (s.chan n).idxActive = false) ∧
    (∃ (n : Fin 8) (z : Bool) (s : Dev), s.powered 6 = true ∧ z = (!s.idxLevel n) ∧ (s.chan n).qz ≠ z ∧
      s.filt n ≤ (s.chan n).runZ + 1 ∧ (s.chan n).idxActive = true) ∧
    (∃ (n : Fin 8) (s : Dev) (e : Nat × BitVec 48) (l : List (Nat × BitVec 48)), s.powered 6 = true ∧
      (s.chan n).edges = e :: l ∧ s.qEnabled n = true ∧ s.fld (Reg.pfiQest n) 15 8 * 1000000 ≤ s.dt - e.1) ∧
    (∃ (m : Fin 2) (idle start par : Bool) (pos stat ts : Nat) (s : Dev), s.powered 6 = true ∧
      (s.ssi m).reading = some ts ∧ s.ssiFailure m idle start pos stat par = none ∧ (s.ssi m).fail = false) :=
  ⟨⟨0, true, q0on, by decide⟩, ⟨0, false, q0index, by decide⟩, ⟨0, q0edge, (0, 1), [], by decide⟩,
   ⟨0, true, true, false, 0, 0, 5, ssiRead, by decide⟩⟩
theorem witness_PfiRowsComplete_PfiConfigWrites :
    (∃ (n : Fin 8) (v : Word) (s : Dev), s.powered 7 = true ∧ s.hiu.d3hot = false ∧ (n : Nat) < s.quads ∧
      s.bit (Reg.pfiQcfg n) 0 = false ∧ bitOf v 0 = false ∧
      bitsOf (writeBits (s.reg (Reg.pfiQcfg n)) v 0x3F1FF7 0) 19 16 ≠ 0) ∧
    (∃ (m : Fin 2) (v : Word) (s : Dev), s.powered 7 = true ∧ s.hiu.d3hot = false ∧ (m : Nat) < s.ssis ∧
      s.bit (Reg.pfiScfg m) 0 = false ∧ bitOf v 0 = false ∧
      bitOf (writeBits (s.reg (Reg.pfiScfg m)) v 0x3F1F03 0) 0 = false ∧
      7 ≤ bitsOf (writeBits (s.reg (Reg.pfiScfg m)) v 0x3F1F03 0) 12 8 ∧
      bitsOf (writeBits (s.reg (Reg.pfiScfg m)) v 0x3F1F03 0) 19 16 ≤ 4) :=
  ⟨⟨7, 0x10000, on, by decide⟩, ⟨1, 0x40700, on, by decide⟩⟩
theorem witness_PfiRowsComplete_PfiCommands :
    (∃ (d : Desc) (s : Dev), s.powered 6 = true ∧ s.isInFlight d = true ∧ s.pfiEdge d ≤ s.dt ∧ s.pfiCheck d true = none ∧
      s.pfiCheck d false = none ∧ pfiCh d < 8 ∧ pfiSlot d < slotCount (pfiCh d) ∧
      s.maskAbsent (bitsOf (d.w 4) 25 16) = false ∧ bitsOf (d.w 4) 1 0 ≠ 3 ∧
      Nat.land (d.w 4).toNat 0xFC00F080 = 0 ∧ s.armReserved d = false ∧ (s.chan (pfiCh d)).dirNeg = false ∧
      (s.chan (pfiCh d)).u < sWord (d.w 3)) ∧
    (∃ (d : Desc) (s : Dev) (m : Fin 2), s.powered 6 = true ∧ s.isInFlight d = true ∧ s.pfiEdge d ≤ s.dt ∧
      pfiCh d = 0x10 + m ∧ s.pfiCheck d false = none) ∧
    (∃ (d : Desc) (s : Dev), s.powered 6 = true ∧ s.isInFlight d = true ∧ s.pfiEdge d ≤ s.dt ∧
      s.maskAbsent (bitsOf (d.w 3) 9 0) = false ∧ d.object = 0 ∧ bitsOf (d.w 3) 31 10 = 0) :=
  ⟨⟨dsc [0, 0, 0x1F00, 1], { fly (dsc [0, 0, 0x1F00, 1]) q0on with dt := 1000 }, by decide⟩, ⟨dsc [0, 0, 0x10], { reg (Reg.pfiScfg 0) 0x1901 on with dt := 1000 }, 0, by decide⟩,
   ⟨dsc [0, 0, 0, 1], { fly (dsc [0, 0, 0, 1]) q0on with dt := 1000 }, by decide⟩⟩

/-! ## Car position fusion (04) -/

def oneLanding : LandingTable := ⟨7, 0, 1000000, 0, 0, 0, 0, [⟨100000, 0, 200000, 0, 0⟩]⟩
/-- CPF with CPF_CFG in force. -/
def cpfOf (w : Word) (d : Dev) : Dev := (reg Reg.cpfCfg w d).forceCpf
def cpfOn : Dev := cpfOf 1 on
def learnRun : CpfRun := { Cpf.reset.newRun true none 1 with forceTerminal := false }
def posRec : StoredPos := let p : StoredPos := ⟨1, 0, 100, 0, 7, 0, 0⟩; { p with crc := (crc32 p.bytes).toNat }
/-- CPF with its record changed, and the permits and levels a run needs. -/
def cpfWith (d : Dev) (f : Cpf → Cpf) : Dev :=
  (d.setCpf f).setHwk (fun g => { g with both := ⟨true, false, false⟩ })

theorem witness_CpfPeriodRuns : ∃ s : Dev, s.powered 6 = true ∧ s.cpfRuns = true ∧ s.cpfEnabled = true ∧
    s.cpf.waitLoad = [] ∧ s.cpf.waitCommit = [] ∧ s.cpf.waitCorrect = [] ∧
    s.forceCpf.computeTracks.periodVote.1.cpf.zoneEdges = [] ∧ s.forceCpf.computeTracks.periodVote.1.estimate.cpf.run = none :=
  ⟨cpfOn, by decide, by decide, by decide, by decide, by decide, by decide, by decide, by decide⟩

def tsOut : Dev := on.setCpf (fun c => { c with ts := { c.ts with excluded := true }, tsWithin := 40 })
def tapeAt (x : Int) : Dev :=
  (cpfWith (cpfOf 3 (reg Reg.cpfReval 10 on)) (fun c => { c with
    stored := some posRec, table := some oneLanding })).setSsi 0 { Ssi.reset with goods := 3, good := some ⟨x, 0⟩ }
def corrReady : Dev := cpfWith (cpfOf 0x21 on) (fun c => { c with state := .lost, table := some oneLanding })
def learned (r : CpfRun) : Dev :=
  cpfWith cpfOn (fun c => { c with x := 100000, staged := some oneLanding, table := some oneLanding, run := some r })

theorem witness_CpfRowsComplete_CpfEvents :
    (∃ s : Dev, s.powered 6 = true ∧ s.cpfRuns = true ∧ s.cpf.ts.excluded = true ∧ 40 ≤ s.cpf.tsWithin) ∧
    (∃ (s : Dev) (p : StoredPos) (t : LandingTable), s.powered 6 = true ∧ s.cpfRuns = true ∧ s.cpfEnabled = true ∧
      s.cpf.state = .unreferenced ∧ s.cpf.revalDone = false ∧ s.cpf.record = some p ∧ s.cpf.table = some t ∧ p.gen = t.gen ∧
      s.tape = true ∧ 3 ≤ (s.ssi 0).goods ∧ Machine.dist s.tsNow p.x ≤ s.cfld Reg.cpfReval 31 0) ∧
    (∃ s : Dev, s.powered 6 = true ∧ s.cpfRuns = true ∧ s.cpfEnabled = true ∧ s.cpf.table.isSome = true ∧
      s.cbit Reg.cpfCfg 5 = true ∧ s.atRest = true ∧ s.hoistBusy = false ∧ s.motionGranted = true ∧ s.locksClosed = true ∧
      (s.cpf.state = .suspect ∨ s.cpf.state = .lost)) ∧
    (∃ (s : Dev) (r : CpfRun) (t : LandingTable), s.powered 6 = true ∧ s.cpfRuns = true ∧ s.cpf.run = some r ∧
      r.learning = true ∧ r.abort = none ∧ r.step = 5 ∧ s.levelledAt s.cpf.staged r.landing = true ∧ s.cpf.staged = some t) ∧
    (∃ (s : Dev) (r : CpfRun), s.powered 6 = true ∧ s.cpfRuns = true ∧ s.cpf.run = some r ∧ r.learning = true ∧ r.step ≤ 3 ∧
      r.passStart + s.passLimit ≤ s.dt) ∧
    (∃ (s : Dev) (r : CpfRun), s.powered 6 = true ∧ s.cpfRuns = true ∧ s.cpf.run = some r ∧ r.learning = false ∧
      r.abort = none ∧ r.step = 4 ∧ r.accepted = true ∧ s.levelledAt s.cpf.table r.landing = true) :=
  ⟨⟨tsOut, by decide⟩, ⟨tapeAt 0, posRec, oneLanding, by decide +kernel⟩, ⟨corrReady, by decide⟩,
   ⟨learned { learnRun with step := 5 }, { learnRun with step := 5 }, oneLanding, by decide⟩,
   ⟨{ learned { learnRun with step := 3 } with dt := cpfOn.passLimit }, { learnRun with step := 3 }, by decide⟩,
   ⟨learned { learnRun with step := 4, learning := false, accepted := true },
    { learnRun with step := 4, learning := false, accepted := true }, by decide⟩⟩

theorem tableParses : parseTable (tableImage oneLanding) = some oneLanding := by decide +kernel

def learnReady : Dev :=
  cpfWith (cpfOf 1 (reg Reg.cpfDzin 0x02010000 (reg Reg.cpfLearn 50 on))) (fun c => { c with
    staged := some oneLanding, table := some oneLanding })

theorem witness_CpfRowsComplete_CpfCommands :
    (∃ (s : Dev) (d : Desc) (t : LandingTable), s.powered 6 = true ∧ s.cpfRuns = true ∧ s.isInFlight d = true ∧ d.object = 0 ∧
      bitsOf (d.w 3) 31 16 = 0 ∧ s.cpf.staged = some t ∧ (d.w 3).toNat = t.gen ∧ s.atRest = true) ∧
    (∃ (s : Dev) (d : Desc), s.powered 6 = true ∧ s.cpfRuns = true ∧ s.isInFlight d = true ∧ d.object = 0 ∧ bitsOf (d.w 3) 31 1 = 0 ∧
      s.cpfEnabled = true) ∧
    (∃ (s : Dev) (d : Desc), s.powered 6 = true ∧ s.cpfRuns = true ∧ s.isInFlight d = true ∧ d.object = 0 ∧
      1 ≤ bitsOf (d.w 3) 8 0 ∧ bitsOf (d.w 3) 8 0 ≤ 256 ∧ (d.w 3).toNat &&& 0xFFFEFE00 = 0 ∧ s.cpfEnabled = true ∧
      bitsOf (s.creg Reg.cpfDzin) 7 0 ≠ 0xFF ∧ bitsOf (s.creg Reg.cpfDzin) 23 16 ≠ 0xFF ∧
      bitsOf (s.creg Reg.cpfDzin) 31 24 ≠ 0xFF ∧ 50000 ≤ s.learnSpeed ∧ s.learnSpeed ≤ 1000000 ∧ s.atRest = true ∧
      s.hoistBusy = false ∧ (s.cpf.state = .valid ∨ s.cpf.state = .degraded ∨ s.cpf.state = .unreferenced) ∧
      s.motionGranted = true ∧ s.locksClosed = true) ∧
    (∃ (s : Dev) (d : Desc) (t : LandingTable), s.powered 6 = true ∧ s.cpfRuns = true ∧ s.isInFlight d = true ∧ d.object = 0 ∧ bitsOf (d.w 5) 31 1 = 0 ∧
      (if bitOf (d.w 5) 0 then s.cpf.staged else s.cpf.table) = some t ∧
      s.addrOk d (d.w64 3) (tableImage t).length = true) ∧
    (∃ (s : Dev) (d : Desc) (img : HostBytes) (t : LandingTable), s.powered 6 = true ∧ s.cpfRuns = true ∧ s.isInFlight d = true ∧ d.object = 0 ∧
      s.hiu.d3hot = false ∧ s.isLocal d = false ∧ (s.charge d.qp img.length).isLocal d = false ∧ (s.charge d.qp img.length).cpf = s.cpf ∧
      parseTable img = some t ∧ entriesOrdered t.entries = true ∧ t.gen = (s.cpf.table.map (·.gen)).getD 0) ∧
    (∃ (s : Dev) (d : Desc) (v : Word), s.powered 6 = true ∧ s.cpfRuns = true ∧ s.isInFlight d = true ∧ d.object = 0 ∧ s.powered 7 = true ∧ s.hiu.d3hot = false ∧
      s.cpfEnabled = false ∧ bitOf v 0 = false) :=
  ⟨⟨learnReady, dsc [0, 0, 0, 7], oneLanding, by decide⟩, ⟨learnReady, dsc [], by decide⟩,
   ⟨learnReady, dsc [0, 0, 0, 256], by decide⟩, ⟨learnReady, dsc [], oneLanding, by decide⟩,
   ⟨learnReady, dsc [], tableImage oneLanding, oneLanding, by decide, by decide, by decide, by decide, by decide, by decide, by decide, by decide,
    tableParses, by decide, by decide⟩,
   ⟨on, dsc [], 0x3E, by decide⟩⟩

/-! ## Hoist motion and the Drive Port (05) -/

def gotoHalf : HMotion := { interimMotion 0 0 500000 false with kind := .goto }
def hoistWith (f : Hoist → Hoist) : Dev :=
  ({ on with drv := { Drv.reset with linkUp := true } } : Dev).setHwk (fun g => { g with both := ⟨true, false, false⟩ })
    |>.setHoist f
def travelling : Dev := hoistWith (fun h => { h with
  phase := .travel, active := some gotoHalf, plan := some ⟨0, ⟨0, 0, 0⟩, [⟨1000, 1000000⟩], some 500000, 0⟩ })

theorem witness_HoistStepTakesSample : ∃ (s : Dev) (m : HMotion) (p : Plan) (x : Int), s.powered 6 = true ∧
    s.hoist.phase = .travel ∧ s.hoist.active = some m ∧ m.kind = .goto ∧ m.target = some x ∧ s.hoist.plan = some p ∧
    s.invBit 3 = false ∧ s.drv.linkUp = true ∧ s.motionGranted = true ∧ s.hoist.lastCpf = s.cpf.state ∧ s.cpf.run = none ∧
    s.hoist.waiting = [] ∧ s.hoist.aborts = [] ∧ s.hoist.levelled = none ∧ (p.at_ (s.cpf.tk + 250000)).2 = false :=
  ⟨travelling, gotoHalf, ⟨0, ⟨0, 0, 0⟩, [⟨1000, 1000000⟩], some 500000, 0⟩, 500000, by decide⟩

def after (t : Nat) (d : Dev) : Dev := { d with dt := t }

theorem witness_HoistRowsComplete_HoistEvents :
    (∃ s : Dev, s.powered 6 = true ∧ s.hoist.phase = .dwell ∧ s.hoist.since + s.hDwell ≤ s.dt) ∧
    (∃ (s : Dev) (m : HMotion), s.powered 6 = true ∧ s.hoist.active = some m ∧
      (s.hoist.phase = .waitReady ∨ s.hoist.phase = .waitBrake) ∧ s.hoist.since + s.hStartTo ≤ s.dt) ∧
    (∃ s : Dev, s.powered 6 = true ∧ s.hoist.phase = .settle ∧ s.hoist.since + s.hStopTo ≤ s.dt) ∧
    (∃ (s : Dev) (l deck : Nat) (x : Int) (t : Nat), s.powered 6 = true ∧ s.hoist.levelled = some (l, deck, x) ∧
      s.hoist.offSince = some t ∧ bitOf (s.hreg Reg.msqHcfg) 1 = true ∧ s.hoist.phase = .rest ∧ s.hoist.active = none ∧
      s.hoist.faultHeld = false ∧ t + s.hfld Reg.msqHrelevt 15 0 * 1000000 ≤ s.dt ∧ s.cpfFit = true) :=
  ⟨⟨after 70000000000 (hoistWith (fun h => { h with phase := .dwell })), by decide⟩,
   ⟨after 70000000000 (hoistWith (fun h => { h with phase := .waitBrake, active := some gotoHalf })), gotoHalf, by decide⟩,
   ⟨after 70000000000 (hoistWith (fun h => { h with phase := .settle })), by decide⟩,
   ⟨after 70000000000 (((reg Reg.msqHcfg 2 (hoistWith (fun h => { h with
      levelled := some (0, 0, 100000), offSince := some 0 }))).forceStep).setCpf (fun c => { c with state := .valid })), 0, 0, 100000, 0, by decide⟩⟩

def hoistReady : Dev :=
  reg Reg.cpfCfg 1 (reg Reg.msqHvlimhi 100000000 (reg Reg.msqHvmax 10000000 (reg Reg.msqHamax 1000000 (reg Reg.msqHjmax 1000000 on))))

theorem witness_HoistRowsComplete_HoistCommands :
    (∃ (s : Dev) (d : Desc), s.powered 6 = true ∧ s.powered 8 = true ∧ s.isInFlight d = true ∧ d.object = 0 ∧ bitsOf (d.w 3) 31 1 = 0 ∧
      bitsOf (d.w 4) 31 1 = 0 ∧ s.drv.resetDesc = none) ∧
    (∃ (s : Dev) (d : Desc), s.powered 6 = true ∧ s.powered 8 = true ∧ s.isInFlight d = true ∧ d.object = 0 ∧ bitsOf (d.w 3) 31 18 = 0 ∧
      bitsOf (d.w 3) 15 0 = 0xFFFF ∧ (bitsOf (d.w 3) 16 16 = 1 → s.cbit Reg.cpfCfg 2 = true)) ∧
    (∃ (s : Dev) (d : Desc), s.powered 6 = true ∧ s.powered 8 = true ∧ s.isInFlight d = true ∧ d.object = 0 ∧ bitsOf (d.w 3) 31 18 = 0 ∧
      s.landingTarget (bitsOf (d.w 3) 15 0) (bitsOf (d.w 3) 16 16) ≠ none ∧
      (bitsOf (d.w 3) 16 16 = 1 → s.cbit Reg.cpfCfg 2 = true)) ∧
    (∃ (s : Dev) (d : Desc), s.powered 6 = true ∧ s.powered 8 = true ∧ s.isInFlight d = true ∧ d.object = 0 ∧ d.opcode = 0x0401 ∧
      s.fld Reg.msqHvmax 31 0 ≠ 0 ∧ s.hA ≠ 0 ∧ s.hJ ≠ 0 ∧ s.nextLo < s.nextHi ∧ s.cpfEnabled = true ∧
      s.hoist.enabled = false ∧ s.drv.running = false ∧ s.hoistAdmissible = true) ∧
    (∃ (s : Dev) (d : Desc), s.powered 6 = true ∧ s.powered 8 = true ∧ s.isInFlight d = true ∧ d.object = 0 ∧
      d.opcode = 0x0406) :=
  ⟨⟨on, dsc [], by decide⟩, ⟨on, dsc [0, 0, 0, 0xFFFF], by decide⟩,
   ⟨on.setCpf (fun c => { c with table := some oneLanding }), dsc [], by decide⟩, ⟨hoistReady, dsc [0x0401], by decide⟩, ⟨on, dsc [0x0406], by decide⟩⟩

def withCrc (b : List Byte) : List Byte := b ++ leBytes 2 (crc16 b).toNat
def drvWith (f : Drv → Drv) : Dev := on.setDrv f
def statusV1 (seq : Byte) : List Byte := withCrc [0xD5, 1, seq, 0, 0, 0, 0, 0, 0, 0]

theorem witness_DriveFramesComplete :
    (∃ s : Dev, s.powered 8 = true ∧ s.drv.running = true ∧
      s.cpf.tk + clampN 205 245 (s.fld Reg.drvTxph 7 0) * 1000 ≤ s.dt ∧ s.drv.sentFor ≠ some s.cpf.tk ∧ s.drv.hellos = none) ∧
    (∃ (s : Dev) (n : Nat), s.powered 8 = true ∧ s.drv.running = true ∧
      s.cpf.tk + clampN 205 245 (s.fld Reg.drvTxph 7 0) * 1000 ≤ s.dt ∧ s.drv.sentFor ≠ some s.cpf.tk ∧
      s.drv.hellos = some n ∧ n < 20) ∧
    (∃ (s : Dev) (b : List Byte) (q : Nat) (st : DrvStatus), s.powered 8 = true ∧ s.inWindow b.length = true ∧
      s.drv.awaiting = some q ∧ s.parseStatus true b = some (q, st)) ∧
    (∃ (s : Dev) (b : List Byte) (q r : Nat) (st : DrvStatus), s.powered 8 = true ∧ s.inWindow b.length = true ∧
      s.drv.awaiting = some q ∧ s.parseStatus true b = some (r, st) ∧ r ≠ q) ∧
    (∃ (s : Dev) (q : Nat), s.powered 8 = true ∧ s.drv.awaiting = some q ∧ s.rxClose ≤ s.dt) ∧
    (∃ (s : Dev) (n : Nat) (b : List Byte), s.powered 8 = true ∧ s.drv.hellos = some n ∧ b.length = 12 ∧ crcOk b = true ∧
      leAt b 0 2 = 0x00D5 ∧ leAt b 2 1 = 0xFF ∧ 1 ≤ leAt b 4 1 ∧ leAt b 4 1 ≤ 2) ∧
    (∃ (s : Dev) (n : Nat), s.powered 8 = true ∧ s.drv.hellos = some n ∧ 20 ≤ n) ∧
    (∃ (s : Dev) (d : Desc), s.powered 8 = true ∧ s.drv.enableDesc = some d ∧ s.drv.hellos = none ∧ 20 ≤ s.drv.settledFor) ∧
    (∃ (s : Dev) (d : Desc) (code t : Nat), s.powered 8 = true ∧ s.drv.resetDesc = some (d, code, t) ∧ t + s.hStartTo ≤ s.dt) :=
  ⟨⟨after 250000 (drvWith (fun d => { d with running := true })), by decide⟩,
   ⟨after 250000 (drvWith (fun d => { d with running := true, hellos := some 19 })), 19, by decide⟩,
   ⟨after 20000 (drvWith (fun d => { d with version := 1, awaiting := some 7 })), statusV1 7, 7, ⟨0, 0, 0, 0, 0, 0, statusV1 7⟩, by decide⟩,
   ⟨after 20000 (drvWith (fun d => { d with version := 1, awaiting := some 7 })), statusV1 6, 7, 6, ⟨0, 0, 0, 0, 0, 0, statusV1 6⟩, by decide⟩,
   ⟨after 255000 (drvWith (fun d => { d with awaiting := some 7 })), 7, by decide⟩,
   ⟨drvWith (fun d => { d with hellos := some 0 }), 0, withCrc [0xD5, 0, 0xFF, 0, 2, 0, 0, 0, 0, 0], by decide⟩,
   ⟨drvWith (fun d => { d with hellos := some 20 }), 20, by decide⟩,
   ⟨drvWith (fun d => { d with enableDesc := some (dsc []), settledFor := 20 }), dsc [], by decide⟩,
   ⟨after 70000000000 (drvWith (fun d => { d with resetDesc := some (dsc [], 1, 0) })), dsc [], 1, 0, by decide⟩⟩

/-! ## Door axes (06) -/

def axisWith (n : Nat) (f : Axis → Axis) : Dev := on.modAxis n f
/-- An ADVANCE image of two entries. -/
def advHead : List Byte := [1, 0, 2, 2, 2, 0, 0, 0, 100, 0, 0, 0, 100, 0, 0, 0] ++ List.replicate 12 0
def advBody : List Byte := List.replicate 16 0
def advImage : List Byte := advHead ++ leBytes 4 (crc32 (advHead ++ advBody)).toNat ++ advBody

theorem witness_DoorStepRuns :
    (∃ s : Dev, s.powered 6 = true ∧ (∀ n, n < 5 → (s.axis n).live = false ∧ (s.axis n).nudgeNext = none) ∧
      s.door.waiting = []) ∧
    (∃ (s : Dev) (d : Desc) (a : Nat), s.powered 6 = true ∧
      (∀ n, n < 5 → (s.axis n).live = false ∧ (s.axis n).nudgeNext = none) ∧ s.door.waiting = [(d, a)]) :=
  ⟨⟨on, by decide⟩, ⟨{ on with door := { Door.reset with waiting := [(dsc [0xA08], 0)] } }, dsc [0xA08], 0, by decide⟩⟩

theorem witness_DoorAxisRowsComplete_DoorSteps :
    (∃ (n : Fin 5) (s : Dev), s.powered 6 = true ∧ s.hasAxis n = true ∧ (s.axis n).immediate = false ∧ s.axisIdle n = false ∧
      (((s.limitIq n).2.switchMode n (s.limitIq n).1).axis n).aligning = none ∧
      (((s.limitIq n).2.switchMode n (s.limitIq n).1).axis n).tripped = false) ∧
    (∃ (n : Fin 5) (s : Dev) (t : Nat), s.powered 6 = true ∧ s.hasAxis n = true ∧ (s.axis n).offSince = some t ∧
      (s.axis n).strong = true ∧ s.fld (Reg.msqDcfg n) 3 2 ≠ 1 ∧ s.fld (Reg.msqDcfg n) 3 2 ≠ 2 ∧ (s.axis n).tripped = false ∧
      (s.axis n).relief = false ∧ t + 50000000 ≤ s.dt) ∧
    (∃ (n : Fin 5) (s : Dev), s.powered 6 = true ∧ s.hasAxis n = true ∧ s.axisIdle n = false ∧ (s.axis n).state = .open_ ∧
      (s.axis n).gen ≠ .home ∧
      s.fld (Reg.msqDmass n) 31 0 * (s.doorSpeed n).natAbs * (s.doorSpeed n).natAbs / 2000000000
        ≤ s.eLim n * 10 * clampN 100 200 (s.fld (Reg.msqDforce n) 15 8)) :=
  ⟨⟨0, axisWith 0 (fun x => { x with state := .open_, bridgesSafe := false }), by decide⟩,
   ⟨1, after 50000000 (axisWith 1 (fun x => { x with offSince := some 0, strong := true })), 0, by decide⟩,
   ⟨0, axisWith 0 (fun x => { x with state := .open_, bridgesSafe := false }), by decide⟩⟩

theorem advPasses : on.camFailure 0 2 advImage = none := by decide

theorem witness_DoorAxisRowsComplete_DoorEvents :
    (∃ (n : Fin 5) (s : Dev) (t : Nat), s.powered 6 = true ∧ (s.axis n).clampSince = some t ∧
      (s.axis n).enabling.isSome = true ∧ (s.axis n).gen = .home ∧ t + 200000000 ≤ s.dt) ∧
    (∃ (n : Fin 5) (s : Dev) (t : Nat), s.powered 6 = true ∧ (s.axis n).aligning = some t ∧ t + 200000000 ≤ s.dt) ∧
    (∃ (n : Fin 5) (s : Dev), s.powered 6 = true ∧ (s.axis n).state.moving = true ∧
      (s.axis n).start + s.dfld n (Reg.msqDmisc n) 31 16 * 1000000 ≤ s.dt) ∧
    (∃ (n : Fin 5) (k : Fin 3) (s : Dev) (d : Desc), s.powered 6 = true ∧ (s.camSlot n k).loading = some d ∧
      s.camFailure n k (s.camSlot n k).staged = none) :=
  ⟨⟨0, after 200000000 (axisWith 0 (fun x => { x with clampSince := some 0, enabling := some (dsc []), gen := .home })), 0, by decide⟩,
   ⟨4, after 200000000 (axisWith 4 (fun x => { x with aligning := some 0 })), 0, by decide⟩,
   ⟨1, after 70000000000 (axisWith 1 (fun x => { x with state := .opening })), by decide⟩,
   ⟨0, 2, on.setCamSlot 0 2 { CamSlot.reset with staged := advImage, loading := some (dsc []) }, dsc [], by decide, by decide,
    advPasses⟩⟩

theorem witness_DoorCommandsComplete :
    (∃ (s : Dev) (d : Desc), s.powered 6 = true ∧ s.isInFlight d = true ∧ s.axisCheck d false = none ∧ bitsOf (d.w 3) 31 2 = 0 ∧ bitsOf (d.w 3) 31 1 = 0 ∧
      0 ≤ sWord (d.w 3) ∧ sWord (d.w 3) ≤ s.nextStroke (bitsOf d.object 7 0)) ∧
    (∃ (s : Dev) (d : Desc), s.powered 6 = true ∧ s.isInFlight d = true ∧ s.axisCheck d false = none ∧ 0 < sWord (d.w 3) ∧
      sWord (d.w 3) ≤ s.nextStroke (bitsOf d.object 7 0)) ∧
    (∃ (n : Nat) (d : Desc), n = bitsOf d.object 7 0 ∧ d.opcode = 0x0509) ∧
    (∃ (s : Dev) (d : Desc) (img b : List Byte) (y : Dev) (n k : Nat), s.powered 6 = true ∧ s.isInFlight d = true ∧ s.hiu.d3hot = false ∧ s.axisCheck d false = none ∧
      y = s.charge d.qp img.length ∧ n = bitsOf d.object 7 0 ∧ k = bitsOf (d.w 3) 1 0 ∧ b = y.fetch d (d.w64 4) img ∧
      bitsOf (d.w 3) 31 2 = 0 ∧ k ≠ 3 ∧ y.addrOk d (d.w64 4) b.length = true ∧ (y.camSlot n k).loading = none ∧
      y.door.waiting = []) ∧
    (∃ (s : Dev) (d : Desc), s.powered 6 = true ∧ s.isInFlight d = true ∧ s.axisCheck d true = none ∧ s.syncCheck d = none) ∧
    (∃ (s : Dev) (d : Desc) (img b : List Byte) (y : Dev), s.powered 6 = true ∧ s.isInFlight d = true ∧ s.hiu.d3hot = false ∧ y = s.charge d.qp img.length ∧
      y.axisCheck d false = none ∧ b = y.fetch d (d.w64 3) img ∧ y.addrOk d (d.w64 3) 2048 = true ∧ 2048 ≤ b.length) ∧
    (∃ (z : Dev) (d : Desc) (t : List Int), d.opcode = 0x0508 ∧ z.door.sines = [(d, t)] ∧
      t.all (fun v => v != -32768) = true ∧ (List.range 5).any z.axisEnabled = false) ∧
    (∃ (s : Dev) (d : Desc) (b : Nat), s.powered 6 = true ∧ s.isInFlight d = true ∧ b < 16 ∧ bitsOf d.object 7 0 = b + 0x10 ∧ bitsOf d.object 31 8 = 0 ∧
      s.hasBridge b = true ∧ s.bridgeGeneral b = true ∧ bitsOf (d.w 3) 10 0 ≤ 1024 ∧ bitsOf (d.w 3) 31 11 = 0) :=
  ⟨⟨on, dsc [0, 0, 4], by decide⟩, ⟨reg (Reg.msqDstroke 4) 900000 on, dsc [0, 0, 4, 900000], by decide⟩,
   ⟨4, dsc [0x509, 0, 4], by decide⟩,
   ⟨on, dsc [0, 0, 4, 2], advImage, _, _, _, _, by decide, by decide, by decide, by decide, rfl, rfl, rfl, rfl, by decide, by decide, by decide,
    by decide, by decide⟩,
   ⟨on, dsc [0, 0, 1, 0x30], by decide⟩,
   ⟨on, dsc [], List.replicate 2048 0, _, _, by decide, by decide, by decide, rfl, by decide, rfl, by decide, by decide⟩,
   ⟨{ on with door := { on.door with sines := [(dsc [0x0508], [0])] } }, dsc [0x0508], [0], by decide⟩,
   ⟨on, dsc [0, 0, 0x1F, 1024], 15, by decide⟩⟩

/-! ## Loop Engine (07) -/

theorem witness_LoopEngineRowsComplete_FramePhaseZero : ∃ s z w y : Dev, s.powered 6 = true ∧ z = s.frameBoundary ∧
    z.lpe.commits = [] ∧
    w = { z with lpe := { z.lpe with frame := z.lpe.frames, frames := z.lpe.frames + 1, phaseAt := z.dt } } ∧
    y = Dev.frameStarts (Dev.phaseLatch
      (if z.lpe.frames % 5 = 0 then w.closeCpf.setCpf (fun c => { c with tk := z.dt }) else w) (z.lpe.frames % 5 == 0)) ∧
    y.lpe.commits = [] ∧ (∀ t, t < 16 → kget none y.lpe.staged t = none) ∧ groupList y.lpe.groups = [] :=
  ⟨on, on.frameBoundary, _, _, by decide, rfl, by decide, rfl, rfl, by decide⟩

def ffHead : List Byte := [1, 0, 1, 0, 2, 0, 0, 0, 0, 0, 0, 0, 1, 0, 0, 0] ++ List.replicate 8 0
def ffImage : List Byte := ffHead ++ leBytes 4 (crc32 ffHead).toNat
theorem ffPasses : ffCheck ffImage = none := by decide

theorem witness_LoopEngineRowsComplete_LpeCommands :
    (∃ (s : Dev) (d : Desc) (img b : List Byte) (y : Dev), s.powered 6 = true ∧ s.isInFlight d = true ∧ s.hiu.d3hot = false ∧ y = s.charge d.qp img.length ∧
      b = y.fetch d (d.w64 3) img ∧ lpeObjectOk d = true ∧ 64 ≤ b.length ∧ y.addrOk d (d.w64 3) 64 = true ∧
      (parseParams b).bad (decide (lpeLoop d < 16)) = false ∧ y.commitPending (lpeLoop d) = false) ∧
    (∃ (s : Dev) (d : Desc), s.powered 6 = true ∧ s.isInFlight d = true ∧ lpeObjectOk d = true ∧ bitsOf (d.w 5) 31 1 = 0) ∧
    (∃ (s : Dev) (d : Desc), s.powered 6 = true ∧ s.isInFlight d = true ∧ lpeObjectOk d = true ∧ bitsOf (d.w 3) 31 2 = 0 ∧ 16 ≤ lpeLoop d) ∧
    (∃ (s : Dev) (d : Desc), s.powered 6 = true ∧ s.isInFlight d = true ∧ lpeObjectOk d = true ∧ lpeLoop d = 63) ∧
    (∃ (s : Dev) (d : Desc) (img b : List Byte) (y : Dev), s.powered 6 = true ∧ s.isInFlight d = true ∧ s.hiu.d3hot = false ∧ y = s.charge d.qp img.length ∧
      b = y.fetch d (d.w64 3) img ∧ bitsOf d.object 31 4 = 0 ∧ y.addrOk d (d.w64 3) b.length = true ∧
      kget none y.lpe.staged (bitsOf d.object 3 0) = none ∧ ffCheck b = none) :=
  ⟨⟨on, dsc [], List.replicate 64 0, _, _, by decide, by decide, by decide, rfl, rfl, by decide⟩, ⟨on, dsc [], by decide⟩,
   ⟨on, dsc [0, 0, 0x3F], by decide⟩, ⟨on, dsc [0, 0, 63], by decide⟩,
   ⟨on, dsc [0, 0, 15], ffImage, _, _, by decide, by decide, by decide, rfl, rfl, by decide, by decide, by decide, ffPasses⟩⟩

/-! ## Hawkmoth (08) -/

def hwkWith (f : HwkLogic → HwkLogic) : Dev := on.setHwk f

theorem witness_HwkCountAndSpeed :
    (∃ (s : Dev) (a b : Bool), s.hwk.osc = true ∧
      ¬ (s.hwk.qa ≠ (filterStep 4 s.hwk.qa s.hwk.runA a).1 ∧ s.hwk.qb ≠ (filterStep 4 s.hwk.qb s.hwk.runB b).1)) ∧
    (∃ (s : Dev) (a b : Bool), s.hwk.osc = true ∧
      s.hwk.qa ≠ (filterStep 4 s.hwk.qa s.hwk.runA a).1 ∧ s.hwk.qb ≠ (filterStep 4 s.hwk.qb s.hwk.runB b).1) ∧
    (∃ s : Dev, s.hwk.osc = true ∧ s.hwk.armed = false) ∧ (∃ s : Dev, s.hwk.osc = true ∧ s.hwk.armed = true) :=
  ⟨⟨on, true, false, by decide⟩, ⟨hwkWith (fun g => { g with runA := 3, runB := 3 }), true, true, by decide⟩,
   ⟨on, by decide⟩, ⟨hwkWith (fun g => { g with armed := true }), by decide⟩⟩

theorem witness_HwkEvaluationRuns :
    (∃ s : Dev, s.hwk.osc = true ∧ s.hwk.armed = false) ∧ (∃ s : Dev, s.hwk.osc = true ∧ s.hwk.armed = true) :=
  ⟨⟨on, by decide⟩, ⟨hwkWith (fun g => { g with armed := true }), by decide⟩⟩

/-- Queue pair 0 with rings of 16 entries, enabled, and the routes of sources 0-15 to it. -/
def ringed (d : Dev) : Dev :=
  (List.range 4).foldl (fun (d : Dev) i => d.setReg (0x80 + 4 * i) 0x80808080)
    (d.setQp 0 { QPair.reset with configured := true, enabled := true, sqLog := 4, cqLog := 4, eqLog := 4 })

theorem witness_HwkRowsComplete_HwkTimers :
    (∃ (s : Dev) (r : HwkRecord), s.hwk.records = [r] ∧ s.eqReady 7 = true) ∧
    (∃ s : Dev, s.eqReady 7 = false) ∧
    (∃ s : Dev, s.hwk.osc = true ∧ 5000 ≤ s.hwk.zeroRow) ∧
    (∃ s : Dev, s.hwk.osc = true ∧ s.hwk.armed = true ∧ s.hwk.park = none ∧ 500000 ≤ s.hwk.parkRow) ∧
    (∃ (s : Dev) (n : Nat), s.hwk.osc = true ∧ ((n : Int) - 100000).natAbs ≤ s.fld Reg.hwkWin 11 8 * 1000) ∧
    (∃ (s : Dev) (n : Nat), s.hwk.osc = true ∧ s.fld Reg.hwkWin 11 8 * 1000 < ((n : Int) - 100000).natAbs) :=
  ⟨⟨ringed (hwkWith (fun g => { g with records := [⟨1, 4, 0, []⟩] })), ⟨1, 4, 0, []⟩, by decide⟩, ⟨on, by decide⟩,
   ⟨hwkWith (fun g => { g with zeroRow := 5000 }), by decide⟩,
   ⟨hwkWith (fun g => { g with armed := true, parkRow := 500000 }), by decide⟩,
   ⟨on, 100000, by decide⟩, ⟨on, 0, by decide⟩⟩

theorem witness_HwkRowsComplete_HwkFieldEvents : ∃ s : Dev, s.hwkF.osc = true ∧ s.coc.field.running = true := ⟨on, by decide⟩

theorem witness_HwkCommandsComplete :
    (∃ (s : Dev) (v : Word), s.powered 7 = true ∧ s.hiu.d3hot = false ∧ bitOf v 0 = true ∧ s.hwk.locked = false) ∧
    (∃ (s : Dev) (v : Word), s.powered 7 = true ∧ s.hiu.d3hot = false ∧ s.hwk.locked = true) ∧
    (∃ (s : Dev) (d : Desc) (img b : List Byte) (y : Dev), s.isInFlight d = true ∧ s.hiu.d3hot = false ∧ d.object = 0 ∧ y = s.charge d.qp img.length ∧
      y.addrOk d (d.w64 3) 512 = true ∧ y.hwk.locked = false ∧ b = y.fetch d (d.w64 3) img ∧ bitOf (imgWord b 0) 0 = false) ∧
    (∃ (s : Dev) (d : Desc) (img b : List Byte) (y : Dev), s.isInFlight d = true ∧ s.hiu.d3hot = false ∧ d.object = 0 ∧ y = s.charge d.qp img.length ∧
      y.addrOk d (d.w64 3) 512 = true ∧ y.hwk.locked = false ∧ b = y.fetch d (d.w64 3) img ∧ bitOf (imgWord b 0) 0 = true) ∧
    (∃ (s : Dev) (d : Desc) (img : List Byte), s.isInFlight d = true ∧ s.hiu.d3hot = false ∧ d.object = 0 ∧ (s.charge d.qp img.length).addrOk d (d.w64 3) 512 = true ∧
      (s.charge d.qp img.length).hwk.locked = true) ∧
    (∃ (s : Dev) (d : Desc), s.isInFlight d = true ∧ d.object = 0 ∧ s.addrOk d (d.w64 3) 512 = true) :=
  ⟨⟨on, 1, by decide⟩, ⟨hwkWith (fun g => { g with locked := true }), 0, by decide⟩,
   ⟨on, dsc [], List.replicate 512 0, _, _, by decide, by decide, by decide, rfl, by decide, by decide, rfl, by decide⟩,
   ⟨on, dsc [], 1 :: List.replicate 511 0, _, _, by decide, by decide, by decide, rfl, by decide, by decide, rfl, by decide⟩,
   ⟨hwkWith (fun g => { g with locked := true }), dsc [], [], by decide⟩, ⟨on, dsc [], by decide⟩⟩

/-! ## Monarch (09) -/

def monWith (f : Mon → Mon) : Dev := on.setMon f
def grpWith (f : Grp → Grp) : Dev := on.setGrp f
def oneCall : CallBody := ⟨1, 0, 1, 0x102, 0⟩
def committed (c : List Committed) : Dev := monWith (fun m => { m with committed := c })

theorem witness_MonarchEventsComplete_MonarchAppliesHead :
    (∃ (s : Dev) (c : CallBody), s.powered 5 = true ∧ s.mon.jobs = [] ∧ s.mon.committed = [.event ⟨0, 1, 5, 1, .call c⟩]) ∧
    (∃ s : Dev, s.powered 5 = true ∧ s.mon.jobs = [] ∧ s.mon.committed = [.event ⟨0, 1, 5, 1, .cancel 9⟩]) ∧
    (∃ s : Dev, s.powered 5 = true ∧ s.mon.jobs = [] ∧ s.mon.committed = [.event ⟨0, 1, 5, 1, .status .reset⟩]) ∧
    (∃ s : Dev, s.powered 5 = true ∧ s.mon.jobs = [] ∧ s.mon.committed = [.tick 100000000]) :=
  ⟨⟨committed [.event ⟨0, 1, 5, 1, .call oneCall⟩], oneCall, by decide⟩, ⟨committed [.event ⟨0, 1, 5, 1, .cancel 9⟩], by decide⟩,
   ⟨committed [.event ⟨0, 1, 5, 1, .status .reset⟩], by decide⟩, ⟨committed [.tick 100000000], by decide⟩⟩

/-- A Solo part. -/
def solo : Dev := { on with part := .cl5602f, grp := { Grp.reset with epoch := 1 } }

theorem witness_MonarchEventsComplete_MonarchEvaluatesAndCommits :
    (∃ (s : Dev) (j : EvalJob), s.powered 5 = true ∧ s.mon.jobs = [j] ∧ s.mon.jobStart + 2 * s.evalCycles j ≤ s.dt) ∧
    (∃ s : Dev, s.powered 5 = true ∧ s.hasGrp = false ∧ s.grp.epoch ≠ 0) :=
  ⟨⟨after 100000000 (monWith (fun m => { m with jobs := [⟨1, .tick, 5⟩] })), ⟨1, .tick, 5⟩, by decide⟩, ⟨solo, by decide⟩⟩

/-- A call configuration of ten landings. -/
def cfgBody : List Byte :=
  [1, 0, 1, 0, 1, 0, 1, 0, 1, 0] ++ List.replicate 10 0 ++ [100, 0] ++ List.replicate 16 0 ++ [10, 0] ++ List.replicate 1112 0
def cfgImage : List Byte := cfgBody ++ (leBytes 4 (crc32 cfgBody).toNat ++ [])
theorem cfgBody_length : cfgBody.length = 1152 := by
  simp only [cfgBody, List.length_append, List.length_replicate, List.length_cons, List.length_nil]
theorem cfgImage_length : cfgImage.length = 1156 := by
  simp only [cfgImage, List.length_append, leBytes_length, cfgBody_length, List.length_nil]
theorem cfgFits : configFit cfgImage = true := by
  have h1 : leAt cfgImage 1152 4 = (crc32 cfgBody).toNat := by
    have h := leAt_word cfgBody [] (crc32 cfgBody)
    rw [cfgBody_length] at h
    exact h
  have h2 : cfgImage.take 1152 = cfgBody := List.take_left' cfgBody_length
  have h3 : ∀ i n, i + n ≤ 1152 → leAt cfgImage i n = leAt cfgBody i n := by
    intro i n h
    unfold leAt cfgImage
    have hl := cfgBody_length
    rw [List.drop_append_of_le_length (by omega), List.take_append_of_le_length (by rw [List.length_drop]; omega)]
  unfold configFit
  rw [h1, h2, h3 0 2 (by omega), h3 38 2 (by omega), h3 2 2 (by omega), h3 4 2 (by omega), h3 6 2 (by omega), h3 8 2 (by omega),
    h3 20 2 (by omega), show leAt cfgBody 0 2 = 1 by decide, show leAt cfgBody 38 2 = 10 by decide, show leAt cfgBody 2 2 = 1 by decide,
    show leAt cfgBody 4 2 = 1 by decide, show leAt cfgBody 6 2 = 1 by decide, show leAt cfgBody 8 2 = 1 by decide,
    show leAt cfgBody 20 2 = 100 by decide]
  simp
/-- A flight-time image of zeros. -/
def fttHead : List Byte := [1, 0, 0, 0, 0, 0, 0, 0, 0, 0, 0, 0]
def fttBody : List Byte := List.replicate 131072 0
def fttImage : List Byte := fttHead ++ (leBytes 4 (crc32 (fttHead ++ fttBody)).toNat ++ fttBody)
theorem fttFits : fttFit fttImage = true ∧ fttImage.length = 131088 := by
  have h1 : leAt fttImage 12 4 = (crc32 (fttHead ++ fttBody)).toNat := leAt_word fttHead fttBody (crc32 (fttHead ++ fttBody))
  have h2 : fttImage.take 12 = fttHead := List.take_left' rfl
  have h4 : fttImage.drop 16 = fttBody := by
    unfold fttImage
    rw [← List.append_assoc]
    exact List.drop_left' (by simp [fttHead])
  have h5 : leAt fttImage 0 2 = 1 := rfl
  have h6 : ∀ a, leAt fttImage (16 + a) 2 = 0 := by
    intro a
    unfold leAt
    rw [← List.drop_drop, h4, fttBody, List.drop_replicate, List.take_replicate]
    have : min 2 (131072 - a) ≤ 2 := Nat.min_le_left _ _
    generalize min 2 (131072 - a) = k at this
    match k, this with
    | 0, _ => rfl
    | 1, _ => rfl
    | 2, _ => rfl
  refine ⟨?_, by simp only [fttImage, fttHead, fttBody, List.length_append, leBytes_length, List.length_replicate, List.length_cons, List.length_nil]⟩
  unfold fttFit
  rw [h1, h2, h4, h5]
  simp [h6]

def oneTrip : Trip := ⟨5, 2, .assigned, 0, 1, true, false, false, 0, false, 1, 0, 0, 0, 0, 0, 0, 0, 0, 0, 0⟩

/-- Nothing is charged, and the bytes handed over are what a queue pair in host memory reads. -/
theorem on_charge (n : Nat) : on.charge 0 n = on := by simp [Dev.charge, show on.hasCredit 0 = false by decide]
theorem on_fetch (a : Nat) (w : List Word) (img : List Byte) : on.fetch (dsc w) a img = img := by
  simp [Dev.fetch, show on.isLocal (dsc w) = false from rfl]

theorem witness_MonarchCommandsComplete_Loads :
    (∃ (s : Dev) (d : Desc) (img b : List Byte) (y : Dev), s.powered 5 = true ∧ s.isInFlight d = true ∧ s.hiu.d3hot = false ∧ d.w 2 = 0 ∧ y = s.charge d.qp img.length ∧
      b = (y.fetch d (d.w64 4) img).take 131088 ∧ y.addrOk d (d.w64 4) 131088 = true ∧ y.mon.offered = [] ∧
      b.length = 131088 ∧ fttFit b = true) ∧
    (∃ (s : Dev) (d : Desc) (img b : List Byte) (y : Dev), s.powered 5 = true ∧ s.isInFlight d = true ∧ s.hiu.d3hot = false ∧ d.w 2 = 0 ∧ y = s.charge d.qp img.length ∧
      b = (y.fetch d (d.w64 3) img).take 1156 ∧ y.addrOk d (d.w64 3) 1156 = true ∧ y.mon.offered = [] ∧
      b.length = 1156 ∧ configFit b = true) :=
  ⟨⟨on, dsc [], fttImage, fttImage, on, by decide, by decide, by decide, by decide, (on_charge _).symm,
    by rw [on_fetch, List.take_of_length_le (Nat.le_of_eq fttFits.2)], by decide, by decide, fttFits.2, fttFits.1⟩,
   ⟨on, dsc [], cfgImage, cfgImage, on, by decide, by decide, by decide, by decide, (on_charge _).symm,
    by rw [on_fetch, List.take_of_length_le (Nat.le_of_eq cfgImage_length)], by decide, by decide, cfgImage_length, cfgFits⟩⟩

theorem witness_MonarchCommandsComplete :
    (∃ (s : Dev) (d : Desc), s.powered 5 = true ∧ s.isInFlight d = true ∧ s.callFit d = true) ∧
    (∃ (s : Dev) (d : Desc), s.powered 5 = true ∧ s.isInFlight d = true ∧ d.w 2 = 0 ∧ bitsOf (d.w 3) 1 0 ≠ 3) ∧
    (∃ (s : Dev) (d : Desc) (o : CarRec), s.powered 5 = true ∧ s.isInFlight d = true ∧ d.w 2 = 0 ∧
      (bitOf (d.w 3) 0 = true → s.deckHasAxis 0 = false) ∧ (bitOf (d.w 3) 1 = true → s.deckHasAxis 1 = false) ∧
      s.mon.own = some o ∧ o.phase = 1 ∧ tbit (bitsOf (d.w 3) 1 0) 0 = bitOf (d.w 3) 0 ∧
      tbit (bitsOf (d.w 3) 1 0) 1 = bitOf (d.w 3) 1) ∧
    (∃ (s : Dev) (d : Desc) (t : Trip), s.powered 5 = true ∧ s.isInFlight d = true ∧ d.w 2 = 0 ∧ s.addrOk d (d.w64 5) 64 = true ∧
      s.trip (d.w64 3 % 2 ^ 48) = some t) ∧
    (∃ (s : Dev) (d : Desc), s.powered 5 = true ∧ s.isInFlight d = true ∧ d.w 2 = 0 ∧ s.addrOk d (d.w64 5) 64 = true ∧ s.trip (d.w64 3 % 2 ^ 48) = none) ∧
    (∃ (s : Dev) (d : Desc), s.powered 5 = true ∧ s.isInFlight d = true ∧ d.w 2 = 0 ∧ s.mon.sdigest ≠ 0) ∧
    (∃ (s : Dev) (d : Desc) (v : List Visit), s.powered 5 = true ∧ s.isInFlight d = true ∧ (d.w 2).toNat < 16 ∧ s.addrOk d (d.w64 3) 544 = true ∧
      s.simulate (d.w 2).toNat s.dt (s.car (d.w 2).toNat)
        ((stopList (s.car (d.w 2).toNat) ((s.car (d.w 2).toNat).dir == 1) (s.carTrips (d.w 2).toNat)).take 64) = some v) :=
  ⟨⟨monWith (fun m => { m with cfg := cfgImage }), dsc [0, 0, 0, 0x10000, 0x102], by decide⟩, ⟨on, dsc [], by decide⟩,
   ⟨monWith (fun m => { m with own := some { CarRec.reset with phase := 1 } }), dsc [0, 0, 0, 3], { CarRec.reset with phase := 1 },
    by decide⟩,
   ⟨monWith (fun m => { m with trips := [(5, some oneTrip)] }), dsc [0, 0, 0, 5], oneTrip, by decide⟩,
   ⟨on, dsc [0, 0, 0, 5], by decide⟩, ⟨monWith (fun m => { m with sdigest := 1 }), dsc [], by decide⟩,
   ⟨on, dsc [0, 0, 15], [], by decide⟩⟩

theorem witness_GroupCommandsComplete :
    (∃ (s : Dev) (d : Desc), s.powered 5 = true ∧ s.isInFlight d = true ∧ s.hasGrp = true ∧ d.w 2 = 0 ∧ s.grp.en = false ∧ 1 ≤ bitsOf (d.w 3) 12 8 ∧
      bitsOf (d.w 3) 7 0 < 16 ∧ bitsOf (d.w 3) 12 8 ≤ s.maxCars ∧ bitsOf (d.w 3) 25 16 ≤ s.tripCtx) ∧
    (∃ (s : Dev) (d : Desc), s.powered 5 = true ∧ s.isInFlight d = true ∧ s.hasGrp = true ∧ d.w 2 = 0 ∧
      (s.carTrips s.grp.node).all (fun t => !t.aboard) = true ∧ s.grp.leaving = none ∧ s.grp.member = true ∧
      s.addrOk d (d.w64 3) s.snapBytes.length = true) :=
  ⟨⟨on, dsc [0, 0, 0, 0x100080F], by decide⟩, ⟨grpWith (fun g => { g with member := true, en := true }), dsc [], by decide⟩⟩

/-! ## Group replication (10) -/

/-- Node 1's heartbeat as a member of epoch 1. -/
def hbOf1 : Heartbeat := ⟨3, 3, 3, 1, 1, 1, 1, 0, 1, 0, 3, 0, 0, 0, 4, 0, 0, 0, 0⟩
def inboxed (r : List Byte) (f : Grp → Grp) : Dev := grpWith (fun g => f { g with en := true, inbox := [r] })
def callRecord : List Byte := (⟨1, 1, 5, 1, .call oneCall⟩ : GroupEvent).bytes false

/-- A member of epoch 1 in sync at its instant of the millisecond. -/
def beating (f : Grp → Grp) : Dev :=
  { grpWith (fun g => f { g with en := true, member := true, view := 1, proto := 1 }) with stl := { Stl.reset with sync := true } }
theorem witness_GroupRecordsComplete_Heartbeat :
    (∃ s y : Dev, s.powered 5 = true ∧ s.grpRuns = true ∧ s.hasGrp = true ∧ s.grp.en = true ∧ s.stl.sync = true ∧
      s.grp.member = true ∧ s.dt % 1000000 = s.grp.node * 62500 ∧
      y = (s.groupSend s.ownHeartbeat.bytes).setGrp (fun g => { g with leaving := g.leaving.map (· + 1) }) ∧
      3 ≤ y.grp.leaving.getD 0 ∧ y.grp.view = 2 ^ y.grp.node) ∧
    (∃ s y : Dev, s.powered 5 = true ∧ s.grpRuns = true ∧ s.hasGrp = true ∧ s.grp.en = true ∧ s.stl.sync = true ∧
      s.grp.member = true ∧ s.dt % 1000000 = s.grp.node * 62500 ∧
      y = (s.groupSend s.ownHeartbeat.bytes).setGrp (fun g => { g with leaving := g.leaving.map (· + 1) }) ∧
      y.grp.leaving = none ∧ y.viewTrigger = none) ∧
    (∃ (s y : Dev) (c : Nat) (m : Bool), s.powered 5 = true ∧ s.grpRuns = true ∧ s.hasGrp = true ∧ s.grp.en = true ∧
      s.stl.sync = true ∧ s.grp.member = true ∧ s.dt % 1000000 = s.grp.node * 62500 ∧
      y = (s.groupSend s.ownHeartbeat.bytes).setGrp (fun g => { g with leaving := g.leaving.map (· + 1) }) ∧
      y.grp.leaving = none ∧ y.viewTrigger = some (c, m)) :=
  ⟨⟨beating (fun g => { g with leaving := some 2 }), _, by decide, by decide, by decide, by decide, by decide, by decide, by decide,
    rfl, by decide, by decide⟩,
   ⟨beating (fun g => { g with proto := on.protoMax, costver := on.costMax }), _,
    by decide, by decide, by decide, by decide, by decide, by decide, by decide, rfl, by decide, by decide⟩,
   ⟨beating (fun g => { g with proto := 9 }), _, 5, false, by decide, by decide, by decide, by decide, by decide, by decide, by decide,
    rfl, by decide, by decide⟩⟩

theorem witness_GroupRecordsComplete :
    (∃ (s : Dev) (r : List Byte), s.powered 5 = true ∧ s.grpRuns = true ∧ s.grp.inbox = [r] ∧ s.grp.en = true ∧ leAt r 0 1 = 1) ∧
    (∃ (s : Dev) (r : List Byte) (e : GroupEvent), s.powered 5 = true ∧ s.grpRuns = true ∧ s.grp.inbox = [r] ∧ s.grp.en = true ∧
      leAt r 0 1 = 2 ∧ GroupEvent.ofBytes r = some e) ∧
    (∃ (s : Dev) (r : List Byte), s.powered 5 = true ∧ s.grpRuns = true ∧ s.grp.inbox = [r] ∧ s.grp.en = true ∧ leAt r 0 1 = 6 ∧
      leAt r 1 1 = s.grp.node) ∧
    (∃ (s : Dev) (n : Fin 16) (q t : Nat), s.powered 5 = true ∧ s.grpRuns = true ∧ (s.peer n).marks = [(q, t)] ∧
      (s.peer n).asked = none ∧ t + s.fld Reg.stlSkewwin 4 0 * 1000 + 100000 ≤ s.dt) :=
  ⟨⟨inboxed hbOf1.bytes id, hbOf1.bytes, by decide⟩, ⟨inboxed callRecord id, callRecord, ⟨1, 1, 5, 1, .call oneCall⟩, by decide⟩,
   ⟨inboxed [6, 0] id, [6, 0], by decide⟩,
   ⟨after 1000000 (on.modPeer 15 (fun p => { p with marks := [(1, 0)] })), 15, 1, 0, by decide⟩⟩

def flush1 : List Byte := [3, 1] ++ List.replicate 86 0
/-- One that names this node. -/
def flushed1 : List Byte := [3, 1, 3] ++ List.replicate 85 0
def start0 : EpochStart := ⟨0, 3, 2, 3, 1, 1, false, 0, List.replicate 16 0, 0, []⟩
def changing (f : Change → Change) (g : Grp → Grp) : Dev :=
  grpWith (fun x => g { x with en := true, change := some (f ⟨3, 1, false, 0, true, none, 0⟩) })

theorem witness_GroupRecordsComplete_GroupChange :
    (∃ (s : Dev) (n : Fin 16) (h : Heartbeat), s.powered 5 = true ∧ s.grpRuns = true ∧ (s.peer n).hb = some h ∧ s.grp.member = true ∧
      tbit s.grp.view n = true ∧ (n : Nat) ≠ s.grp.node ∧ (s.peer n).hbAt + 3000000 ≤ s.dt) ∧
    (∃ (s : Dev) (n : Fin 16) (h : Heartbeat) (t : Nat), s.powered 5 = true ∧ s.grpRuns = true ∧ (s.peer n).hb = some h ∧
      s.grp.member = true ∧ tbit s.grp.view n = true ∧ (n : Nat) ≠ s.grp.node ∧ (s.peer n).gapAt = some t ∧ t + 3000000 ≤ s.dt) ∧
    (∃ (s y : Dev) (r : List Byte) (f : Flush) (c : Change),
      s.powered 5 = true ∧ s.grpRuns = true ∧ s.grp.inbox = [r] ∧ s.grp.en = true ∧ leAt r 0 1 = 3 ∧
      (Flush.ofBytes r).node < 16 ∧ (Flush.ofBytes r).node ≠ s.grp.node ∧ y = s.setGrp (fun g => { g with inbox := [] }) ∧
      f = y.flushCame (Flush.ofBytes r) ∧ s.grp.change = some c ∧ c.start = none) ∧
    (∃ (s y : Dev) (r : List Byte) (f : Flush) (c : Change),
      s.powered 5 = true ∧ s.grpRuns = true ∧ s.grp.inbox = [r] ∧ s.grp.en = true ∧ leAt r 0 1 = 3 ∧
      (Flush.ofBytes r).node < 16 ∧ (Flush.ofBytes r).node ≠ s.grp.node ∧ y = s.setGrp (fun g => { g with inbox := [] }) ∧
      f = y.flushCame (Flush.ofBytes r) ∧ s.grp.change = some c ∧ c.start ≠ none ∧ c.closes s.grp.epoch f = true) ∧
    (∃ (s y : Dev) (r : List Byte) (f : Flush) (c : Change),
      s.powered 5 = true ∧ s.grpRuns = true ∧ s.grp.inbox = [r] ∧ s.grp.en = true ∧ leAt r 0 1 = 3 ∧
      (Flush.ofBytes r).node < 16 ∧ (Flush.ofBytes r).node ≠ s.grp.node ∧ y = s.setGrp (fun g => { g with inbox := [] }) ∧
      f = y.flushCame (Flush.ofBytes r) ∧ s.grp.change = some c ∧ c.start ≠ none ∧ c.closes s.grp.epoch f = false) ∧
    (∃ (s y : Dev) (r : List Byte) (f : Flush),
      s.powered 5 = true ∧ s.grpRuns = true ∧ s.grp.inbox = [r] ∧ s.grp.en = true ∧ leAt r 0 1 = 3 ∧
      (Flush.ofBytes r).node < 16 ∧ (Flush.ofBytes r).node ≠ s.grp.node ∧ y = s.setGrp (fun g => { g with inbox := [] }) ∧
      f = y.flushCame (Flush.ofBytes r) ∧ s.grp.change = none ∧ tbit f.proposed s.grp.node = true) ∧
    (∃ (s y : Dev) (r : List Byte) (f : Flush),
      s.powered 5 = true ∧ s.grpRuns = true ∧ s.grp.inbox = [r] ∧ s.grp.en = true ∧ leAt r 0 1 = 3 ∧
      (Flush.ofBytes r).node < 16 ∧ (Flush.ofBytes r).node ≠ s.grp.node ∧ y = s.setGrp (fun g => { g with inbox := [] }) ∧
      f = y.flushCame (Flush.ofBytes r) ∧ s.grp.change = none ∧ tbit f.proposed s.grp.node = false) ∧
    (∃ (s : Dev) (r : List Byte) (e : EpochStart) (c : Change), s.powered 5 = true ∧ s.grpRuns = true ∧ s.grp.inbox = [r] ∧
      s.grp.en = true ∧ leAt r 0 1 = 4 ∧ e = EpochStart.ofBytes r ∧ tbit e.view s.grp.node = true ∧ s.grp.change = some c ∧
      c.start = none ∧ lowestOf c.proposed = e.coord ∧ subMask e.view c.proposed = true) ∧
    (∃ (s : Dev) (c : Change), s.powered 5 = true ∧ s.grpRuns = true ∧ s.grp.change = some c ∧ c.start = none ∧
      c.flushAt + 1000000 ≤ s.dt) ∧
    (∃ (s : Dev) (c : Change), s.powered 5 = true ∧ s.grpRuns = true ∧ s.grp.change = some c ∧ c.start = none ∧
      c.flushAt + 2000000 ≤ s.dt ∧ lowestOf c.proposed ≠ s.grp.node) ∧
    (∃ (s : Dev) (c : Change) (e : EpochStart), s.powered 5 = true ∧ s.grpRuns = true ∧ s.grp.change = some c ∧ c.start = some e ∧
      c.startAt + 2000000 ≤ s.dt ∧ s.startReady e = false) ∧
    (∃ (s : Dev) (c : Change) (e : EpochStart), s.powered 5 = true ∧ s.grpRuns = true ∧ s.grp.change = some c ∧ c.start = some e ∧
      s.startReady e = true ∧ tbit e.view s.grp.node = true ∧ s.grp.member = true) ∧
    (∃ (s : Dev) (c : Change) (e : EpochStart), s.powered 5 = true ∧ s.grpRuns = true ∧ s.grp.change = some c ∧ c.start = some e ∧
      s.startReady e = true ∧ tbit e.view s.grp.node = true ∧ s.grp.member = false) ∧
    (∃ (s : Dev) (c : Change) (e : EpochStart), s.powered 5 = true ∧ s.grpRuns = true ∧ s.grp.change = some c ∧ c.start = some e ∧
      s.startReady e = true ∧ tbit e.view s.grp.node = false) :=
  ⟨⟨after 3000000 ((grpWith (fun g => { g with member := true, view := 3 })).modPeer 1 (fun p => { p with hb := some hbOf1 })), 1,
    hbOf1, by decide⟩,
   ⟨after 3000000 ((grpWith (fun g => { g with member := true, view := 0x8001 })).modPeer 15 (fun p => { p with hb := some hbOf1, marks := [(1, 0)] })),
    15, hbOf1, 0, by decide⟩,
   ⟨changing id (fun g => { g with inbox := [flush1] }), _, flush1, _, ⟨3, 1, false, 0, true, none, 0⟩,
    by decide, by decide, by decide, by decide, by decide, by decide, by decide,
    rfl, rfl, by decide, by decide⟩,
   ⟨changing (fun c => { c with start := some start0 }) (fun g => { g with inbox := [flush1] }), _, flush1, _, ⟨3, 1, false, 0, true, some start0, 0⟩,
    by decide, by decide, by decide, by decide, by decide, by decide, by decide,
    rfl, rfl, by decide, by decide, by decide⟩,
   ⟨changing (fun c => { c with proposed := 1, start := some start0 }) (fun g => { g with inbox := [flush1] }), _, flush1, _, ⟨1, 1, false, 0, true, some start0, 0⟩,
    by decide, by decide, by decide, by decide, by decide, by decide, by decide,
    rfl, rfl, by decide, by decide, by decide⟩,
   ⟨inboxed flushed1 id, _, flushed1, _, by decide, by decide, by decide, by decide, by decide, by decide, by decide,
    rfl, rfl, by decide, by decide⟩,
   ⟨inboxed flush1 id, _, flush1, _, by decide, by decide, by decide, by decide, by decide, by decide, by decide,
    rfl, rfl, by decide, by decide⟩,
   ⟨(changing id (fun g => { g with inbox := [start0.bytes] })), start0.bytes, EpochStart.ofBytes start0.bytes,
    ⟨3, 1, false, 0, true, none, 0⟩, by decide⟩,
   ⟨after 1000000 (changing id id), ⟨3, 1, false, 0, true, none, 0⟩, by decide⟩,
   ⟨after 2000000 (changing id (fun g => { g with node := 1 })), ⟨3, 1, false, 0, true, none, 0⟩, by decide⟩,
   ⟨after 2000000 (changing (fun c => { c with start := some { start0 with merge := true, snaps := [(1, 7)] } }) id),
    ⟨3, 1, false, 0, true, some { start0 with merge := true, snaps := [(1, 7)] }, 0⟩, { start0 with merge := true, snaps := [(1, 7)] },
    by decide⟩,
   ⟨changing (fun c => { c with start := some start0 }) (fun g => { g with member := true, installed := true }),
    ⟨3, 1, false, 0, true, some start0, 0⟩, start0, by decide⟩,
   ⟨changing (fun c => { c with start := some start0 }) id, ⟨3, 1, false, 0, true, some start0, 0⟩, start0, by decide⟩,
   ⟨changing (fun c => { c with start := some start0 }) (fun g => { g with node := 15 }),
    ⟨3, 1, false, 0, true, some start0, 0⟩, start0, by decide⟩⟩

def snapHead : List Byte := List.replicate 60 0
def snapBody : List Byte := List.replicate 640 0
def snapImage : List Byte := snapHead ++ (leBytes 4 (crc32 (snapHead ++ snapBody)).toNat ++ snapBody)

theorem witness_GroupJoinComplete :
    (∃ (s : Dev) (r : List Byte), s.powered 5 = true ∧ s.grpRuns = true ∧ s.grp.inbox = [r] ∧ s.grp.en = true ∧ leAt r 0 1 = 5 ∧
      leAt r 1 1 < 16) ∧
    (∃ (s : Dev) (t : Nat), s.powered 5 = true ∧ s.grpRuns = true ∧ s.grp.install = some t ∧ t + 50000000 ≤ s.dt) ∧
    (∃ s : Dev, s.powered 5 = true ∧ s.grpRuns = true ∧ s.grp.en = true ∧ s.grp.joining = true ∧ s.grp.change = none ∧
      s.grp.leaving = none ∧ s.grp.quietAt + 3000000 ≤ s.dt ∧ lowestOf (nodeMask s.joiners) = s.grp.node) :=
  ⟨⟨inboxed [5, 1] id, [5, 1], by decide⟩, ⟨after 50000000 (grpWith (fun g => { g with install := some 0 })), 0, by decide⟩,
   ⟨after 3000000 (grpWith (fun g => { g with en := true, joining := true })), by decide⟩⟩
theorem witness_GroupSnapshotDone : ∃ (s : Dev) (t : Nat) (b : List Byte), s.powered 5 = true ∧ s.grpRuns = true ∧ s.grp.install = some t ∧
    s.anySnapshot = some b :=
  ⟨grpWith (fun g => { g with install := some 0, snaps := [(0, [(0, snapImage)])] }), 0, snapImage, by decide, by decide,
   by decide, by decide +kernel⟩

/-! ## Swallowtail and the buses (11) -/

def stlWith (f : Stl → Stl) : Dev := (on.setReg Reg.stlCfg 0x31).setStl (fun t =>
  f { t with portA := ⟨true, 2, false, 0, 0⟩, portB := ⟨true, 2, false, 0, 0⟩ })
def heard1 : StlSender := { StlSender.reset with known := true }

/-- A clock that an announce message of node 5 offers. -/
def clock5 : PtpVector := ⟨100, 6, 0x20, 0x4E5D, 128, 5, 0, 5, 1⟩
/-- A class-5 duty on both ports, admitted. -/
def netDuty : Duty := ⟨⟨7, 5, 0, 1000000, 0, 0, 0, 0, 0, 0, [3, 0, 100, 0, 1, 0, 0, 0]⟩, none, none, 0, 0⟩
def withNet (d : Dev) : Dev := d.setTlg (fun x => { x with duties := [(7, some netDuty)] })
theorem witness_PortRowsComplete :
    (∃ (s : Dev) (b : Bool), s.powered 8 = true ∧ (s.port b).link = true ∧ (s.port b).failed = true ∧ s.portOn b = true ∧
      (s.port b).upSince + 10000000 ≤ s.dt) ∧
    (∃ (s : Dev) (x : StlTx), s.powered 8 = true ∧ s.stl.tx = [x] ∧ x.ports &&& s.stlPorts ≠ 0 ∧ s.tlg.bwLost = 0) ∧
    (∃ (s y : Dev) (x : StlTx), s.powered 8 = true ∧ s.nextFrame = some x ∧ x.ports &&& s.stlPorts ≠ 0 ∧ s.tlg.bwLost ≠ 0 ∧
      y = [false, true].foldl (Dev.payPort x) (s.setStl (fun t => { t with tx := t.tx.erase x }))) ∧
    (∃ (s : Dev) (n : Fin 16), s.powered 8 = true ∧ (s.stlSender n).known = true ∧ (s.stlSender n).lastValid + 3000000 ≤ s.dt) ∧
    (∃ s : Dev, s.powered 8 = true ∧ s.stl.gm = true ∧ s.syncDue = true) ∧
    (∃ (s : Dev) (b : Bool) (v : PtpVector), s.powered 8 = true ∧ s.portUse b = true ∧ v.source ≠ s.clockId ∧ v.steps < 255) ∧
    (∃ (s : Dev) (b : Bool) (src : Nat), s.powered 8 = true ∧ s.portUse b = true ∧ s.stl.slave = some b ∧
      (s.ptp b).announced.map (·.1.source) = some src) ∧
    (∃ (s : Dev) (b : Bool) (src seq r : Nat) (delay : Int), s.powered 8 = true ∧ s.portUse b = true ∧
      (s.ptp b).sync = some (src, seq, r) ∧ (s.ptp b).delay = some delay ∧ s.stl.slave = some b) ∧
    (∃ (s : Dev) (b : Bool) (seq t1 t2 t4 : Nat), s.powered 8 = true ∧ s.portUse b = true ∧ (s.ptp b).reqAt = some t1 ∧
      (s.ptp b).resp = some (t2, t4) ∧ (s.ptp b).reqSeq = seq) ∧
    (∃ (s y : Dev) (b up full : Bool) (speed : Nat), s.powered 8 = true ∧ y = s.portStatus b up full speed ∧ y.portRate b = s.portRate b) ∧
    (∃ (s y : Dev) (b up full : Bool) (speed : Nat), s.powered 8 = true ∧ y = s.portStatus b up full speed ∧
      y.portRate b ≠ s.portRate b ∧ y.portFails y.tlg.duties b = false) ∧
    (∃ (s y : Dev) (b up full : Bool) (speed : Nat), s.powered 8 = true ∧ y = s.portStatus b up full speed ∧
      y.portRate b ≠ s.portRate b ∧ y.portFails y.tlg.duties b = true ∧ tbit y.tlg.bwLost (b2n b) = false) :=
  ⟨⟨after 10000000 (stlWith (fun t => { t with portA := ⟨true, 2, true, 0, 0⟩ })), false, by decide⟩,
   ⟨stlWith (fun t => { t with tx := [⟨dsc [], [0], 3⟩] }), ⟨dsc [], [0], 3⟩, by decide⟩,
   ⟨(stlWith (fun t => { t with tx := [⟨dsc [], [0], 1⟩] })).setTlg (fun x => { x with bwLost := 1 }), _, ⟨dsc [], [0], 1⟩,
    by decide, by decide, by decide, by decide, rfl⟩,
   ⟨after 3000000 ((stlWith id).setSender 15 heard1), 15, by decide⟩,
   ⟨stlWith (fun t => { t with gm := true }), by decide⟩,
   ⟨stlWith id, true, clock5, by decide⟩,
   ⟨stlWith (fun t => { t with slave := some false, ptpA := { PtpPort.reset with announced := some (clock5, 0) } }), false, 5, by decide⟩,
   ⟨stlWith (fun t => { t with slave := some true, ptpB := { PtpPort.reset with sync := some (5, 9, 100), delay := some 40 } }),
    true, 5, 9, 100, 40, by decide⟩,
   ⟨stlWith (fun t => { t with ptpA := { PtpPort.reset with reqAt := some 8, resp := some (16, 96) } }), false, 0, 8, 16, 96, by decide⟩,
   ⟨stlWith id, _, false, true, true, 2, by decide, rfl, by decide⟩,
   ⟨stlWith id, _, true, true, true, 1, by decide, rfl, by decide, by decide⟩,
   ⟨withNet (stlWith id), _, true, false, true, 2, by decide, rfl, by decide, by decide, by decide⟩⟩

def copyHead : List Byte := [1, 1, 0, 0, 1, 0, 0, 0] ++ leBytes 2 callRecord.length ++ [0, 0]
def copyBytes : List Byte := copyHead ++ (leBytes 4 (crc32 (copyHead ++ callRecord)).toNat ++ callRecord)

theorem witness_GroupFrameCopiesComplete :
    (∃ (s z : Dev) (b : Bool) (bytes record : List Byte), s.powered 8 = true ∧ s.hasGrp = true ∧ s.portUse b = true ∧
      leAt bytes 2 2 = s.grp.groupId ∧ leAt bytes 1 1 < 16 ∧ z = s.closePast (leAt bytes 1 1) ∧ record = (bytes.drop 16).take (leAt bytes 8 2) ∧
      leAt bytes 0 1 = 1 ∧ leAt bytes 8 2 = msgLen (leAt record 0 1) ∧ leAt bytes 8 2 ≠ 0 ∧
      leAt bytes 12 4 = (crc32 (bytes.take 12 ++ record)).toNat ∧
      (z.stlSender (leAt bytes 1 1)).accepts (leAt bytes 4 4) = true) ∧
    (∃ (s z : Dev) (b : Bool) (bytes record : List Byte), s.powered 8 = true ∧ s.hasGrp = true ∧ s.portUse b = true ∧
      leAt bytes 2 2 = s.grp.groupId ∧ leAt bytes 1 1 < 16 ∧ z = s.closePast (leAt bytes 1 1) ∧ record = (bytes.drop 16).take (leAt bytes 8 2) ∧
      leAt bytes 0 1 = 1 ∧ leAt bytes 8 2 = msgLen (leAt record 0 1) ∧ leAt bytes 8 2 ≠ 0 ∧
      leAt bytes 12 4 = (crc32 (bytes.take 12 ++ record)).toNat ∧
      (z.stlSender (leAt bytes 1 1)).accepts (leAt bytes 4 4) = false) ∧
    (∃ (s z y : Dev) (b : Bool) (bytes : List Byte), s.powered 8 = true ∧ s.hasGrp = true ∧ s.portUse b = true ∧
      leAt bytes 2 2 = s.grp.groupId ∧ leAt bytes 1 1 < 16 ∧ z = s.closePast (leAt bytes 1 1) ∧ leAt bytes 0 1 ≠ 1 ∧
      y = (z.setStl (fun t => { t with pcrcErr := satInc 16 t.pcrcErr })).setBit Reg.stlStat 3 true) ∧
    (∃ (s : Dev) (b : Bool) (bytes : List Byte), s.powered 8 = true ∧ s.hasGrp = true ∧ s.portUse b = true ∧
      leAt bytes 2 2 = s.grp.groupId ∧ leAt bytes 1 1 < 16) ∧
    (∃ (s : Dev) (n : Fin 16) (w : StlWindow), s.powered 8 = true ∧ s.pastWindows n = [w]) :=
  ⟨⟨stlWith id, _, false, copyBytes, callRecord, by decide, by decide, by decide, by decide, by decide, rfl, by decide +kernel⟩,
   ⟨(stlWith id).setSender 1 { heard1 with top := 100000 }, _, true, copyBytes, callRecord, by decide, by decide, by decide,
    by decide, by decide, rfl, by decide +kernel⟩,
   ⟨stlWith id, _, _, true, [0, 15, 0, 0], by decide, by decide, by decide, by decide, by decide, rfl, by decide, rfl⟩,
   ⟨stlWith id, true, [1, 15, 0, 0], by decide⟩,
   ⟨after 1 ((stlWith id).setSender 15 { heard1 with windows := [⟨1, false, 0, 0, [], 0, false⟩] }), 15, ⟨1, false, 0, 0, [], 0, false⟩,
    by decide⟩⟩

/-- A broadcast frame of 60 octets. -/
def bcast : List Byte := List.replicate 6 0xFF ++ List.replicate 54 0
theorem witness_HostFramesComplete :
    (∃ (s : Dev) (b : Bool) (bytes : List Byte), s.powered 8 = true ∧ s.portUse b = true ∧ s.hostTakes bytes = true ∧
      (if b then s.stl.fifoB else s.stl.fifoA).length < 32) ∧
    (∃ (s : Dev) (b : Bool) (bytes : List Byte), s.powered 8 = true ∧ s.portUse b = true ∧ s.hostTakes bytes = true ∧
      32 ≤ (if b then s.stl.fifoB else s.stl.fifoA).length ∧ s.bit Reg.stlStat 2 = true) ∧
    (∃ (s : Dev) (b : Bool) (bytes : List Byte), s.powered 8 = true ∧ s.portUse b = true ∧ s.hostTakes bytes = true ∧
      32 ≤ (if b then s.stl.fifoB else s.stl.fifoA).length ∧ s.bit Reg.stlStat 2 = false) ∧
    (∃ (s y : Dev) (d : Desc) (frame b : List Byte), s.powered 8 = true ∧ s.isInFlight d = true ∧
      s.hiu.d3hot = false ∧ d.object = 0 ∧ y = s.charge d.qp frame.length ∧
      60 ≤ bitsOf (d.w 5) 10 0 ∧ bitsOf (d.w 5) 10 0 ≤ 1518 ∧ bitsOf (d.w 5) 17 16 ≠ 0 ∧
      b = (y.fetch d (d.w64 3) frame).take (bitsOf (d.w 5) 10 0) ∧ reservedType b = false ∧
      y.addrOk d (d.w64 3) (bitsOf (d.w 5) 10 0) = true) ∧
    (∃ (s : Dev) (d : Desc), s.powered 8 = true ∧ s.isInFlight d = true ∧ d.object = 0 ∧ s.addrOk d (d.w64 3) 1536 = true) ∧
    (∃ s : Dev, s.powered 8 = true ∧ s.powered 7 = true ∧ s.hiu.d3hot = false ∧ bitOf (s.reg Reg.stlCfg) 0 = false) :=
  ⟨⟨stlWith (fun t => { t with fifoA := List.replicate 31 ⟨bcast, 0⟩ }), false, bcast, by decide⟩,
   ⟨(stlWith (fun t => { t with fifoB := List.replicate 32 ⟨bcast, 0⟩ })).setBit Reg.stlStat 2 true, true, bcast, by decide⟩,
   ⟨stlWith (fun t => { t with fifoB := List.replicate 32 ⟨bcast, 0⟩ }), true, bcast, by decide⟩,
   ⟨on, _, dsc [0, 0, 0, 0, 0, 0x1003C], bcast, _, by decide, by decide, by decide, by decide, rfl, by decide, by decide, by decide, rfl, by decide,
    by decide⟩,
   ⟨on, dsc [], by decide⟩, ⟨on, by decide⟩⟩

def canWith (f : Can → Can) : Dev := ((on.setReg (Reg.canCfg 0) 1).setReg (Reg.canFid 0 0) 0x40000000).modCan 0 f
def frame0 : CanFrame := ⟨0, 0, [1]⟩
def sending : CanTx := ⟨dsc [], frame0, 0, some 0, none⟩
theorem witness_CanSpiRowsComplete_CanRows :
    (∃ (s y z : Dev) (n : Fin 4) (f : CanFrame) (r : Nat), s.powered 8 = true ∧ s.canOn n = true ∧ (s.can n).state < 2 ∧
      (CanFrame.fdf f = true → s.bit (Reg.canCfg n) 1 = true) ∧ y = s.modCan n (fun c => { c with rec_ := min 255 r }) ∧
      z = y.canState n (canErrState (y.can n).tec r) ∧ (List.range 32).find? (fun k => z.canMatch n k f) = none) ∧
    (∃ (s y z : Dev) (n : Fin 4) (f : CanFrame) (r k : Nat), s.powered 8 = true ∧ s.canOn n = true ∧ (s.can n).state < 2 ∧
      (CanFrame.fdf f = true → s.bit (Reg.canCfg n) 1 = true) ∧ y = s.modCan n (fun c => { c with rec_ := min 255 r }) ∧
      z = y.canState n (canErrState (y.can n).tec r) ∧ (List.range 32).find? (fun k => z.canMatch n k f) = some k ∧
      (z.can n).rx.length < 64) ∧
    (∃ (s y z : Dev) (n : Fin 4) (f : CanFrame) (r k : Nat), s.powered 8 = true ∧ s.canOn n = true ∧ (s.can n).state < 2 ∧
      (CanFrame.fdf f = true → s.bit (Reg.canCfg n) 1 = true) ∧ y = s.modCan n (fun c => { c with rec_ := min 255 r }) ∧
      z = y.canState n (canErrState (y.can n).tec r) ∧ (List.range 32).find? (fun k => z.canMatch n k f) = some k ∧
      64 ≤ (z.can n).rx.length) ∧
    (∃ (s : Dev) (n : Fin 4) (x : CanTx), s.powered 8 = true ∧ (s.can n).tx.find? (·.attempt.isSome) = some x ∧ x.abort = none) ∧
    (∃ (s : Dev) (n : Fin 4), s.powered 8 = true ∧ (s.can n).state = 3) ∧
    (∃ (s y : Dev) (d : Desc) (img : HostBytes) (f : CanFrame), s.powered 8 = true ∧ s.isInFlight d = true ∧ s.hiu.d3hot = false ∧
      y = s.charge d.qp img.length ∧ y.canCheck d = none ∧
      f = CanFrame.ofBytes (y.fetch d (d.w64 3) img) ∧ y.addrOk d (d.w64 3) 80 = true ∧
      canLenOk (CanFrame.fdf f) (leAt (y.fetch d (d.w64 3) img) 5 1) = true ∧
      (CanFrame.fdf f = true → y.bit (Reg.canCfg (bitsOf d.object 7 0)) 1 = true) ∧
      (CanFrame.brs f = true → y.bit (Reg.canCfg (bitsOf d.object 7 0)) 2 = true) ∧
      y.bit (Reg.canCfg (bitsOf d.object 7 0)) 4 = false) ∧
    (∃ (s : Dev) (d : Desc), s.powered 8 = true ∧ s.isInFlight d = true ∧ s.canCheck d = none ∧ s.addrOk d (d.w64 3) 80 = true ∧
      (s.can (bitsOf d.object 7 0)).state = 2) ∧
    (∃ (s : Dev) (n : Fin 4), s.powered 8 = true ∧ s.powered 7 = true ∧ s.hiu.d3hot = false ∧ (n : Nat) < s.cans ∧
      bitOf (s.reg (Reg.canCfg n)) 0 = false ∧ (s.can n).state ≠ 2) :=
  ⟨⟨on.setReg (Reg.canCfg 3) 1, _, _, 3, frame0, 127, by decide, by decide, by decide, by decide, rfl, rfl, by decide⟩,
   ⟨canWith (fun c => { c with rx := List.replicate 63 ⟨frame0, 0, 0, 0⟩ }), _, _, 0, frame0, 128, 0, by decide, by decide, by decide,
    by decide, rfl, rfl, by decide, by decide⟩,
   ⟨canWith (fun c => { c with rx := List.replicate 64 ⟨frame0, 0, 0, 0⟩ }), _, _, 0, frame0, 0, 0, by decide, by decide, by decide,
    by decide, rfl, rfl, by decide, by decide⟩,
   ⟨canWith (fun c => { c with tx := [sending] }), 0, sending, by decide⟩,
   ⟨canWith (fun c => { c with state := 3 }), 0, by decide⟩,
   ⟨on, _, dsc [0, 0, 3], List.replicate 80 0, _, by decide, by decide, by decide, rfl, by decide, rfl, by decide, by decide, by decide, by decide, by decide⟩,
   ⟨canWith (fun c => { c with state := 2 }), dsc [], by decide⟩, ⟨on, 3, by decide⟩⟩

def spiWith (f : Spi → Spi) : Dev := (on.setReg (Reg.spiCfg 1) 0x01010A00).modSpi 1 f
theorem witness_CanSpiRowsComplete_SpiRows :
    (∃ (s : Dev) (m : Fin 2), s.powered 8 = true ∧ (s.spi m).run = true ∧ (s.spi m).period = none ∧ (s.spi m).stopAsked = false ∧
      s.spiDue m = true ∧ (s.spi m).staged = none) ∧
    (∃ (s : Dev) (m : Fin 2) (p : List SpiTxn) (d : Desc), s.powered 8 = true ∧ (s.spi m).run = true ∧ (s.spi m).period = none ∧
      (s.spi m).stopAsked = false ∧ s.spiDue m = true ∧ (s.spi m).staged = some (p, d)) ∧
    (∃ (s : Dev) (m : Fin 2) (t : Nat), s.powered 8 = true ∧ (s.spi m).period = some t ∧
      t + spiTime (s.fld (Reg.spiCfg m) 15 8) ((s.spi m).program.take (s.fld (Reg.spiCfg m) 27 24)) ≤ s.dt) ∧
    (∃ (s y : Dev) (d : Desc) (img : HostBytes) (p : List SpiTxn) (m : Nat), s.powered 8 = true ∧ s.isInFlight d = true ∧
      s.hiu.d3hot = false ∧ m = d.object.toNat ∧ m < 2 ∧
      y = s.charge d.qp img.length ∧ spiParse (bitsOf (y.reg (Reg.spiCfg m)) 27 24) (y.fetch d (d.w64 3) img) = some p ∧
      y.addrOk d (d.w64 3) (36 * bitsOf (y.reg (Reg.spiCfg m)) 27 24) = true ∧ spiFits (y.reg (Reg.spiCfg m)) p = true ∧
      (y.spi m).staged = none) ∧
    (∃ (s : Dev) (d : Desc) (x : Spi), s.powered 8 = true ∧ s.isInFlight d = true ∧ d.object.toNat < 2 ∧ x = s.spi d.object.toNat ∧
      s.addrOk d (d.w64 3) x.result.length = true) ∧
    (∃ (s : Dev) (m : Fin 2) (v w : Word), s.powered 8 = true ∧ s.powered 7 = true ∧ s.hiu.d3hot = false ∧
      bitOf (s.reg (Reg.spiCfg m)) 0 = false ∧ w = writeBits (s.reg (Reg.spiCfg m)) v 0xF3FFF07 0 ∧ bitOf w 0 = true ∧
      spiFits w (s.spi m).next = true) :=
  ⟨⟨spiWith (fun x => { x with run := true }), 1, by decide⟩,
   ⟨spiWith (fun x => { x with run := true, staged := some ([], dsc []) }), 1, [], dsc [], by decide⟩,
   ⟨after 1000 (spiWith (fun x => { x with period := some 5 })), 1, 5, by decide⟩,
   ⟨spiWith id, _, dsc [0, 0, 1], [0, 2] ++ List.replicate 34 0, [⟨0, [0, 0]⟩], 1, by decide, by decide, by decide, by decide, by decide, rfl, by decide⟩,
   ⟨on, dsc [0, 0, 1], _, by decide, by decide, by decide, rfl, by decide⟩, ⟨spiWith id, 1, 0x01010A01, 0x01010A01, by decide⟩⟩

/-! ## Engines and the arbiter (12) -/

def krn0 : Kernel := ⟨0, 0, 4, 1, 1, 2, 1, 0, 1, [0x00000000, 0x02000000], [0], 9⟩
def duty0 : DutyDesc := ⟨256, 1, 0, 1, 0, 0, 40000, 0, 0, 1, List.replicate 32 0⟩
def job0 (e : Nat) : Job := ⟨duty0, krn0, false, 0, 40000, 9, 4 * e, 0, 0⟩
def copy0 (e : Nat) (o : List Word) : CopyOut := ⟨job0 e, e, 10, o, [0]⟩
/-- The block with its engines in service, duty 256 admitted on kernel 0, and a frame at its phase zero. -/
def engOn (f : Dev → Dev) : Dev :=
  f (((List.range 8).foldl (fun (t : Dev) e => t.setEngine e { Engine.reset with state := 1 })
    { on with lpe := { on.lpe with frames := 5 } }).setKrn (fun k => { k with store := [(0, some krn0)] }))
def withDuty (d : Dev) : Dev :=
  d.setTlg (fun x => { x with duties := [(256, some ⟨duty0, some ⟨0, 0, none, false⟩, some ⟨1, 0, none, false⟩, 0, 0⟩)] })
def per0 (f : Period → Period) (d : Dev) : Dev := d.setPeriod 256 (some (f ⟨duty0, 0, 40000, [0], [0], none, none, false, none⟩))
def runs (f : Job → Job) (d : Dev) : Dev := d.setEngine 0 { Engine.reset with state := 1, run0 := some (f (job0 0)) }

def period0 : Period := ⟨duty0, 0, 40000, [0], [0], none, none, false, none⟩
def withCopy (c : CopyOut) (d : Dev) : Dev := { d with eng := { d.eng with committed := [c] } }
theorem witness_EngineRowsComplete_Release :
    ∃ (s : Dev) (id : Nat) (d : Duty) (k : Kernel) (src : Copy), s.powered 6 = true ∧ s.duty id = some d ∧
      s.dutyKernel d.desc = some k ∧ s.pmu.suspended = false ∧ s.releasesNow d = true ∧ (d.primary <|> d.standby) = some src :=
  ⟨engOn withDuty, 256, ⟨duty0, some ⟨0, 0, none, false⟩, some ⟨1, 0, none, false⟩, 0, 0⟩, krn0, ⟨0, 0, none, false⟩, by decide⟩

theorem witness_EngineRowsComplete_Copies :
    (∃ (s : Dev) (c : CopyOut), nextCopy s.eng.committed = some c ∧ s.copyValid c = false) ∧
    (∃ (s t : Dev) (c : CopyOut) (p : Period), nextCopy s.eng.committed = some c ∧ s.copyValid c = true ∧
      t = ({ s with eng := { s.eng with committed := s.eng.committed.erase c } } : Dev) ∧
      t.period c.job.desc.id = some p ∧ p.first = none) ∧
    (∃ (s t : Dev) (c f : CopyOut) (p : Period), nextCopy s.eng.committed = some c ∧ s.copyValid c = true ∧
      t = ({ s with eng := { s.eng with committed := s.eng.committed.erase c } } : Dev) ∧
      t.period c.job.desc.id = some p ∧ p.first = some f ∧ f.out = c.out) ∧
    (∃ (s t : Dev) (c f : CopyOut) (p : Period), nextCopy s.eng.committed = some c ∧ s.copyValid c = true ∧
      t = ({ s with eng := { s.eng with committed := s.eng.committed.erase c } } : Dev) ∧
      t.period c.job.desc.id = some p ∧ p.first = some f ∧ f.out ≠ c.out) :=
  ⟨⟨withCopy { copy0 0 [1] with at_ := 40000 } (engOn (per0 id)), { copy0 0 [1] with at_ := 40000 }, by decide⟩,
   ⟨withCopy (copy0 0 [1]) (engOn (per0 id)), _, copy0 0 [1], period0, by decide, by decide, rfl, by decide⟩,
   ⟨withCopy (copy0 1 [1]) (engOn (per0 (fun p => { p with first := some (copy0 0 [1]) }))), _, copy0 1 [1], copy0 0 [1],
    { period0 with first := some (copy0 0 [1]) }, by decide, by decide, rfl, by decide⟩,
   ⟨withCopy (copy0 1 [2]) (engOn (per0 (fun p => { p with first := some (copy0 0 [1]) }))), _, copy0 1 [2], copy0 0 [1],
    { period0 with first := some (copy0 0 [1]) }, by decide, by decide, rfl, by decide⟩⟩

theorem witness_EngineRowsComplete_Deadline :
    (∃ (s : Dev) (id : Nat) (p : Period), s.period id = some p ∧ p.closed = false ∧ p.deadline ≤ s.dt ∧ p.first.isSome = true) ∧
    (∃ (s y : Dev) (id : Nat) (p : Period), s.period id = some p ∧ p.closed = false ∧ p.deadline ≤ s.dt ∧
      y = s.setPeriod id (some { p with closed := true }) ∧ p.first = none ∧
      y.eng.committed.any (fun c => c.job.desc.id == id && y.copyValid c) = true) ∧
    (∃ (s y : Dev) (id : Nat) (p : Period), s.period id = some p ∧ p.closed = false ∧ p.deadline ≤ s.dt ∧
      y = s.setPeriod id (some { p with closed := true }) ∧ p.first = none ∧
      y.eng.committed.any (fun c => c.job.desc.id == id && y.copyValid c) = false) :=
  ⟨⟨after 40000 (engOn (per0 (fun p => { p with first := some (copy0 0 [1]) }))), 256, { period0 with first := some (copy0 0 [1]) },
    by decide⟩,
   ⟨after 40000 (withCopy (copy0 0 [1]) (engOn (per0 id))), _, 256, period0, by decide, by decide, by decide, rfl, by decide⟩,
   ⟨after 40000 (engOn (per0 id)), _, 256, period0, by decide, by decide, by decide, rfl, by decide⟩⟩

theorem witness_EngineRowsComplete_Engines :
    (∃ (s : Dev) (id : Nat) (p : Period) (f g : CopyOut) (r : Rerun) (out state : List Word), s.period id = some p ∧ p.first = some f ∧ p.differ = some g ∧
      s.reexecute p f.job out state = some r) ∧
    (∃ (s : Dev) (e : Fin 16), s.inService e = true) ∧
    (∃ (s : Dev) (e : Fin 16) (l : Bool) (j : Job), (s.engine e).run l = some j ∧ j.cost ≤ (s.engine e).ranFor l j s.dt) :=
  ⟨⟨engOn (per0 (fun p => { p with first := some (copy0 0 [1]), differ := some (copy0 1 [2]) })), 256,
    { period0 with first := some (copy0 0 [1]), differ := some (copy0 1 [2]) }, copy0 0 [1], copy0 1 [2], _, [], [], by decide, by decide,
    by decide, rfl⟩,
   ⟨engOn id, 7, by decide⟩, ⟨after 100 (engOn (runs id)), 0, false, job0 0, by decide⟩⟩

theorem witness_EngineRowsComplete_EngineCommands :
    (∃ (s : Dev) (d : Desc) (c : Nat), s.isInFlight d = true ∧ c = bitsOf d.object 1 0 ∧ c < s.clusters ∧ bitsOf d.object 31 2 = 0 ∧
      kget none s.eng.rising c = none ∧ s.clusterUp c = false) ∧
    (∃ (s : Dev) (d : Desc) (c : Nat), s.isInFlight d = true ∧ c = bitsOf d.object 1 0 ∧ c < s.clusters ∧ bitsOf d.object 31 2 = 0 ∧
      kget none s.eng.rising c = none ∧ s.clusterUp c = true ∧ (c < 2 → s.clusterUp (1 - c) = true) ∧ s.tlgBusy = false ∧
      s.eng.falling = none) ∧
    (∃ (s : Dev) (d : Desc) (c : Nat), s.isInFlight d = true ∧ c = bitsOf d.object 1 0 ∧ c < s.clusters ∧ bitsOf d.object 31 2 = 0 ∧
      s.clusterUp c = true ∧ c < 2 ∧ s.clusterUp (1 - c) = false) ∧
    (∃ (s : Dev) (c : Fin 4) (d : Option Desc), kget none s.eng.rising c = some d) :=
  ⟨⟨{ on with eng := { on.eng with pwr := 1 } }, dsc [0, 0, 1], 1, by decide⟩, ⟨on, dsc [0, 0, 1], 1, by decide⟩,
   ⟨{ on with eng := { on.eng with pwr := 2 } }, dsc [0, 0, 1], 1, by decide⟩,
   ⟨{ on with eng := { on.eng with rising := [(3, some none)] } }, 3, none, by decide⟩⟩

theorem witness_EngineRestartRule :
    (∃ (s : Dev) (d : Desc) (e : Nat) (x : Engine), s.isInFlight d = true ∧ e = bitsOf d.object 3 0 ∧ e < s.engines ∧ bitsOf d.object 31 4 = 0 ∧
      x = s.engine e ∧ x.state = 2) ∧
    (∃ (s : Dev) (d : Desc) (e : Nat) (x : Engine), s.isInFlight d = true ∧ e = bitsOf d.object 3 0 ∧ e < s.engines ∧ bitsOf d.object 31 4 = 0 ∧
      x = s.engine e ∧ x.state = 3) ∧
    (∃ (s : Dev) (d : Desc) (e : Nat) (x : Engine), s.isInFlight d = true ∧ e = bitsOf d.object 3 0 ∧ e < s.engines ∧ bitsOf d.object 31 4 = 0 ∧
      x = s.engine e ∧ x.state = 1) :=
  ⟨⟨on.setEngine 11 { Engine.reset with state := 2 }, dsc [0, 0, 11], 11, _, by decide, by decide, by decide, by decide, rfl, by decide⟩,
   ⟨on.setEngine 0 { Engine.reset with state := 3 }, dsc [], 0, _, by decide, by decide, by decide, by decide, rfl, by decide⟩,
   ⟨engOn id, dsc [], 0, _, by decide, by decide, by decide, by decide, rfl, by decide⟩⟩

/-! ## Kernels (13) -/

/-- The engine 0 runs a job whose next word is this one. -/
def voled (w : Word) : Dev := engOn (fun d => d.setEngine 0 { Engine.reset with
  state := 1, run0 := some { job0 0 with kernel := { krn0 with code := [w] } }, code0 := [w] })

theorem witness_VolerRowsRun :
    (∃ (s : Dev) (j : Job) (l : Bool) (i : Voler) (c : Ctx), s.nextVoler 0 = some (j, l, i) ∧ i ≠ .end_ ∧
      Ctx.exec ⟨(s.engine 0).bank l, (s.engine 0).mem, j.base, j.kernel.region⟩ i = some c) ∧
    (∃ (s : Dev) (j : Job) (l : Bool) (i : Voler), s.nextVoler 0 = some (j, l, i) ∧ i ≠ .end_ ∧
      Ctx.exec ⟨(s.engine 0).bank l, (s.engine 0).mem, j.base, j.kernel.region⟩ i = none) ∧
    (∃ (s : Dev) (j : Job) (l : Bool), s.nextVoler 0 = some (j, l, .end_)) :=
  ⟨⟨voled 0, _, _, _, _, rfl, by decide, rfl⟩,
   ⟨engOn (fun d => d.setEngine 0 { Engine.reset with state := 1, run0 := some { job0 0 with base := 8, kernel := { krn0 with code := [0x20500008] } }, code0 := [0x20500008] }),
    _, _, _, rfl, by decide, rfl⟩,
   ⟨voled 0x02000000, _, _, rfl⟩⟩

theorem witness_VolerAluResults (c : Ctx) :
    (∃ (i : Voler) (v : Int), i = .add 15 2 3 true ∧ v = c.x.dVal 2 + c.x.dVal 3) ∧
    (∃ (i : Voler) (v : Int), i = .sub 0 15 3 false ∧ v = c.x.dVal 15 - c.x.dVal 3) ∧
    (∃ (i : Voler) (v : Int), i = .neg 1 1 true ∧ v = -c.x.dVal 1) ∧
    (∃ (i : Voler) (v : Int), i = .abs 1 2 true ∧ v = (c.x.dVal 2).natAbs) ∧
    (∃ (i : Voler) (v : Int) (k : Fin 24), k = 23 ∧ i = .shl 1 2 true k ∧ v = c.x.dVal 2 * 2 ^ (k : Nat)) ∧
    (∃ (i : Voler) (v : Int), i = .addi 1 2 false 0x800 ∧ v = c.x.dVal 2 + (0x800 : BitVec 12).toInt) :=
  ⟨⟨_, _, rfl, rfl⟩, ⟨_, _, rfl, rfl⟩, ⟨_, _, rfl, rfl⟩, ⟨_, _, rfl, rfl⟩, ⟨_, _, _, rfl, rfl, rfl⟩, ⟨_, _, rfl, rfl⟩⟩
theorem witness_VolerAccumulates (c : Ctx) :
    (∃ (i : Voler) (v : Int), i = .mac 3 true true 15 0 ∧ v = c.x.accBase 3 true + signed true (c.x.product (c.x.dVal 15) (c.x.dVal 0))) ∧
    (∃ (i : Voler) (v : Int), i = .mac2 0 false false 1 2 3 4 ∧ v = c.x.accBase 0 false +
      signed false (c.x.product (c.x.dVal 1) (c.x.dVal 2) + c.x.product (c.x.dVal 3) (c.x.dVal 4))) ∧
    (∃ (i : Voler) (v : Int), i = .adda 0 3 true ∧ v = (c.x.acc 0).toInt + signed true (c.x.acc 3).toInt) :=
  ⟨⟨_, _, rfl, rfl⟩, ⟨_, _, rfl, rfl⟩, ⟨_, _, rfl, rfl⟩⟩
theorem witness_VolerDecodeEncode : Voler.encodable (.loop true 127 0xFFFF) = true ∧ Voler.encodable .end_ = true := by decide
theorem witness_VolerEncodeDecode : ∃ (w : Word) (i : Voler), decodeVoler w = some i := ⟨0x30123800, _, rfl⟩

/-- Code words written out from Table 13-3. -/
theorem test_voler_words : decodeVoler 0x00000000 = some .nop ∧ decodeVoler 0x02000000 = some .end_ ∧
    decodeVoler 0x30123800 = some (.add 1 2 3 true) ∧ decodeVoler 0x01850010 = some (.loop true 5 16) ∧
    decodeVoler 0x20500028 = none ∧ decodeVoler 0x2050000B = some (.ld 5 ⟨1, 3⟩) ∧ decodeVoler 0xFF000000 = none := by decide

/-- A kernel image of two words, NOP and END, with one output word. -/
def krnHead : List Byte :=
  [0x56, 0x4F, 0x4C, 0x4B, 1, 0, 1, 0, 2, 0, 4, 0, 1, 0, 1, 0, 2, 0, 1, 0, 0, 0, 1, 0, 0, 0, 0, 0, 7, 0, 0, 0] ++ List.replicate 28 0
def krnCode : List Byte := [0, 0, 0, 0, 0, 0, 0, 2]
def krnImage : List Byte := krnHead ++ (leBytes 4 (crc32 (krnHead ++ krnCode)).toNat ++ krnCode)

theorem witness_KernelCommandsComplete :
    (∃ (s y : Dev) (d : Desc) (img b : List Byte) (h : Nat) (k : Kernel), s.isInFlight d = true ∧ s.hiu.d3hot = false ∧ d.object = 0 ∧ y = s.charge d.qp img.length ∧
      y.addrOk d (d.w64 3) (d.w 5).toNat = true ∧ b = (y.fetch d (d.w64 3) img).take (d.w 5).toNat ∧ y.freeHandle = some h ∧
      analyse b (d.w 5).toNat = .inr k) ∧
    (∃ (s : Dev) (d : Desc) (k : Kernel), s.isInFlight d = true ∧ bitsOf d.object 31 6 = 0 ∧ s.kernel (bitsOf d.object 5 0) = some k) :=
  ⟨⟨on, _, dsc [0, 0, 0, 0, 0, 72], krnImage, _, 0, ⟨7, 0, 4, 1, 1, 2, 1, 0, 1, [0, 0x02000000], [], 9⟩, by decide, by decide, by decide, rfl, by decide, rfl, by decide,
    by decide +kernel⟩,
   ⟨(engOn id).setKrn (fun k => { k with store := [(63, some krn0)] }), dsc [0, 0, 63], krn0, by decide⟩⟩

theorem witness_KernelUnloadRule :
    (∃ (s : Dev) (d : Desc) (h : Nat) (k : Kernel), s.isInFlight d = true ∧ h = bitsOf d.object 5 0 ∧ bitsOf d.object 31 6 = 0 ∧ s.kernel h = some k ∧
      s.handleUsed h = false) ∧
    (∃ (s : Dev) (d : Desc) (h id : Nat) (k : Kernel) (x : Duty), s.isInFlight d = true ∧ h = bitsOf d.object 5 0 ∧ bitsOf d.object 31 6 = 0 ∧
      s.kernel h = some k ∧ kget none s.tlg.duties id = some x ∧ x.desc.cls = 1 ∧ x.desc.handle = h) ∧
    (∃ (s : Dev) (d : Desc) (h : Nat), s.isInFlight d = true ∧ h = bitsOf d.object 5 0 ∧ bitsOf d.object 31 6 = 0 ∧ s.kernel h = none) :=
  ⟨⟨engOn id, dsc [], 0, krn0, by decide⟩,
   ⟨engOn withDuty, dsc [], 0, 256, krn0, ⟨duty0, some ⟨0, 0, none, false⟩, some ⟨1, 0, none, false⟩, 0, 0⟩, by decide⟩,
   ⟨on, dsc [0, 0, 63], 63, by decide⟩⟩

/-- The ride-quality kernel of Table 13-6: its words decode as the table says, and its cycle count is 60. -/
def rideCode : List Word :=
  [0x12480000, 0x120A0000, 0x20600002, 0x12440000, 0x12060021, 0x21600001, 0x12060040, 0x12400000, 0x12020001, 0x10400000,
   0x10500000, 0x49040000, 0x01010020, 0x44105160, 0x4B207000, 0x124C0000, 0x120E0043, 0x2170000B, 0x2140000B, 0x21500003, 0x02000000]
theorem test_ride_words : rideCode.map decodeVoler =
    [some (.lda .m 2 false 0), some (.lda .p 2 true 0), some (.ld 6 ⟨0, 2⟩), some (.lda .m 1 false 0), some (.lda .p 1 true 33),
     some (.st 6 ⟨0, 1⟩), some (.lda .p 1 true 64), some (.lda .m 0 false 0), some (.lda .p 0 true 1), some (.ldi 4 0),
     some (.ldi 5 0), some (.accld 0 4 0), some (.loop false 1 32), some (.tapx 0 false true 0 1 4 5 2 false),
     some (.rda 0 true .limited 7), some (.lda .m 3 false 0), some (.lda .p 3 true 67), some (.st 7 ⟨1, 3⟩), some (.st 4 ⟨1, 3⟩),
     some (.st 5 ⟨0, 3⟩), some .end_] := by decide
theorem test_ride_cycles : codeCheck rideCode 70 = .inr 60 := by decide +kernel

/-! ## The Timing Ledger (14) -/

def tlgHead : List Byte := [1, 0, 1, 0] ++ List.replicate 8 0
def tlgImageOf (b : List Byte) : List Byte := tlgHead ++ (leBytes 4 (crc32 (tlgHead ++ b)).toNat ++ b)
def removal : List Byte := [0, 1] ++ List.replicate 20 0 ++ [2] ++ List.replicate 41 0
/-- An image that removes duty 256, and one that adds a duty for engines the part has not. -/
def tlgImage : List Byte := tlgImageOf removal
def foreignImage : List Byte := tlgImageOf ([1, 1, 1] ++ List.replicate 17 0 ++ [0, 0xF0, 1] ++ List.replicate 41 0)
def tasked (t : LedgerTask) : Dev := (engOn withDuty).setTlg (fun x => { x with tasks := [(t, none)] })
def plan0 : LedgerPlan := ⟨[], [], [], [], []⟩
def pended (p : Option LedgerPlan) : Dev :=
  after 50000 (on.setTlg (fun x => { x with pending := some ⟨.replace, none, 0, plan0, p, 0⟩ }))
theorem plan_of (v : Verdict) (h : (match v with | .plan _ _ => true | _ => false) = true) : ∃ p q, v = .plan p q := by
  cases v with
  | plan p q => exact ⟨p, q, rfl⟩
  | refuse m => cases h
  | fused => cases h

theorem witness_LedgerRowsComplete_LedgerEvents :
    (∃ (s y : Dev) (b : List Byte) (p : LedgerPlan) (q : Option LedgerPlan), s.tlg.tasks = [(.config b, none)] ∧ s.tlg.pending = none ∧
      y = s.setTlg (fun x => { x with tasks := [] }) ∧ y.analyseTask (.config b) = .plan p q) ∧
    (∃ (y : Dev) (t : LedgerTask) (d : Option Desc) (p : LedgerPlan) (q : Option LedgerPlan),
      (List.range 4).any (fun c => y.retained c && LedgerCommit.needs ⟨t, d, y.dt, p, q, y.dt⟩ c) = false) ∧
    (∃ (s y : Dev) (b : List Byte) (m : Misfit), s.tlg.tasks = [(.config b, none)] ∧ s.tlg.pending = none ∧
      y = s.setTlg (fun x => { x with tasks := [] }) ∧ y.analyseTask (.config b) = .refuse m) ∧
    (∃ (s y : Dev) (b : List Byte) (p : LedgerPlan) (q : Option LedgerPlan), s.tlg.tasks = [(.check b, none)] ∧
      y = s.setTlg (fun x => { x with tasks := [] }) ∧ y.analyseTask (.check b) = .plan p q) ∧
    (∃ (s y : Dev) (b : List Byte) (m : Misfit), s.tlg.tasks = [(.check b, none)] ∧
      y = s.setTlg (fun x => { x with tasks := [] }) ∧ y.analyseTask (.check b) = .refuse m) ∧
    (∃ (s y : Dev) (b : List Byte), s.tlg.tasks = [(.check b, none)] ∧
      y = s.setTlg (fun x => { x with tasks := [] }) ∧ y.analyseTask (.check b) = .fused) ∧
    (∃ (s : Dev) (b : List Byte), s.tlg.tasks = [(.config b, none)] ∧ s.tlg.pending.isSome = true) ∧
    (∃ s : Dev, s.tlg.tasks = [] ∧ s.tlg.replace = true ∧ s.tlg.pending = none) ∧
    (∃ (s : Dev) (c : LedgerCommit), s.tlg.pending = some c ∧ s.commitDue c = true ∧ c.second = none) ∧
    (∃ (s : Dev) (c : LedgerCommit) (p : LedgerPlan), s.tlg.pending = some c ∧ s.commitDue c = true ∧ c.second = some p) :=
  ⟨(plan_of ((engOn withDuty).analyseTask (.config tlgImage)) (by decide +kernel)).elim fun p h => h.elim fun q h =>
      ⟨tasked (.config tlgImage), engOn withDuty, tlgImage, p, q, rfl, rfl, rfl, h⟩,
   ⟨on, .replace, none, plan0, none, by decide⟩,
   ⟨tasked (.config []), _, [], ⟨1, 0xFFFF, 0, 0, 0, 0⟩, rfl, rfl, rfl, by decide⟩,
   (plan_of ((engOn withDuty).analyseTask (.check tlgImage)) (by decide +kernel)).elim fun p h => h.elim fun q h =>
      ⟨tasked (.check tlgImage), engOn withDuty, tlgImage, p, q, rfl, rfl, h⟩,
   ⟨tasked (.check []), _, [], ⟨1, 0xFFFF, 0, 0, 0, 0⟩, rfl, rfl, by decide⟩,
   ⟨tasked (.check foreignImage), engOn withDuty, foreignImage, rfl, rfl, by decide +kernel⟩,
   ⟨(pended none).setTlg (fun x => { x with tasks := [(.config [], none)] }), [], rfl, rfl⟩,
   ⟨on.setTlg (fun x => { x with replace := true }), by decide⟩,
   ⟨pended none, ⟨.replace, none, 0, plan0, none, 0⟩, by decide⟩,
   ⟨pended (some plan0), ⟨.replace, none, 0, plan0, some plan0, 0⟩, plan0, by decide⟩⟩

theorem witness_LedgerRowsComplete_LedgerCommands :
    (∃ (s : Dev) (d : Desc) (img : HostBytes) (y : Dev), s.isInFlight d = true ∧ s.hiu.d3hot = false ∧ d.object = 0 ∧ y = s.charge d.qp img.length ∧
      y.addrOk d (d.w64 3) (d.w 5).toNat = true ∧ y.tlgBusy = false) ∧
    (∃ (s : Dev) (d : Desc) (x : Duty), s.isInFlight d = true ∧ s.dutyNamed (bitsOf d.object 15 0) = some x ∧ bitsOf d.object 31 16 = 0 ∧
      s.addrOk d (d.w64 3) 64 = true) ∧
    (∃ (s : Dev) (d : Desc) (x : Duty), s.isInFlight d = true ∧ s.duty (bitsOf d.object 15 0) = some x ∧ bitsOf d.object 31 16 = 0 ∧
      256 ≤ bitsOf d.object 15 0 ∧ 1 ≤ (d.w 3).toNat ∧ (d.w 3).toNat ≤ 3 ∧
      bitsOf (d.w 4) 31 16 = 0 ∧ (tbit (d.w 3).toNat 0 = true → x.primary.isSome = true) ∧
      (tbit (d.w 3).toNat 1 = true → x.standby.isSome = true) ∧ s.tlgBusy = false) ∧
    (∃ (s : Dev) (d : Desc) (l : List Duty), s.isInFlight d = true ∧ l = s.allDuties ∧ d.object = 0 ∧ s.addrOk d (d.w64 3) (8 * l.length) = true) :=
  ⟨⟨on, dsc [], [], _, by decide, by decide, by decide, rfl, by decide⟩,
   ⟨engOn withDuty, dsc [0, 0, 256], ⟨duty0, some ⟨0, 0, none, false⟩, some ⟨1, 0, none, false⟩, 0, 0⟩, by decide⟩,
   ⟨engOn withDuty, dsc [0, 0, 256, 3], ⟨duty0, some ⟨0, 0, none, false⟩, some ⟨1, 0, none, false⟩, 0, 0⟩, by decide⟩,
   ⟨on, dsc [], _, by decide, rfl, by decide⟩⟩

/-! ## The Host Interface Unit (15) -/

/-- Queue pair 0 with one descriptor, a version in force and the link up. -/
def hiuWith (f : Hiu → Hiu) (p : QPair → QPair) : Dev :=
  ((ringed on).setQp 0 (p { QPair.reset with configured := true, enabled := true, sqLog := 4, cqLog := 4, eqLog := 4, sqTail := 1 })).setHiu
    (fun h => f { h with ifver := 3, linkUp := true })
def hello : Desc := dsc [0x00030101, 7]

theorem witness_DispatchRuns :
    (∃ (s y : Dev) (heads : List Desc) (d : Desc) (p : QPair) (a : EarlyAbort), s.dispatchEdge = true ∧ s.nextDescriptor heads = some d ∧
      p = s.qp d.qp ∧
      y = ((s.setQp d.qp { p with sqHead := (p.sqHead + 1) % p.sqSize }).charge d.qp 64).setHiu (fun h => { h with
        lastDispatch := some s.dt, turn := if (s.dispatchRank d.qp).1 = 2 then d.qp else h.turn }) ∧
      y.hiu.earlyAborts.find? (fun a => a.qp == d.qp && a.tag == d.tag) = some a) ∧
    (∃ (s y : Dev) (heads : List Desc) (d : Desc) (p : QPair) (st : Status), s.dispatchEdge = true ∧ s.nextDescriptor heads = some d ∧
      p = s.qp d.qp ∧
      y = ((s.setQp d.qp { p with sqHead := (p.sqHead + 1) % p.sqSize }).charge d.qp 64).setHiu (fun h => { h with
        lastDispatch := some s.dt, turn := if (s.dispatchRank d.qp).1 = 2 then d.qp else h.turn }) ∧
      y.hiu.earlyAborts.find? (fun a => a.qp == d.qp && a.tag == d.tag) = none ∧ y.dispatchCheck d = some st) ∧
    (∃ (s y : Dev) (heads : List Desc) (d : Desc) (p : QPair), s.dispatchEdge = true ∧ s.nextDescriptor heads = some d ∧
      p = s.qp d.qp ∧
      y = ((s.setQp d.qp { p with sqHead := (p.sqHead + 1) % p.sqSize }).charge d.qp 64).setHiu (fun h => { h with
        lastDispatch := some s.dt, turn := if (s.dispatchRank d.qp).1 = 2 then d.qp else h.turn }) ∧
      y.hiu.earlyAborts.find? (fun a => a.qp == d.qp && a.tag == d.tag) = none ∧ y.dispatchCheck d = none) :=
  ⟨⟨hiuWith (fun h => { h with earlyAborts := [⟨0, 7, 5⟩] }) id, _, [hello], hello, _, ⟨0, 7, 5⟩, by decide, by decide, rfl, rfl,
    by decide⟩,
   ⟨hiuWith id id, _, [dsc [0x00020303]], dsc [0x00020303], _, .badVersion, by decide, by decide, rfl, rfl, by decide⟩,
   ⟨hiuWith id id, _, [hello], hello, _, by decide, by decide, rfl, rfl, by decide⟩⟩
theorem witness_DispatchHeld : (∃ s : Dev, s.dispatchEdge = false) ∧
    (∃ (s : Dev) (heads : List Desc), s.dispatchEdge = true ∧ ∀ d ∈ heads, s.canDispatch d = false) :=
  ⟨⟨hiuWith (fun h => { h with lastDispatch := some 0 }) id, by decide⟩, ⟨on, [hello], by decide⟩⟩

theorem witness_DoorbellsComplete :
    (∃ (s : Dev) (q : Fin 96) (v : Word) (p : QPair), s.powered 7 = true ∧ s.hiu.d3hot = false ∧ p = s.qp q ∧ p.enabled = true ∧
      s.stopped q = false ∧ v.toNat < p.sqSize ∧
      (v.toNat + p.sqSize - p.sqTail) % p.sqSize ≤ p.sqSize - 1 - (p.sqTail + p.sqSize - p.sqHead) % p.sqSize) ∧
    (∃ (s : Dev) (q : Fin 96) (v : Word) (p : QPair), s.powered 7 = true ∧ s.hiu.d3hot = false ∧ p = s.qp q ∧ p.active = true ∧
      v.toNat < p.cqSize ∧ (v.toNat + p.cqSize - p.cqHead) % p.cqSize ≤ p.cqUsed) ∧
    (∃ (s : Dev) (q : Fin 96) (v : Word) (p : QPair), s.powered 7 = true ∧ s.hiu.d3hot = true ∧ p.isLocal = true ∧ p = s.qp q ∧
      p.active = true ∧ p.hasEq = true ∧ v.toNat < p.eqSize ∧
      (v.toNat + p.eqSize - p.eqHead) % p.eqSize ≤ (p.eqTail + p.eqSize - p.eqHead) % p.eqSize) ∧
    (∃ (s : Dev) (q : Fin 96) (p : QPair), s.powered 7 = true ∧ s.hiu.d3hot = false ∧ p = s.qp q ∧ p.enabled = false ∧
      p.active = false) ∧
    (∃ (s : Dev) (q : Fin 96) (p : QPair), s.powered 7 = true ∧ s.hiu.d3hot = false ∧ p = s.qp q ∧ s.stopped q = true) ∧
    (∃ (s : Dev) (q : Fin 96) (v : Word) (p : QPair), s.powered 7 = true ∧ s.hiu.d3hot = false ∧ p = s.qp q ∧ p.active = true ∧
      p.sqSize ≤ v.toNat ∧ p.cqSize ≤ v.toNat ∧ p.hasEq = true ∧ p.eqSize ≤ v.toNat) ∧
    (∃ (s : Dev) (q : Fin 96) (v : Word) (p : QPair), s.powered 7 = true ∧ s.hiu.d3hot = false ∧ p = s.qp q ∧ p.enabled = true ∧
      v.toNat < p.sqSize ∧
      p.sqSize - 1 - (p.sqTail + p.sqSize - p.sqHead) % p.sqSize < (v.toNat + p.sqSize - p.sqTail) % p.sqSize ∧
      p.cqUsed < (v.toNat + p.cqSize - p.cqHead) % p.cqSize ∧
      (p.eqTail + p.eqSize - p.eqHead) % p.eqSize < (v.toNat + p.eqSize - p.eqHead) % p.eqSize) :=
  ⟨⟨hiuWith id id, 0, 15, _, by decide, by decide, rfl, by decide⟩,
   ⟨hiuWith id (fun p => { p with cqTail := 3 }), 0, 3, _, by decide, by decide, rfl, by decide⟩,
   ⟨(hiuWith (fun h => { h with d3hot := true }) id).setQp 95 { QPair.reset with
      isLocal := true, enabled := true, sqLog := 4, cqLog := 4, eqLog := 4, eqTail := 3 }, 95, 3,
    { QPair.reset with isLocal := true, enabled := true, sqLog := 4, cqLog := 4, eqLog := 4, eqTail := 3 }, by decide⟩,
   ⟨on, 95, _, by decide, by decide, rfl, by decide⟩,
   ⟨fly (dsc [0x00010105, 9, 1]) on, 1, _, by decide, by decide, rfl, by decide⟩, ⟨hiuWith id id, 0, 16, _, by decide, by decide, rfl, by decide⟩,
   ⟨hiuWith id (fun p => { p with sqTail := 3, sqHead := 1 }), 0, 2, _, by decide, by decide, rfl, by decide⟩⟩

def credit0 : DutyDesc := { duty0 with cls := 4, args := [1, 0, 0, 0, 0, 1] ++ List.replicate 26 0 }
def duty4 : Duty := ⟨credit0, none, none, 0, 0⟩
def crediting (f : Hiu → Hiu) : Dev :=
  ((engOn (fun d => d.setTlg (fun x => { x with duties := [(256, some duty4)] }))).setQp 1
    { QPair.reset with configured := true, enabled := true, sqLog := 4, cqLog := 4, sqTail := 1 }).setHiu f
theorem witness_HiuEventsComplete :
    (∃ (s : Dev) (v : Fin 128) (a : Nat), s.powered 7 = true ∧ (s.vec v).oldest = some a ∧ s.fld (Reg.hiuMod v) 31 16 ≠ 0 ∧
      a + 1000 * s.fld (Reg.hiuMod v) 31 16 ≤ s.dt) ∧
    (∃ (s : Dev) (v : Fin 128), s.powered 7 = true ∧ s.hiu.d3hot = false ∧ (s.vec v).pending = true) ∧
    (∃ (s : Dev) (q : Fin 96) (d : Duty), s.powered 7 = true ∧ s.creditDuty q = some d ∧ d.desc.bytes ≤ kget 0 s.hiu.spent q) ∧
    (∃ (s y : Dev) (q : Fin 96) (d : Duty), s.powered 7 = true ∧ s.creditDuty q = some d ∧ kget 0 s.hiu.spent q < d.desc.bytes ∧
      (s.qp q).enabled = true ∧ (s.qp q).sqHead ≠ (s.qp q).sqTail ∧
      y = (s.setHiu (fun h => { h with dlMiss := satInc 32 h.dlMiss })).event 1 6 3 q s.dt
        [d.desc.id, d.desc.bytes - kget 0 s.hiu.spent q] ∧ y.dt = s.dt) ∧
    (∃ (s : Dev) (q : Fin 96) (r : Drain) (p : QPair), s.powered 7 = true ∧ p = s.qp q ∧ p.draining = some r ∧ p.flushWait = [] ∧
      s.hiu.inFlight.any (fun e => e.desc.qp == (q : Nat)) = false) ∧
    (∃ s : Dev, s.powered 7 = true ∧ s.pmu.peWake = false) ∧ (∃ s : Dev, s.powered 7 = true ∧ s.pmu.peWake = true) :=
  ⟨⟨after 5000 ((on.setReg (Reg.hiuMod 0) 0x10000).setVec 0 { Vector.reset with oldest := some 0 }), 0, 0, by decide⟩,
   ⟨on.setVec 127 { Vector.reset with pending := true }, 127, by decide⟩,
   ⟨crediting (fun h => { h with spent := [(1, 256)] }), 1, duty4, by decide⟩,
   ⟨crediting (fun h => { h with spent := [(1, 255)] }), _, 1, duty4, by decide, by decide, by decide, by decide, by decide, rfl, by decide⟩,
   ⟨hiuWith (fun h => { h with inFlight := [] }) (fun p => { p with draining := some ⟨0, 0, 0, none⟩ }), 0, ⟨0, 0, 0, none⟩, _, by decide, rfl, by decide⟩,
   ⟨on, by decide⟩, ⟨{ on with pmu := { on.pmu with peWake := true } }, by decide⟩⟩

def admin1 (d : Dev) : Dev := d.setReg Reg.hiuAqCtrl 0x00000409
theorem witness_HiuEventsComplete_AdminPair :
    (∃ (s y : Dev) (v w : Word), s.powered 7 = true ∧ s.hiu.d3hot = false ∧ bitOf (s.reg Reg.hiuAqCtrl) 0 = false ∧
      w = writeBits (s.reg Reg.hiuAqCtrl) v 0x1F1F3F 0 ∧ y = s.setReg Reg.hiuAqCtrl (setBitsOf w 0 0 0) ∧ bitOf w 0 = true ∧
      y.adminPair.ringsOk = true ∧ (y.qp 0).active = false) ∧
    (∃ (s y : Dev) (v w : Word), s.powered 7 = true ∧ s.hiu.d3hot = false ∧ bitOf (s.reg Reg.hiuAqCtrl) 0 = false ∧
      w = writeBits (s.reg Reg.hiuAqCtrl) v 0x1F1F3F 0 ∧ y = s.setReg Reg.hiuAqCtrl (setBitsOf w 0 0 0) ∧ bitOf w 0 = true ∧
      y.adminPair.ringsOk = false) ∧
    (∃ (s : Dev) (v w : Word), s.powered 7 = true ∧ s.hiu.d3hot = false ∧ bitOf (s.reg Reg.hiuAqCtrl) 0 = false ∧
      w = writeBits (s.reg Reg.hiuAqCtrl) v 0x1F1F3F 0 ∧ bitOf w 0 = false) ∧
    (∃ (s : Dev) (v w : Word), s.powered 7 = true ∧ s.hiu.d3hot = false ∧ bitOf (s.reg Reg.hiuAqCtrl) 0 = true ∧
      w = writeBits (s.reg Reg.hiuAqCtrl) v 0x1F1F3F 0 ∧ bitOf w 0 = true) ∧
    (∃ (s y : Dev) (v w : Word), s.powered 7 = true ∧ s.hiu.d3hot = false ∧ bitOf (s.reg Reg.hiuAqCtrl) 0 = true ∧
      w = writeBits (s.reg Reg.hiuAqCtrl) v 0x1F1F3F 0 ∧
      y = (if Nat.land (s.reg Reg.hiuAqCtrl ^^^ w).toNat 0x1F1F3E ≠ 0 then s.setBit Reg.hiuStatus 4 true else s) ∧
      bitOf w 0 = false ∧ y.othersActive = true) ∧
    (∃ (s y : Dev) (v w : Word), s.powered 7 = true ∧ s.hiu.d3hot = false ∧ bitOf (s.reg Reg.hiuAqCtrl) 0 = true ∧
      w = writeBits (s.reg Reg.hiuAqCtrl) v 0x1F1F3F 0 ∧
      y = (if Nat.land (s.reg Reg.hiuAqCtrl ^^^ w).toNat 0x1F1F3E ≠ 0 then s.setBit Reg.hiuStatus 4 true else s) ∧
      bitOf w 0 = false ∧ y.othersActive = false) :=
  ⟨⟨on, _, 0x00000409, _, by decide, by decide, by decide, rfl, rfl, by decide, by decide, by decide⟩,
   ⟨on, _, 0x00000003, _, by decide, by decide, by decide, rfl, rfl, by decide, by decide⟩,
   ⟨on, 0, _, by decide, by decide, by decide, rfl, by decide⟩,
   ⟨admin1 on, 1, _, by decide, by decide, by decide, rfl, by decide⟩,
   ⟨admin1 (on.setQp 95 { QPair.reset with enabled := true }), _, 0, _, by decide, by decide, by decide, rfl, rfl, by decide,
    by decide⟩,
   ⟨admin1 on, _, 0, _, by decide, by decide, by decide, rfl, rfl, by decide, by decide⟩⟩

theorem witness_HostSideResetDisables : ∃ (s : Dev) (e : InFlight), s.powered 7 = true ∧ kwf QPair.reset s.hiu.qps = true ∧
    (s.qp 0).isLocal = false ∧ (s.qp 1).isLocal = true ∧ (s.qp 1).enabled = true ∧ e ∈ s.hiu.inFlight ∧
    (s.qp e.desc.qp).isLocal = false ∧ s.endedDisables.any (·.same e.desc) = false :=
  ⟨(hiuWith id id).setQp 1 { QPair.reset with isLocal := true, enabled := true }, ⟨dsc [], 0⟩, by decide⟩

theorem witness_HiuCommandsComplete :
    (∃ (s : Dev) (d : Desc) (v : Nat), s.powered 7 = true ∧ s.isInFlight d = true ∧ d.object = 0 ∧ d.qp = 0 ∧ s.hiu.ifver = 0 ∧ v = 3 ∧
      bitsOf (d.w 3) 7 0 ≤ 3 ∧ 3 ≤ bitsOf (d.w 3) 15 8) ∧
    (∃ (s : Dev) (d : Desc) (v : Nat), s.powered 7 = true ∧ s.isInFlight d = true ∧ d.object = 0 ∧ d.qp = 0 ∧ s.hiu.ifver = 0 ∧ v = 2 ∧
      bitsOf (d.w 3) 7 0 ≤ 2 ∧ bitsOf (d.w 3) 15 8 = 2) ∧
    (∃ (s : Dev) (d : Desc) (v : Nat), s.powered 7 = true ∧ s.isInFlight d = true ∧ d.object = 0 ∧ d.qp = 0 ∧ s.hiu.ifver = v ∧ v ≠ 0 ∧
      bitsOf (d.w 3) 7 0 ≤ v ∧ v ≤ bitsOf (d.w 3) 15 8) ∧
    (∃ (s : Dev) (d : Desc) (q : Nat) (p n : QPair), s.powered 7 = true ∧ s.isInFlight d = true ∧ qpObject d = some q ∧ p = s.qp q ∧ n = configPair d ∧
      p.active = false ∧ n.ringsOk = true ∧ (n.eqBase ≠ 0 → sizeOk n.eqLog = true) ∧ n.localOk = true ∧
      Nat.land (d.w 9).toNat 0xFEE0E0E0 = 0 ∧ bitsOf (d.w 10) 31 16 = 0) ∧
    (∃ (s : Dev) (d : Desc) (q : Nat), s.powered 7 = true ∧ s.isInFlight d = true ∧ qpObject d = some q ∧ (s.qp q).configured = true ∧ (s.qp q).active = false ∧
      (s.qp q).draining = none ∧ (s.qp q).enabled = false) ∧
    (∃ (s : Dev) (d : Desc) (q : Nat), s.powered 7 = true ∧ s.isInFlight d = true ∧ qpObject d = some q ∧ (s.qp q).draining = none ∧ (s.qp q).enabled = true) :=
  ⟨⟨on, dsc [0, 0, 0, 0x0302], 3, by decide⟩, ⟨on, dsc [0, 0, 0, 0x0200], 2, by decide⟩, ⟨hiuWith id id, dsc [0, 0, 0, 0x0303], 3, by decide⟩,
   ⟨on, dsc [0, 0, 95, 0x1000, 0, 0x2000, 0, 0x3000, 0, 0x040404, 0], 95, _, _, by decide, by decide, by decide, rfl, rfl, by decide⟩,
   ⟨on.setQp 95 { QPair.reset with configured := true }, dsc [0, 0, 95], 95, by decide⟩,
   ⟨on.setQp 1 { QPair.reset with enabled := true }, dsc [0, 0, 1], 1, by decide⟩⟩

/-- A CAN_TX of queue pair 1 in flight, its attempt under way. -/
def target : Desc := ⟨1, [0x030C01, 5], 0⟩
def flying (t : Desc) (f : Dev → Dev) : Dev := f ((hiuWith (fun h => { h with inFlight := h.inFlight ++ [⟨t, 0⟩] }) id))
def txing (a : Option Desc) (d : Dev) : Dev := d.modCan 0 (fun c => { c with tx := [⟨target, frame0, 0, some 0, a⟩] })
def abort1 (q : Word) : Desc := dsc [0, 0, 0, q, 5]
/-- What an abort of queue pair 0 asks, an instant after its dispatch. -/
def asked (s y : Dev) (d : Desc) : Prop := s.powered 7 = true ∧ s.isInFlight d = true ∧ d.object = 0 ∧
  bitsOf (d.w 3) 31 7 = 0 ∧ bitsOf (d.w 3) 6 0 ≤ 95 ∧ s.dispatchedAt d < s.dt ∧ y = s.dropFate d
def Found (y : Dev) (d : Desc) (e : InFlight) : Prop :=
  y.hiu.inFlight.find? (fun e => e.desc.qp == bitsOf (d.w 3) 6 0 && e.desc.tag == d.w 4) = some e ∧ e.desc.opcode ≠ 0x0106
theorem witness_HiuCommandsComplete_AbortInFlight :
    (∃ (s y z : Dev) (d : Desc) (e : InFlight), asked s y d ∧ Found y d e ∧
      ({ y with dt := s.dispatchedAt d } : Dev).abortTarget e.desc d = some (z, true)) ∧
    (∃ (s y z : Dev) (d : Desc) (e : InFlight), asked s y d ∧ Found y d e ∧
      ({ y with dt := s.dispatchedAt d } : Dev).abortTarget e.desc d = some (z, false)) ∧
    (∃ (s y : Dev) (d : Desc) (e : InFlight), asked s y d ∧ Found y d e ∧
      ({ y with dt := s.dispatchedAt d } : Dev).abortTarget e.desc d = none) :=
  ⟨⟨after 1 (flying target id), _, _, abort1 1, ⟨target, 0⟩, ⟨by decide, by decide, by decide, by decide, by decide, by decide, rfl⟩,
    ⟨by decide, by decide⟩, rfl⟩,
   ⟨after 1 (flying target (txing none)), _, _, abort1 1, ⟨target, 0⟩,
    ⟨by decide, by decide, by decide, by decide, by decide, by decide, rfl⟩, ⟨by decide, by decide⟩, rfl⟩,
   ⟨after 1 (flying target (txing (some (dsc [])))), _, abort1 1, ⟨target, 0⟩,
    ⟨by decide, by decide, by decide, by decide, by decide, by decide, rfl⟩, ⟨by decide, by decide⟩, rfl⟩⟩

theorem witness_HiuCommandsComplete_AbortOther :
    (∃ (s y : Dev) (d : Desc) (st : Status), asked s y d ∧
      y.hiu.inFlight.find? (fun e => e.desc.qp == bitsOf (d.w 3) 6 0 && e.desc.tag == d.w 4) = none ∧ s.fateOf d = some st) ∧
    (∃ (s y : Dev) (d e : Desc) (queued : List Desc) (p : QPair) (n : Nat), asked s y d ∧
      y.hiu.inFlight.find? (fun e => e.desc.qp == bitsOf (d.w 3) 6 0 && e.desc.tag == d.w 4) = none ∧ s.fateOf d = none ∧
      p = y.qp (bitsOf (d.w 3) 6 0) ∧ n = (if p.enabled = true then (p.sqTail + p.sqSize - p.sqHead) % p.sqSize else 0) ∧
      ((y.queuedOf (bitsOf (d.w 3) 6 0) queued).take n).find? (fun e => e.tag == d.w 4) = some e ∧ e.opcode ≠ 0x0106) ∧
    (∃ (s y : Dev) (d : Desc) (p : QPair), asked s y d ∧ bitsOf (d.w 3) 6 0 = 95 ∧
      y.hiu.inFlight.find? (fun e => e.desc.qp == 95 && e.desc.tag == d.w 4) = none ∧ s.fateOf d = none ∧ p = y.qp 95 ∧
      ((y.queuedOf 95 []).take 0).find? (fun e => e.tag == d.w 4) = none ∧ (∃ e ∈ p.flushedTags, e.1 = d.w 4 ∧ e.2 ≤ s.dispatchedAt d)) ∧
    (∃ (s y : Dev) (d : Desc) (p : QPair), asked s y d ∧ bitsOf (d.w 3) 6 0 = 95 ∧
      y.hiu.inFlight.find? (fun e => e.desc.qp == 95 && e.desc.tag == d.w 4) = none ∧ s.fateOf d = none ∧ p = y.qp 95 ∧
      ((y.queuedOf 95 []).take 0).find? (fun e => e.tag == d.w 4) = none ∧
      (∀ e ∈ p.flushedTags, e.1 = d.w 4 → s.dispatchedAt d < e.2)) :=
  ⟨⟨after 1 (hiuWith (fun h => { h with fates := [(0, 0, .done)] }) id), _, abort1 95, .done,
    ⟨by decide, by decide, by decide, by decide, by decide, by decide, rfl⟩, by decide⟩,
   ⟨after 1 (hiuWith id id), _, abort1 0, dsc [0, 5], [dsc [0, 5]], _, _,
    ⟨by decide, by decide, by decide, by decide, by decide, by decide, rfl⟩, by decide, by decide, rfl, rfl, by decide⟩,
   ⟨after 1 (on.setQp 95 { QPair.reset with flushedTags := [(5, 0)] }), _, abort1 95, _,
    ⟨by decide, by decide, by decide, by decide, by decide, by decide, rfl⟩, by decide, by decide, by decide, rfl, by decide,
    ⟨(5, 0), by decide⟩⟩,
   ⟨after 1 (on.setQp 95 { QPair.reset with flushedTags := [(5, 1)] }), _, abort1 95, _,
    ⟨by decide, by decide, by decide, by decide, by decide, by decide, rfl⟩, by decide, by decide, by decide, rfl, by decide,
    by decide⟩⟩

/-! ## Cocoon (16) -/

def chanWith (f : FioChan → FioChan) (g : CocField → CocField) (d : Dev) : Dev :=
  (d.setField (fun c => g { c with
    calDone := true, calOk := true, min := ⟨false, 0, 0⟩, low := ⟨false, 0, 0⟩, link := { c.link with up := true } })).modFio 47 f
def inCfg : ChCfg := ⟨.input, 1000, 1, false, false⟩
def wasIn (level : Bool) (row : Nat) (valid : Bool) : Dev :=
  chanWith (fun c => { c with cfg := inCfg, valid := valid, everValid := true, level := level, row := row }) id
    { on with part := .cl5614f, fuseOk := true, dt := 8000 }

def neverIn : Dev :=
  chanWith (fun c => { c with cfg := inCfg }) (fun f => { f with link := { f.link with up := false } })
    { on with part := .cl5614f, fuseOk := true } |>.setField (fun f => { f with link := { f.link with up := false } })
theorem witness_FieldChannelsComplete_FieldInputs :
    (∃ (s : Dev) (n : Fin 48) (mv : Nat) (c : FioChan) (smp : Bool), c = s.fio n ∧ c.cfg.dir = .input ∧ (n : Nat) < s.fios ∧ s.coc.field.running = true ∧ s.sampleDue n = true ∧
      s.coc.field.calDone = true ∧ s.coc.field.min.below = false ∧ smp = readSample mv c.sample ∧ s.coc.field.link.up = true ∧ c.valid = false ∧
      smp = (c.everValid && c.level)) ∧
    (∃ (s : Dev) (n : Fin 48) (mv : Nat) (c : FioChan) (smp : Bool), c = s.fio n ∧ c.cfg.dir = .input ∧ (n : Nat) < s.fios ∧ s.coc.field.running = true ∧ s.sampleDue n = true ∧
      s.coc.field.calDone = true ∧ s.coc.field.min.below = false ∧ smp = readSample mv c.sample ∧ s.coc.field.link.up = true ∧ c.valid = false ∧
      smp ≠ (c.everValid && c.level)) ∧
    (∃ (s : Dev) (n : Fin 48) (mv : Nat) (c : FioChan) (smp : Bool), c = s.fio n ∧ c.cfg.dir = .input ∧ (n : Nat) < s.fios ∧ s.coc.field.running = true ∧ s.sampleDue n = true ∧
      s.coc.field.calDone = true ∧ s.coc.field.min.below = false ∧ smp = readSample mv c.sample ∧ s.coc.field.link.up = false ∧ c.valid = false ∧
      c.everValid = false) ∧
    (∃ (s : Dev) (n : Fin 48) (mv : Nat) (c : FioChan) (smp : Bool), c = s.fio n ∧ c.cfg.dir = .input ∧ (n : Nat) < s.fios ∧ s.coc.field.running = true ∧ s.sampleDue n = true ∧
      s.coc.field.calDone = true ∧ s.coc.field.min.below = false ∧ smp = readSample mv c.sample ∧ c.valid = true ∧ c.everValid = true ∧
      smp = c.level) ∧
    (∃ (s : Dev) (n : Fin 48) (mv : Nat) (c : FioChan) (smp : Bool), c = s.fio n ∧ c.cfg.dir = .input ∧ (n : Nat) < s.fios ∧ s.coc.field.running = true ∧ s.sampleDue n = true ∧
      s.coc.field.calDone = true ∧ s.coc.field.min.below = false ∧ smp = readSample mv c.sample ∧ c.valid = true ∧ c.everValid = true ∧
      smp ≠ c.level ∧ c.row + 1 < c.cfg.needed) ∧
    (∃ (s : Dev) (n : Fin 48) (mv : Nat) (c : FioChan) (smp : Bool), c = s.fio n ∧ c.cfg.dir = .input ∧ (n : Nat) < s.fios ∧ s.coc.field.running = true ∧ s.sampleDue n = true ∧
      s.coc.field.calDone = true ∧ s.coc.field.min.below = false ∧ smp = readSample mv c.sample ∧ c.valid = true ∧ c.everValid = true ∧
      smp ≠ c.level ∧ c.cfg.needed ≤ c.row + 1) :=
  ⟨⟨wasIn false 0 false, 47, 0, _, _, rfl, by decide, by decide, by decide, by decide, by decide, by decide, rfl, by decide⟩,
   ⟨wasIn false 0 false, 47, 950, _, _, rfl, by decide, by decide, by decide, by decide, by decide, by decide, rfl, by decide⟩,
   ⟨neverIn, 47, 0, _, _, rfl, by decide, by decide, by decide, by decide, by decide, by decide, rfl, by decide⟩,
   ⟨wasIn false 3 true, 47, 701, _, _, rfl, by decide, by decide, by decide, by decide, by decide, by decide, rfl, by decide⟩,
   ⟨wasIn false 18 true, 47, 950, _, _, rfl, by decide, by decide, by decide, by decide, by decide, by decide, rfl, by decide⟩,
   ⟨wasIn false 19 true, 47, 950, _, _, rfl, by decide, by decide, by decide, by decide, by decide, by decide, rfl, by decide⟩⟩

def wasOut (f : FioChan → FioChan) : Dev :=
  { chanWith (fun c => f { c with cfg := { inCfg with dir := .output }, cmd := true }) id { on with part := .cl5614f, fuseOk := true, dt := 8000 } with time := 100000 }
theorem witness_FieldChannelsComplete_FieldOutputs :
    (∃ (s : Dev) (n : Fin 48) (mv : Nat) (c : FioChan), s.coc.field.running = true ∧ c = s.fio n ∧ c.cfg.dir = .output ∧
      (n : Nat) < s.fios ∧ s.sampleDue n = true ∧ readSample mv c.sample = c.cmd) ∧
    (∃ (s : Dev) (n : Fin 48) (mv : Nat) (il : Bool) (c : FioChan), s.coc.field.running = true ∧ c = s.fio n ∧ c.cfg.dir = .output ∧
      (n : Nat) < s.fios ∧ s.sampleDue n = true ∧ c.mismatch = 1 ∧ c.cmdAt + 100000 ≤ s.time ∧ c.backfeed = false ∧ readSample mv c.sample = !c.cmd ∧
      (c.cmd = true → il = false)) ∧
    (∃ (s : Dev) (n : Fin 48), s.coc.field.running = true ∧ (s.fio n).cmd = true) ∧
    (∃ (s : Dev) (g : Fin 6), s.coc.field.running = true ∧ kget none s.coc.field.groups g = none) ∧
    (∃ (s : Dev) (g : Fin 6) (i : Fin 8) (t : Nat), s.coc.field.running = true ∧ kget none s.coc.field.groups g = some t ∧
      t ≤ s.time ∧ (s.fio (8 * g + i)).cmd = true ∧
      (∀ j : Nat, i < j → j < 8 → (s.fio (8 * g + j)).cmd = false)) ∧
    (∃ (s : Dev) (n : Fin 48), s.coc.field.running = true ∧ (s.fio n).cfg.dir = .turning ∧ (s.fio n).turnEnd ≤ s.time) :=
  ⟨⟨wasOut id, 47, 950, _, by decide, rfl, by decide⟩,
   ⟨wasOut (fun c => { c with mismatch := 1 }), 47, 700, false, _, by decide, rfl, by decide⟩, ⟨wasOut id, 47, by decide⟩,
   ⟨on, 5, by decide⟩,
   ⟨(wasOut id).setFioGroup 5 (some 100000), 5, 7, 100000, by decide, by decide, by decide, by decide, fun j h1 h2 => absurd h1 (by simp; omega)⟩,
   ⟨wasOut (fun c => { c with cfg := { c.cfg with dir := .turning } }), 47, by decide⟩⟩

def fldWith (f : CocField → CocField) : Dev := on.setField f
theorem witness_FieldSupplyComplete :
    (∃ (s : Dev) (f : CocField) (wdt : Nat), f = s.coc.field ∧ f.running = true ∧ f.wdOn = true ∧ f.wdTrip = false ∧
      wdt = clampN 50 100000 (bitsOf f.wd 16 0) ∧ f.wdAt + 1000 * wdt ≤ s.time) ∧
    (∃ (s : Dev) (f : CocField) (mv : Nat), f = s.coc.field ∧ f.running = true ∧ 10 * bitsOf f.fs 8 0 + 80 ≤ mv ∧
      mv < 10 * bitsOf f.fs 24 16 ∧ f.low = ⟨false, 4, 0⟩ ∧ f.min.below = false) ∧
    (∃ (s : Dev) (f : CocField) (mv : Nat), f = s.coc.field ∧ f.running = true ∧ mv < 10 * bitsOf f.fs 8 0 ∧
      mv < 10 * bitsOf f.fs 24 16 ∧ f.low.below = true ∧ f.min = ⟨false, 4, 0⟩) ∧
    (∃ s : Dev, s.hwkF.motionEn.level = false ∧ s.hwkF.doorEn.level = false) ∧
    (∃ (s : Dev) (f : CocField), f = s.coc.field ∧ f.running = false) ∧
    (∃ (s : Dev) (f : CocField), f = s.coc.field ∧ f.running = true ∧ f.calDone = false) ∧
    (∃ (s : Dev) (f : CocField), f = s.coc.field ∧ f.running = true ∧ f.vbLow = ⟨false, 0, 0⟩ ∧
      f.vbHigh = ⟨false, 0, 0⟩ ∧ f.vgLow = ⟨false, 0, 0⟩) :=
  ⟨⟨{ fldWith (fun f => { f with wdOn := true }) with time := 100000000 }, _, _, rfl, by decide, by decide, by decide, rfl, by decide⟩,
   ⟨fldWith (fun f => { f with low := ⟨false, 4, 0⟩, min := ⟨false, 0, 0⟩ }), _, 10 * bitsOf on.coc.field.fs 24 16 - 1, rfl, by decide⟩,
   ⟨fldWith (fun f => { f with low := ⟨true, 0, 0⟩, min := ⟨false, 4, 0⟩ }), _, 10 * bitsOf on.coc.field.fs 8 0 - 1, rfl, by decide⟩,
   ⟨on, by decide⟩, ⟨fldWith (fun f => { f with running := false }), _, rfl, by decide⟩, ⟨on, _, rfl, by decide⟩,
   ⟨on, _, rfl, by decide⟩⟩

def tapped (i : Nat) (f : Tap → Tap) (w : Word) : Dev := { (fldWith (fun c => { c with tap := w })).modTap i f with time := 15000000 }
theorem witness_TapsAndCellsComplete_Taps :
    (∃ (s : Dev) (i : Fin 8) (ua : Int) (e : Bool), s.coc.field.running = true ∧ bitsOf s.coc.field.tap 23 16 < ua.natAbs ∧ e = true ∧
      s.tapAc i = false) ∧
    (∃ (s : Dev) (i : Fin 8) (ua : Int) (e : Bool), s.coc.field.running = true ∧ ua.natAbs + 10 < bitsOf s.coc.field.tap 23 16 ∧
      e = false ∧ s.tapAc i = true ∧ ua ≠ 0 ∧ decide (ua < 0) ≠ (s.tap i).neg) ∧
    (∃ (s : Dev) (i : Fin 8) (ua : Int) (e : Bool), s.coc.field.running = true ∧ ua.natAbs ≤ bitsOf s.coc.field.tap 23 16 ∧
      bitsOf s.coc.field.tap 23 16 ≤ ua.natAbs + 10 ∧ e = (s.tap i).sample ∧ s.tapAc i = false) ∧
    (∃ (s : Dev) (i : Fin 8), s.coc.field.running = true ∧ s.tapAc i = false ∧ (s.tap i).energised = (s.tap i).all) ∧
    (∃ (s : Dev) (i : Fin 8), s.coc.field.running = true ∧ s.tapAc i = false ∧ (s.tap i).energised ≠ (s.tap i).all) ∧
    (∃ (s : Dev) (i : Fin 8), s.coc.field.running = true ∧ s.tapAc i = true ∧ (s.tap i).energised = false ∧
      (s.tap i).lastAt + (if (s.tap i).late then 10000000 else 15000000) ≤ s.time) ∧
    (∃ (s : Dev) (i : Fin 8), s.coc.field.running = true ∧ s.tapAc i = true ∧ (s.tap i).energised = true ∧
      (s.tap i).lastAt + (if (s.tap i).late then 10000000 else 15000000) ≤ s.time) :=
  ⟨⟨tapped 0 id 0x320000, 0, -51, true, by decide⟩, ⟨tapped 7 id 0x3200FF, 7, -39, false, by decide⟩,
   ⟨tapped 0 id 0x320000, 0, 50, false, by decide⟩, ⟨tapped 0 (fun t => { t with energised := true }) 0, 0, by decide⟩,
   ⟨tapped 7 id 0, 7, by decide⟩, ⟨tapped 7 id 0xFF, 7, by decide⟩,
   ⟨tapped 7 (fun t => { t with energised := true }) 0xFF, 7, by decide⟩⟩

/-- Bridge b of a calibrated, supplied field die with this setting. -/
def cellOn (b : Nat) (x : BridgeSet) : Dev :=
  { (fldWith (fun c => { c with calOk := true, sag := false, min := ⟨false, 0, 0⟩, vbLow := ⟨false, 0, 0⟩, vbHigh := ⟨false, 0, 0⟩, vgLow := ⟨false, 0, 0⟩ })).modCell b (fun c => { c with set_ := x }) with time := 1000 }
theorem witness_TapsAndCellsComplete_Cells :
    (∃ (s x y : Dev) (b : Fin 16) (own ma : Int) (f : Side), s.coc.field.running = true ∧ s.hasBridge b = true ∧
      x = s.modCell b (fun c => { c with amp := own }) ∧ ma = x.phaseNow b own ∧
      y = (if (s.dt - s.lpe.phaseAt) % 1000 = 0 ∧ (s.dt - s.lpe.phaseAt) % 10000 ≠ 0 then x.keepSample b ma else x).overcurrent b ma ∧
      y.forcedSide b = some f) ∧
    (∃ (s x y : Dev) (b : Fin 16) (own ma : Int), s.coc.field.running = true ∧ s.hasBridge b = true ∧
      x = s.modCell b (fun c => { c with amp := own }) ∧ ma = x.phaseNow b own ∧
      y = (if (s.dt - s.lpe.phaseAt) % 1000 = 0 ∧ (s.dt - s.lpe.phaseAt) % 10000 ≠ 0 then x.keepSample b ma else x).overcurrent b ma ∧
      y.forcedSide b = none ∧ (y.cell b).set_.mode = 2) ∧
    (∃ (s x y : Dev) (b : Fin 16) (own ma : Int), s.coc.field.running = true ∧ s.hasBridge b = true ∧
      x = s.modCell b (fun c => { c with amp := own }) ∧ ma = x.phaseNow b own ∧
      y = (if (s.dt - s.lpe.phaseAt) % 1000 = 0 ∧ (s.dt - s.lpe.phaseAt) % 10000 ≠ 0 then x.keepSample b ma else x).overcurrent b ma ∧
      y.forcedSide b = none ∧ (y.cell b).set_.mode = 1) ∧
    (∃ (s : Dev) (b : Fin 16) (t : Nat), s.coc.field.running = true ∧ (s.cell b).blind = some t ∧ t + 2000 ≤ s.time) :=
  ⟨⟨on, _, _, 15, 100, _, .none, by decide, by decide, rfl, rfl, rfl, by decide⟩,
   ⟨cellOn 15 ⟨2, 512, 0, false, false, true⟩, _, _, 15, 100, _, by decide, by decide, rfl, rfl, rfl, by decide⟩,
   ⟨after 1000 (cellOn 0 ⟨1, 0, 0, false, false, true⟩), _, _, 0, -100, _, by decide, by decide, rfl, rfl, rfl, by decide⟩,
   ⟨{ on.modCell 15 (fun c => { c with blind := some 0 }) with time := 2000 }, 15, 0, by decide⟩⟩

/-- Frames of slot 1 and a block in that slot. -/
def frameDown (n : Nat) (r : List (Nat × DownRec)) : DownFrame := ⟨n, n, 0, false, true, true, .reset, false, 0, [], [], r⟩
def frameUp : UpFrame :=
  { fseq := 1, train := false, linkUp := true, drops := 0, dt0 := 0, tc0 := 0, min := false, low := false, wdTrip := false,
    sag := false, calOk := true, vgLow := false, vbOut := false, taps := 0, chans := [], hwk := .reset, hwkArmed := false,
    hwkAt := 0, toggle := none, latches := 0, iph := [], brst := [], vfield := 0, vbridge := 0, vgate := 0, temp := 0,
    records := [] }
def cocWith (f : Coc → Coc) : Dev := { on with coc := f on.coc, time := 1000000, dt := 10000 }
def linked (f : Coc → Coc) : Dev := cocWith (fun c => f { c with link := { c.link with up := true } })
def Taken (s z : Dev) (f : UpFrame) : Prop :=
  s.coc.up = some f ∧ (s.coc.link.up = false ∨ f.fseq = s.slotNo) ∧ s.coc.drops = f.drops ∧
  (f.records = [] ∧ z = s.upFields f ∨ (∃ r x y, f.records = [(r, x)] ∧ y = s.upFields f ∧
    z = if y.coc.rxNext = r then (y.setCoc (fun c => { c with rxNext := (r + 1) % 65536 })).applyUp f x else y))
theorem witness_LinkRowsComplete_Frames :
    (∃ s : Dev, s.coc.field.running = false) ∧ (∃ s : Dev, s.coc.field.running = true) ∧
    (∃ (s : Dev) (f : DownFrame) (r : Nat) (x : DownRec), s.coc.down = some f ∧ s.coc.field.running = true ∧
      s.coc.field.trained = true ∧ (s.coc.field.link.up = false ∨ f.fseq = s.slotNo) ∧ f.records = [(r, x)]) ∧
    (∃ (s : Dev) (f : DownFrame), s.coc.down = some f ∧ s.coc.field.running = true ∧ s.coc.field.link.up = true ∧
      f.fseq ≠ s.slotNo) ∧
    (∃ (s z : Dev) (f : UpFrame), Taken s z f ∧ s.coc.link.up = true) ∧
    (∃ (s z : Dev) (f : UpFrame), Taken s z f ∧ s.coc.link.up = false ∧ z.coc.link.up = false) ∧
    (∃ (s z : Dev) (f : UpFrame), Taken s z f ∧ s.coc.link.up = false ∧ z.coc.link.up = true) ∧
    (∃ (s z : Dev) (f : UpFrame), Taken s z f ∧ f.records ≠ []) :=
  ⟨⟨fldWith (fun f => { f with running := false }), by decide⟩, ⟨on, by decide⟩,
   ⟨cocWith (fun c => { c with down := some (frameDown 1 [(0, .clear 0)]), field := { c.field with trained := true } }),
    frameDown 1 [(0, .clear 0)], 0, .clear 0, by decide⟩,
   ⟨cocWith (fun c => { c with
      down := some (frameDown 2 []), field := { c.field with link := { c.field.link with up := true } } }), frameDown 2 [], by decide⟩,
   ⟨linked (fun c => { c with up := some frameUp }), _, frameUp, ⟨by decide, by decide, by decide, .inl ⟨rfl, rfl⟩⟩, by decide⟩,
   ⟨cocWith (fun c => { c with up := some frameUp }), _, frameUp, ⟨by decide, by decide, by decide, .inl ⟨rfl, rfl⟩⟩, by decide,
    by decide⟩,
   ⟨cocWith (fun c => { c with up := some frameUp, link := { c.link with accepted := 2 } }), _, frameUp,
    ⟨by decide, by decide, by decide, .inl ⟨rfl, rfl⟩⟩, by decide, by decide⟩,
   ⟨linked (fun c => { c with up := some { frameUp with records := [(0, .supply 1 0 0)] } }), _,
    { frameUp with records := [(0, .supply 1 0 0)] },
    ⟨by decide, by decide, by decide, .inr ⟨0, .supply 1 0 0, _, rfl, rfl, rfl⟩⟩, by decide⟩⟩

theorem witness_LinkRowsComplete_Training :
    (∃ s : Dev, s.coc.link.up = true ∧ s.coc.link.missed = 1) ∧
    (∃ s : Dev, s.coc.field.running = true ∧ s.coc.field.link.up = true ∧ s.coc.field.link.missed = 1) ∧
    (∃ s : Dev, s.coc.link.up = false ∧ s.coc.training = false ∧ s.coc.link.lastAt + 1000000 ≤ s.time) ∧
    (∃ s : Dev, s.coc.training = true ∧ s.coc.field.running = true ∧ s.coc.fresh = false ∧ s.coc.field.trained = true) ∧
    (∃ s : Dev, s.coc.training = true ∧ s.coc.field.running = true ∧ s.coc.field.trained = false) ∧
    (∃ s : Dev, s.coc.training = true ∧ s.coc.field.running = true ∧ s.coc.fresh = true ∧ s.coc.field.trained = true ∧
      s.fieldStart.coc.fresh = true) :=
  ⟨⟨linked (fun c => { c with link := { c.link with missed := 1 } }), by decide⟩,
   ⟨fldWith (fun f => { f with link := { f.link with up := true, missed := 1 } }), by decide⟩, ⟨cocWith id, by decide⟩,
   ⟨cocWith (fun c => { c with training := true, fresh := false, field := { c.field with trained := true } }), by decide⟩,
   ⟨cocWith (fun c => { c with training := true }), by decide⟩,
   ⟨cocWith (fun c => { c with training := true, fresh := true, field := { c.field with trained := true } }), by decide⟩⟩

theorem witness_CocoonCommandsComplete :
    (∃ (s : Dev) (d : Desc) (n deb per : Nat) (dir : Dir), s.isInFlight d = true ∧ n = bitsOf d.object 5 0 ∧ n < s.fios ∧ bitsOf d.object 31 6 = 0 ∧
      deb = bitsOf (d.w 4) 15 0 ∧ per = bitsOf (d.w 4) 22 16 ∧ 0 < deb ∧ 0 < per ∧ per ≤ 100 ∧ bitsOf (d.w 4) 31 23 = 0 ∧
      bitsOf (d.w 3) 31 4 = 0 ∧ (bitsOf (d.w 3) 1 0, dir) ∈ [(0, Dir.off), (1, .input), (2, .output)] ∧ s.hwk.locked = false) ∧
    (∃ (s : Dev) (d : Desc) (n deb per : Nat) (dir : Dir), s.isInFlight d = true ∧ n = bitsOf d.object 5 0 ∧ n < s.fios ∧ bitsOf d.object 31 6 = 0 ∧
      deb = bitsOf (d.w 4) 15 0 ∧ per = bitsOf (d.w 4) 22 16 ∧ 0 < deb ∧ 0 < per ∧ per ≤ 100 ∧ bitsOf (d.w 4) 31 23 = 0 ∧
      bitsOf (d.w 3) 31 4 = 0 ∧ (bitsOf (d.w 3) 1 0, dir) ∈ [(0, Dir.off), (1, .input), (2, .output)] ∧ s.hwk.locked = true ∧
      s.hwkBound n = false) ∧
    (∃ (s : Dev) (d : Desc), s.isInFlight d = true ∧ d.object = 0 ∧ d.w64 3 < 2 ^ s.fios ∧ d.w64 5 < 2 ^ 48 ∧
      (∀ n, n ∈ maskBits 48 (d.w64 3) → (s.fioCfg n).dir = .output) ∧
      (∀ f, s.coc.mirror = some f → f.sag = false ∧ f.wdTrip = false)) ∧
    (∃ (s : Dev) (d : Desc), s.isInFlight d = true ∧ d.object = 0 ∧ d.w64 3 < 2 ^ s.fios) ∧
    (∃ (s : Dev) (d : Desc), s.isInFlight d = true ∧ d.object = 0 ∧ bitsOf (d.w 3) 31 2 = 0 ∧ (bitOf (d.w 3) 0 = true → s.fieldLow = false) ∧
      (bitOf (d.w 3) 1 = true → s.coc.link.up = true)) ∧
    (∃ (s : Dev) (d : Desc) (f : UpFrame), s.isInFlight d = true ∧ d.object = 0 ∧ s.coc.mirror = some f) ∧
    (∃ (s : Dev) (d : Desc), s.isInFlight d = true ∧ d.object = 0 ∧ s.coc.mirror = none) :=
  ⟨⟨on, dsc [0, 0, 0, 1, 0x640001], 0, 1, 100, .input, by decide⟩,
   ⟨on.setHwk (fun g => { g with locked := true }), dsc [0, 0, 5, 2, 0x1FFFF], 5, 0xFFFF, 1, .output, by decide⟩,
   ⟨cocWith (fun c => { c with cfgs := [(0, { inCfg with dir := .output })] }), dsc [0, 0, 0, 1, 0, 1], by decide, by decide, by decide, by decide,
    by decide, fun f h => absurd h (by simp [cocWith, on, fly, Dev.reset, Coc.reset])⟩,
   ⟨on, dsc [0, 0, 0, 0xFFFF], by decide⟩, ⟨linked (fun c => { c with mirror := some frameUp }), dsc [0, 0, 0, 3], by decide⟩,
   ⟨linked (fun c => { c with mirror := some frameUp }), dsc [], frameUp, by decide⟩, ⟨on, dsc [], by decide⟩⟩

/-! ## Resets, start-up and power states (17) -/

def pmuWith (f : Pmu → Pmu) : Dev := on.setPmu f
theorem witness_ResetStartUpComplete_Resets :
    (∃ s : Dev, s.pmu.locked = true) ∧
    (∃ s : Dev, tbit s.pmu.held 0 = true ∧ putBit s.pmu.held 0 false ≠ 0) ∧
    (∃ s : Dev, tbit s.pmu.held 0 = true ∧ putBit s.pmu.held 0 false = 0) ∧
    (∃ (s : Dev) (i : Fin 4), tbit s.pmu.held (i + 1) = true ∧ putBit s.pmu.held (i + 1) false ≠ 0) ∧
    (∃ (s : Dev) (i : Fin 4), tbit s.pmu.held (i + 1) = true ∧ putBit s.pmu.held (i + 1) false = 0) ∧
    (∃ s : Dev, tbit s.pmu.held 5 = true ∧ putBit s.pmu.held 5 false ≠ 0) ∧
    (∃ s : Dev, tbit s.pmu.held 5 = true ∧ putBit s.pmu.held 5 false = 0) ∧
    (∃ (s : Dev) (t : Nat), s.powered 0 = true ∧ s.pmu.resetAt = some t ∧ t ≤ s.dt) :=
  ⟨⟨on, by decide⟩, ⟨pmuWith (fun p => { p with held := 3 }), by decide⟩, ⟨pmuWith (fun p => { p with held := 1 }), by decide⟩,
   ⟨pmuWith (fun p => { p with held := 17 }), 3, by decide⟩, ⟨pmuWith (fun p => { p with held := 16 }), 3, by decide⟩,
   ⟨pmuWith (fun p => { p with held := 48 }), by decide⟩, ⟨pmuWith (fun p => { p with held := 32 }), by decide⟩,
   ⟨pmuWith (fun p => { p with resetAt := some 0 }), 0, by decide⟩⟩
theorem witness_ResetStartUpComplete_StartUp :
    (∃ s : Dev, s.powered 0 = true ∧ s.pmu.held = 0 ∧ s.pmu.locked = false) ∧
    (∃ s : Dev, s.powered 0 = true ∧ s.pmu.locked = true ∧ s.chry.mounted = true ∧ s.pmu.loaded = false) ∧
    (∃ s : Dev, s.powered 0 = true ∧ s.pmu.ready = false ∧ s.fuseOk = true ∧ s.pmu.loaded = true ∧ s.pmu.bootErr = 0 ∧
      s.pmu.cocAbsent = true) ∧
    (∃ s : Dev, s.powered 0 = true ∧ s.pmu.ready = false ∧ s.fuseOk = true ∧ s.pmu.loaded = true ∧ s.pmu.bootErr = 0 ∧
      s.coc.calFail = true) ∧
    (∃ s : Dev, s.powered 0 = true ∧ s.pmu.ready = false ∧ s.fuseOk = true ∧ s.pmu.loaded = true ∧ s.pmu.bootErr = 0 ∧
      ∃ m, s.coc.mirror = some m ∧ m.calOk = true) ∧
    (∃ (s : Dev) (pf low : Bool), s.powered 0 = true ∧ (pf || low) = true ∧ s.pmu.pfArmed = false) ∧
    (∃ (s : Dev) (pf low : Bool), s.powered 0 = true ∧ (pf || low) = true ∧ s.pmu.pfArmed = true) ∧
    (∃ s : Dev, s.powered 0 = true ∧ s.pmu.pfArmed = false) :=
  ⟨⟨pmuWith (fun p => { p with locked := false }), by decide⟩,
   ⟨{ pmuWith (fun p => { p with loaded := false }) with chry := { Chry.reset with mounted := true } }, by decide⟩,
   ⟨{ pmuWith (fun p => { p with ready := false, cocAbsent := true }) with fuseOk := true }, by decide⟩,
   ⟨{ (pmuWith (fun p => { p with ready := false })).setCoc (fun c => { c with calFail := true }) with fuseOk := true }, by decide⟩,
   ⟨{ (pmuWith (fun p => { p with ready := false })).setCoc (fun c => { c with mirror := some frameUp }) with fuseOk := true },
    by decide, by decide, by decide, by decide, by decide, frameUp, by decide⟩,
   ⟨pmuWith (fun p => { p with pfArmed := false }), false, true, by decide⟩, ⟨on, true, false, by decide⟩,
   ⟨pmuWith (fun p => { p with pfArmed := false }), by decide⟩⟩

theorem notEntering {p : PmuPhase} (h : (match p with | .entering _ => false | _ => true) = true) : ∀ j, p ≠ .entering j := by
  intro j e; subst e; cases h
def inBean (p : Pmu) : Pmu := { p with state := 4, target := 4 }
theorem witness_PowerStatesComplete_Targets :
    (∃ (s y : Dev) (k : Nat), s.powered 0 = true ∧ y = s.noteConditions ∧ y.sleepState = some k ∧
      (∀ j, s.pmu.phase ≠ .entering j) ∧ y.deepest < k ∧ k ≤ s.pmu.target) ∧
    (∃ (s y : Dev), s.powered 0 = true ∧ y = s.noteConditions ∧ y.sleepState = none) ∧
    (∃ (s : Dev) (j : Nat), s.powered 0 = true ∧ s.pmu.phase = .entering j) ∧
    (∃ (s y : Dev) (k : Nat), s.powered 0 = true ∧ y = s.noteConditions ∧ y.sleepState = some k ∧ s.pmu.target < k) ∧
    (∃ (s y : Dev) (k : Fin 5), s.powered 0 = true ∧ y = s.noteConditions ∧ 2 ≤ (k : Nat) ∧ y.heldLong k = true) :=
  ⟨⟨pmuWith inBean, _, 4, by decide, rfl, by decide, notEntering rfl, by decide, by decide⟩, ⟨on, _, by decide, rfl, by decide⟩,
   ⟨pmuWith (fun p => { p with phase := .entering 3 }), 3, by decide⟩,
   ⟨pmuWith (fun p => { p with state := 3 }), _, 3, by decide, rfl, by decide⟩,
   ⟨after 1000000000 (pmuWith (fun p => { p with dripSince := some 0 })), _, 2, by decide, rfl, by decide⟩⟩

theorem witness_PowerStatesComplete_Entry :
    (∃ (s : Dev) (k : Nat), s.powered 0 = true ∧ s.pmu.phase = .entering k ∧ 3 ≤ k ∧ s.pmu.suspended = true) ∧
    (∃ (s : Dev) (k : Nat), s.powered 0 = true ∧ s.pmu.phase = .entering k ∧ 3 ≤ k ∧ 3 ≤ s.pmu.state ∧ s.pmu.stored = true ∧
      s.chry.run.isNone = true) ∧
    (∃ (s : Dev) (k : Nat), s.powered 0 = true ∧ s.pmu.phase = .isolated k) ∧
    (∃ (s : Dev) (k : Nat), s.powered 0 = true ∧ s.pmu.phase = .entering k ∧ k < 3) ∧
    (∃ (s : Dev) (k : Nat), s.powered 0 = true ∧ s.pmu.phase = .leaving k ∧ 3 ≤ s.pmu.state ∧ k < 3) ∧
    (∃ (s : Dev) (k : Nat), s.powered 0 = true ∧ s.pmu.phase = .leaving k ∧ s.pmu.state = 4 ∧ 3 ≤ k) ∧
    (∃ (s : Dev) (k : Nat), s.powered 0 = true ∧ s.pmu.phase = .leaving k ∧ s.pmu.state < 4 ∧ ¬ (3 ≤ s.pmu.state ∧ k < 3)) :=
  ⟨⟨pmuWith (fun p => { p with phase := .entering 4, suspended := true }), 4, by decide⟩,
   ⟨pmuWith (fun p => { p with phase := .entering 4, state := 3, stored := true }), 4, by decide⟩,
   ⟨pmuWith (fun p => { p with phase := .isolated 3 }), 3, by decide⟩, ⟨pmuWith (fun p => { p with phase := .entering 2 }), 2, by decide⟩,
   ⟨pmuWith (fun p => { p with phase := .leaving 2, state := 3 }), 2, by decide⟩,
   ⟨pmuWith (fun p => { p with phase := .leaving 3, state := 4 }), 3, by decide⟩,
   ⟨pmuWith (fun p => { p with phase := .leaving 0, state := 2 }), 0, by decide⟩⟩

theorem witness_PowerStatesComplete_Wake :
    (∃ (s : Dev) (source object k : Nat), s.powered 0 = true ∧ s.pmu.phase = .settled ∧ 3 ≤ k ∧ s.pmu.state = k ∧
      (∀ j, s.pmu.phase ≠ .entering j) ∧ s.wakes source object k = true ∧ source ≠ 2) ∧
    (∃ (s : Dev) (source object k : Nat), s.powered 0 = true ∧ s.pmu.phase = .isolated k ∧
      (∀ j, s.pmu.phase ≠ .entering j) ∧ s.wakes source object k = true ∧ source ≠ 2) ∧
    (∃ (s : Dev) (source object j k : Nat), s.powered 0 = true ∧ s.pmu.phase = .entering j ∧ 3 ≤ j ∧ s.wakes source object j = true ∧
      k = s.pmu.state ∧ source ≠ 2) ∧
    (∃ (s : Dev) (n : Nat), s.powered 0 = true ∧ (∀ j, s.pmu.phase ≠ .entering j) ∧ n = (s.reg Reg.pmuTimer).toNat ∧ n ≠ 0 ∧
      s.pmu.entryAt + n * 1000000 ≤ s.dt) ∧
    (∃ (s : Dev) (d : Desc), s.powered 0 = true ∧ s.isInFlight d = true ∧ d.object = 0 ∧ bitsOf (d.w 3) 15 0 = 0xC0FE) :=
  ⟨⟨pmuWith inBean, 1, 0, 4, by decide, by decide, by decide, by decide, notEntering rfl, by decide⟩,
   ⟨(pmuWith (fun p => { p with phase := .isolated 3 })).setReg Reg.pmuWake 0xFFFFFFFF, 9, 0, 3, by decide, by decide,
    notEntering rfl, by decide⟩,
   ⟨pmuWith (fun p => { p with phase := .entering 4 }), 4, 0, 4, 0, by decide⟩,
   ⟨after 1000000 ((pmuWith inBean).setReg Reg.pmuTimer 1), _, by decide, notEntering rfl, rfl, by decide⟩,
   ⟨on, dsc [0, 0, 0, 0xC0FE], by decide⟩⟩

/-! ## Chrysalis and update (18) -/

def chryWith (f : Chry → Chry) : Dev :=
  { pmuWith (fun p => { p with pwr := 0xFFF }) with chry := f { Chry.reset with mounted := true } }
def rec0 : ChrRecord := ⟨3, 2, 1, 0, 0, []⟩
def unmounted (f : Chry → Chry) : Dev := chryWith (fun c => f { c with mounted := false })
def run4 : ChrRun := ⟨4, [hello], 1, 0, []⟩
theorem witness_RecordRowsComplete :
    (∃ (s : Dev) (fmt : Nat) (r : ChrRecord) (t : Bool), s.powered 10 = true ∧ s.powered 0 = true ∧ s.pmu.locked = true ∧
      s.chry.mounted = false ∧ fmt = formatOf (if (kget UpdTarget.reset s.upd.targets 0).active
        then (kget UpdTarget.reset s.upd.targets 0).pkgB else (kget UpdTarget.reset s.upd.targets 0).pkgA) ∧
      s.chry.current false false = some (t, r) ∧ r.format = fmt ∧ s.chry.lost = none) ∧
    (∃ (s : Dev) (fmt g : Nat) (r : ChrRecord) (t : Bool), s.powered 10 = true ∧ s.powered 0 = true ∧ s.pmu.locked = true ∧
      s.chry.mounted = false ∧ fmt = formatOf (if (kget UpdTarget.reset s.upd.targets 0).active
        then (kget UpdTarget.reset s.upd.targets 0).pkgB else (kget UpdTarget.reset s.upd.targets 0).pkgA) ∧
      s.chry.current false false = some (t, r) ∧ r.format = fmt ∧ s.chry.lost = some g) ∧
    (∃ (s : Dev) (bA bB : Bool), s.powered 10 = true ∧ s.powered 0 = true ∧ s.pmu.locked = true ∧ s.chry.mounted = false ∧
      s.chry.current bA bB = none ∧ s.chry.lost = none) ∧
    (∃ s : Dev, s.powered 10 = true ∧ s.powered 0 = true ∧ s.chry.mounted = true ∧ s.chry.run = none ∧
      s.chry.since + s.chry.period * 60000000000 ≤ s.dt) ∧
    (∃ (s y : Dev) (r : ChrRun) (m : KMap Nat) (d : Desc), s.powered 10 = true ∧ s.powered 0 = true ∧ s.chry.run = some r ∧
      r.cause = 4 ∧ r.descs = [d] ∧ s.savePosition.saveTable.capture r.start = (m, y)) ∧
    (∃ (s : Dev) (d : Desc), s.powered 10 = true ∧ s.powered 0 = true ∧ s.isInFlight d = true ∧ d.object = 0 ∧ s.chry.mounted = true ∧ s.chry.run = none) ∧
    (∃ (s : Dev) (d : Desc) (r : ChrRecord) (b : List Byte), s.powered 10 = true ∧ s.powered 0 = true ∧ s.isInFlight d = true ∧ d.object = 0 ∧
      bitsOf (d.w 3) 15 8 = 0 ∧ s.addrOk d (d.w64 4) (d.w 6).toNat = true ∧
      s.readRecord (bitsOf (d.w 3) 1 0) (bitsOf (d.w 3) 7 2) = some r ∧ r.part (bitsOf (d.w 3) 31 16) = some b) :=
  ⟨⟨unmounted (fun c => { c with slotB := some rec0 }), _, rec0, true, by decide, by decide, by decide, by decide, rfl, by decide⟩,
   ⟨unmounted (fun c => { c with slotA := some rec0, lost := some 7 }), _, 7, rec0, false, by decide, by decide, by decide, by decide,
    rfl, by decide⟩,
   ⟨unmounted (fun c => { c with slotA := some rec0 }), true, false, by decide⟩,
   ⟨after 15300000000000 (chryWith id), by decide⟩,
   ⟨chryWith (fun c => { c with run := some run4 }), _, run4, _, hello, by decide, by decide, by decide, by decide, by decide, rfl⟩,
   ⟨chryWith id, dsc [], by decide⟩,
   ⟨chryWith (fun c => { c with slotA := some rec0 }), dsc [0, 0, 0, 1], rec0, _, by decide, by decide, by decide, by decide, by decide, by decide,
    by decide, rfl⟩⟩

def updWith (f : UpdTarget → UpdTarget) (o : Option UpdOp) : Dev :=
  { on with upd := { Upd.reset with targets := [(1, f UpdTarget.reset)], op := o }, eng := { on.eng with pwr := 13 } }
def first : Desc := dsc [0, 0, 1, 0xF0000, 0, 0, 0x10000]
/-- A signed image of no bytes for a cluster. -/
def pkgImage : List Byte :=
  [0x50, 0x4C, 0x50, 0x57, 1, 0, 0, 0, 4, 3, 2, 0, 0, 0, 0, 0] ++ sha256Bytes [] ++ List.replicate 16 0
theorem witness_UpdateRowsComplete :
    (∃ (s y : Dev) (d : Desc) (t : Nat) (x : UpdTarget) (img : HostBytes), s.powered 0 = true ∧ s.isInFlight d = true ∧ s.hiu.d3hot = false ∧ t = bitsOf d.object 2 0 ∧
      bitsOf d.object 31 3 = 0 ∧ t < s.clusters ∧ x = s.target t ∧ y = s.charge d.qp img.length ∧ x.trial = false ∧
      (d.w 6).toNat ≤ 65536 ∧ (d.w 3).toNat + (d.w 6).toNat ≤ 0x100000 ∧ y.addrOk d (d.w64 4) (d.w 6).toNat = true ∧ s.upd.op = none) ∧
    (∃ (s : Dev) (d : Desc) (t : Nat) (x : UpdTarget), s.powered 0 = true ∧ s.isInFlight d = true ∧ t = bitsOf d.object 2 0 ∧ bitsOf d.object 31 3 = 0 ∧
      t < s.clusters ∧ x = s.target t ∧ s.imageFault t (!x.active) true = 0) ∧
    (∃ (s : Dev) (d : Desc) (t : Nat) (x : UpdTarget), s.powered 0 = true ∧ s.isInFlight d = true ∧ t = bitsOf d.object 2 0 ∧ bitsOf d.object 31 3 = 0 ∧
      t < s.clusters ∧ x = s.target t ∧ x.verified (!x.active) = true ∧ s.upd.op = none ∧ s.clusterUp t = false ∧ x.trial = false) ∧
    (∃ (s : Dev) (d : Desc) (t e : Nat) (o : UpdOp), s.powered 0 = true ∧ t = bitsOf d.object 2 0 ∧ bitsOf d.object 31 3 = 0 ∧
      t < s.clusters ∧ s.upd.op = some o ∧ o.target = t ∧ o.cause = 0 ∧ o.desc = some d ∧ o.commit = some e ∧
      s.clusterUp t = false ∧ s.eng.falling = none) ∧
    (∃ (s : Dev) (d : Desc) (t : Nat) (x : UpdTarget) (k : Fin 5), s.powered 0 = true ∧ s.isInFlight d = true ∧ t = bitsOf d.object 2 0 ∧
      bitsOf d.object 31 3 = 0 ∧ t < s.clusters ∧ x = s.target t ∧ (k : Nat) = t ∧ x.trial = true ∧ x.back = 0 ∧ s.upd.op = none ∧
      x.trialAt + x.trialFor ≤ s.dt) :=
  ⟨⟨updWith id none, _, first, 1, _, [], by decide, by decide, by decide, by decide, by decide, by decide, rfl, rfl, by decide⟩,
   ⟨(updWith id none).setFlashBytes (slotBase 1 true) pkgImage, first, 1, _, by decide, by decide, by decide, by decide, by decide, rfl,
    by decide +kernel⟩,
   ⟨updWith (fun t => { t with verB := true }) none, first, 1, _, by decide, by decide, by decide, by decide, by decide, rfl, by decide⟩,
   ⟨updWith id (some ⟨1, true, 0, some first, some 5⟩), first, 1, 5, ⟨1, true, 0, some first, some 5⟩, by decide⟩,
   ⟨updWith (fun t => { t with trial := true }) none, first, 1, _, 1, by decide, by decide, by decide, by decide, by decide, rfl, by decide⟩⟩

/-! ## Registers (19) -/

/-- Registers with a row of their own, and the locks without a flag. -/
def ownRows : List Nat := [0x48, 0x3000, 0x3200, 0x3800, 0x5010, 0x6000, 0x9000, 0xA000, 0xA600]
theorem witness_RegisterRowsComplete :
    (∃ (s : Dev) (off : Nat) (r : RegDef) (live : Bool) (n : Nat) (w : Word), s.powered 7 = true ∧ s.hiu.d3hot = false ∧ off < bar2At ∧ off % 4 = 0 ∧
      regDef? off = some r ∧ s.regAbsent off = false ∧ live = s.powered (windowDomain off) ∧ r.base ∉ ownRows ∧ r.wl = 0 ∧
      ¬ (0x50 ≤ off ∧ off ≤ 0x68) ∧ n = r.place off ∧
      w = clampWrite r.base (writeBits (s.reg off) 0xFFFFFFFF r.rw (if live = true then r.w1c else 0)) ∧ s.lockOf r.base n w = none) ∧
    (∃ (s : Dev) (off : Nat) (r : RegDef) (live : Bool) (n : Nat) (w : Word) (mask : Nat), s.powered 7 = true ∧ s.hiu.d3hot = false ∧ off < bar2At ∧ off % 4 = 0 ∧
      regDef? off = some r ∧ s.regAbsent off = false ∧ live = s.powered (windowDomain off) ∧ r.base ∉ ownRows ∧ r.wl = 0 ∧
      ¬ (0x50 ≤ off ∧ off ≤ 0x68) ∧ n = r.place off ∧
      w = clampWrite r.base (writeBits (s.reg off) 0xFFFFFFFF r.rw (if live = true then r.w1c else 0)) ∧
      s.lockOf r.base n w = some (mask, none)) ∧
    (∃ (s : Dev) (off : Nat) (r : RegDef) (live : Bool) (n : Nat) (w : Word) (mask rg bit : Nat), s.powered 7 = true ∧
      s.hiu.d3hot = false ∧ off < bar2At ∧ off % 4 = 0 ∧
      regDef? off = some r ∧ s.regAbsent off = false ∧ live = s.powered (windowDomain off) ∧ r.base ∉ ownRows ∧ r.wl = 0 ∧
      ¬ (0x50 ≤ off ∧ off ≤ 0x68) ∧ n = r.place off ∧
      w = clampWrite r.base (writeBits (s.reg off) 0xFFFFFFFF r.rw (if live = true then r.w1c else 0)) ∧
      s.lockOf r.base n w = some (mask, some (rg, bit))) ∧
    (∃ (s : Dev) (off size : Nat), off < bar2At ∧ off % 4 ≠ 0 ∧ s.allAbsent off size = false) ∧
    (∃ (s : Dev) (off size : Nat), off < bar2At ∧ size ≠ 4 ∧ size ≠ 8 ∧ s.allAbsent off size = false) ∧
    (∃ (s : Dev) (off x z : Nat), off < bar2At ∧ s.pairValue off = some z ∧ x = (if s.powered (windowDomain off) = true then z else 0) ∧ off % 4 = 0) ∧
    (∃ (s : Dev) (off : Nat), off < bar2At ∧ s.pairValue off = none ∧ off % 4 = 0) ∧
    (∃ (s : Dev) (off lane size v : Nat), off < bar2At ∧ lane < 4 ∧ lane + size ≤ 4 ∧ off % 4 = 0 ∧ s.pairValue off = none ∧
      v = (s.readReg off).toNat / 2 ^ (8 * lane) % 2 ^ (8 * size)) ∧
    (∃ off size : Nat, off < bar2At ∧ 4 < off % 4 + size ∧ ¬ (off % 4 = 0 ∧ size = 8)) ∧
    (∃ off : Nat, bar2At ≤ off ∧ off < configAt ∧ off % 4 = 0) ∧
    (∃ off : Nat, configAt ≤ off ∧ off % 4 = 0) ∧ (∃ (s : Dev) (d : Desc), s.isInFlight d = true ∧ d.object = 0 ∧ d.qp = 0) :=
  ⟨⟨on, Reg.cocFs, _, _, _, _, by decide, by decide, by decide, by decide, rfl, by decide, rfl, by decide, by decide, by decide, rfl, rfl, by decide⟩,
   ⟨on.setReg (Reg.msqBcfg 15) 1, Reg.msqBcfg 15, _, _, _, _, 0xFFFF0000, by decide, by decide, by decide, by decide, rfl, by decide, rfl, by decide, by decide, by decide,
    rfl, rfl, by decide⟩,
   ⟨on.setReg (Reg.canCfg 3) 1, Reg.canNbt 3, _, _, _, _, 0xFFFFFFFF, Reg.canStat 3, 21, by decide, by decide, by decide, by decide, rfl, by decide,
    rfl, by decide, by decide, by decide, rfl, rfl, by decide⟩,
   ⟨on, 1, 4, by decide⟩, ⟨on, 0, 2, by decide⟩, ⟨on, Reg.hiuDtLo, _, 0, by decide, by decide, rfl, by decide⟩, ⟨on, Reg.hiuDtHi, by decide⟩,
   ⟨on, Reg.hiuDtHi, 3, 1, _, by decide, by decide, by decide, by decide, by decide, rfl⟩, ⟨3, 2, by decide⟩,
   ⟨bar2At, by decide⟩, ⟨configAt, by decide⟩, ⟨on, dsc [], by decide⟩⟩
theorem witness_AbsentRegisters : (∃ s : Dev, s.regAbsent (Reg.canCfg 3) = true) ∧
    (∃ s : Dev, Reg.canCfg 3 + 2 < bar2At ∧ s.allAbsent (Reg.canCfg 3) 8 = true ∧ s.allAbsent (Reg.canCfg 3 + 2) 1 = true ∧ s.allAbsent (Reg.canCfg 3 + 1) 8 = true) :=
  ⟨⟨{ on with part := .cl5600c }, by decide⟩, ⟨{ on with part := .cl5600c }, by decide⟩⟩

/-! ## The block as a whole -/

theorem witness_StepRunsTheFrontCommand : ∃ s : State, s.pending = [] := ⟨.reset, rfl⟩
theorem witness_OffBlockDoesNothing : ∃ s : State, s.dev.powered 6 = false ∧ s.dev.powered 5 = false ∧ s.dev.powered 8 = false ∧
    s.dev.powered 7 = false ∧ s.dev.powered 0 = false ∧ s.dev.powered 10 = false := ⟨.reset, by decide⟩
theorem witness_SramStaysCanonical : ∃ (s t : State), kwf 0 s.dev.sram = true ∧ step s = .next t ∧ s.pending ≠ [] :=
  ⟨{ State.reset with pending := [.porstNLow] }, _, by decide, rfl, by decide⟩
theorem witness_HostWriteBytes : (∃ (s : Dev) (d : Desc) (a : Nat) (b : List Byte), s.isLocal d = true ∧ a ≤ a + b.length - 1 ∧
      a + b.length - 1 < a + b.length) ∧
    (∃ (s : Dev) (d : Desc), s.isLocal d = false ∧ s.hiu.d3hot = false) ∧ (∃ (s : Dev) (d : Desc), s.isLocal d = false ∧ s.hiu.d3hot = true) :=
  ⟨⟨on.setQp 0 { QPair.reset with isLocal := true }, dsc [], 0x10000000, [1, 2], by decide⟩, ⟨on, dsc [], by decide⟩,
   ⟨on.setHiu (fun h => { h with d3hot := true }), dsc [], by decide⟩⟩

/-! ## Ill-formed terms (WellFormed) -/

theorem test_wf_word_count : Instr.wf (.pfiRead (dsc [0])) = false := by decide
theorem test_wf_queue_pair : Instr.wf (.pfiRead ⟨96, List.replicate 16 0, 0⟩) = false ∧
    Instr.wf (.pfiRead ⟨95, List.replicate 16 0, 0⟩) = true := by decide
theorem test_wf_bar0 : Instr.wf (.registerWrite 0xFFFD 4 0 []) = false ∧ Instr.wf (.registerWrite 0 9 0 []) = false ∧
    Instr.wf (.registerWrite 0 0 0 []) = false ∧ Instr.wf (.registerWrite 0xFFFC 4 0 []) = true ∧
    Instr.wf (.registerWrite 0x14000 4 0 []) = false ∧ Instr.wf (.registerWrite 0x21000 4 0 []) = false := by decide
theorem test_wf_pairs : Instr.wf (.loRegisterCapture ⟨0xFFFE, 4⟩) = false ∧ Instr.wf (.loRegisterCapture ⟨0x0028, 4⟩) = true ∧
    Instr.wf (.loRegisterCapture ⟨0, 9⟩) = false := by decide
theorem test_wf_ssi : Instr.wf (.ssiFrameComplete 0 true true (2 ^ 32) 0 true) = false ∧
    Instr.wf (.ssiFrameComplete 0 true true 0 16 true) = false := by decide
theorem test_wf_can_frame : CanFrame.wf ⟨2 ^ 29, 0, []⟩ = false ∧ CanFrame.wf ⟨0, 256, []⟩ = false ∧
    CanFrame.wf ⟨0, 0, List.replicate 65 0⟩ = false := by decide
theorem test_wf_link : Instr.wf (.hiuLink true 3 1) = false ∧ Instr.wf (.hiuLink true 1 4) = false := by decide
theorem test_wf_packages : Instr.wf (.firmwareLoadComplete 0 0 []) = false ∧ Instr.wf (.firmwareLoadComplete 32 0 [0, 0, 0, 0, 0]) = false ∧
    Instr.wf (.firmwareLoadComplete 0 0 [0, 0, 0, 0, 2 ^ 24]) = false := by decide
theorem test_wf_ptp : PtpBody.wf (.announce ⟨0, 0, 0, 0, 0, 0, 2 ^ 16, 0, 0⟩) = false ∧ PtpBody.wf (.sync (2 ^ 64)) = false := by decide
theorem test_wf_operands : Instr.wf (.portLinkChange true true true 3) = false ∧ Instr.wf (.ptpMessageReceived true 256 0 true (.sync 0) 0) = false ∧
    Instr.wf (.engFault 0 6 0) = false ∧ Instr.wf (.vLoop 0 true 0 1) = false ∧ Instr.wf (.vLoop 0 true 1 0) = false ∧
    Instr.wf (.msixUnmask 0 (2 ^ 64) 0) = false ∧ Instr.wf (.linkSlotStart [] 0) = false ∧
    Instr.wf (.bridgeSupplyMeasurement 0 0 []) = false ∧ Instr.wf (.pmuWake 0 0) = false ∧ Instr.wf (.pmuWake 11 0) = false := by decide

/-! ## Balls (20 R425-R429) -/

theorem test_ball_counts : (logicRows true * logicCols true, fieldRows true * fieldCols true) = (900, 256) ∧
    (logicRows false * logicCols false, fieldRows false * fieldCols false) = (609, 120) := by decide
theorem test_ball_tables : logicBall true 2 25 = .canTx 0 ∧ logicBall true 4 13 = .drv 5 ∧ logicBall false 3 25 = .dbg 3 ∧
    fieldBall true 3 5 = .gh 2 ∧ fieldBall true 7 13 = .doorEn ∧ fieldBall false 2 20 = .sc 7 := by decide
/-- R429: row AF is ground, an even sum is ground, and the other columns carry the supplies. -/
theorem test_ball_rule : logicBall true 25 2 = .gnd ∧ logicBall true 5 1 = .gnd ∧ logicBall true 5 2 = .vdd33 ∧
    logicBall true 5 8 = .vdd18 ∧ logicBall true 5 12 = .vddCore ∧ logicBall false 1 28 = .vdd33 := by decide
theorem test_ball_no_connect : ({ Dev.reset with part := .cl5600c, fuseOk := true } : Dev).noConnect (.gh 15) = true := by decide

/-! ## Worked values of the spec -/

/-- The bank of the example under R289: B2 = 0x0400, M2 = 64, N2 given, P2 given, and M2 written with 32. -/
def ringBank (p : Nat) : Bank := (((Bank.reset.setB 2 0x400).setM 2 64).setP 2 p).setM 2 32
def stepped (n : Int) : Nat → Bank → Bank
  | 0, x => x
  | k + 1, x => stepped n k (x.step 2 n)
/-- 12 R289: up from 0x0428 the old end takes the pointer to 0x0400 and the length 32 becomes active. -/
theorem test_pointer_up : (stepped 1 23 (ringBank 0x428)).pReg 2 = 0x43F ∧ (stepped 1 24 (ringBank 0x428)).pReg 2 = 0x400 ∧
    (stepped 1 24 (ringBank 0x428)).mReg 2 = 32 ∧ (stepped 1 56 (ringBank 0x428)).pReg 2 = 0x400 := by decide
/-- 12 R289: down from 0x0402 the fourth access is at 0x041F, by the new length. -/
theorem test_pointer_down : (stepped (-1) 2 (ringBank 0x402)).pReg 2 = 0x400 ∧ (stepped (-1) 3 (ringBank 0x402)).pReg 2 = 0x41F := by
  decide

/-- 05 R91: the one-landing run of 3,764,912 µm takes 4.802477 s, which the spec adds up from rounded parts. -/
def oneLanding0 : List Seg :=
  shapeSegs (shapeTo 7000000 1000000 1200000 (Kin.at_ 0) (3764912 * xUnit)) (Kin.at_ 0) (3764912 * xUnit) 0
theorem test_one_landing : 4802475 ≤ totalDur oneLanding0 / 1000 ∧ totalDur oneLanding0 / 1000 ≤ 4802477 := by decide +kernel

/-- 00: CRC-32 of ISO 3309, of the octets '123456789'; SHA-256 of FIPS 180-4, of no octets. -/
theorem test_crc : crc32 [0x31, 0x32, 0x33, 0x34, 0x35, 0x36, 0x37, 0x38, 0x39] = 0xCBF43926 := by decide +kernel
theorem test_sha : (sha256Bytes []).take 4 = [0xE3, 0xB0, 0xC4, 0x42] := by decide +kernel

/-- 03 R34: the first quadrature edge counts one up, and a step of both levels counts nothing. -/
theorem test_quad : quadStep false false true false = 1 ∧ quadStep false false true true = 0 := by decide
end Sys2Proof.Tests
end

section
/-! PROOFS. A block whose power domain is off (01 R9). Every row of a block is answered through the gate of its domain:
`whenOn`, or `whenCpf` and `whenGrp` where a duty must run too. A gate of a domain that is off keeps the state, for an
event of the block as for a command of a dispatched descriptor. -/
namespace Sys2Proof.Machine

/-- CPF does nothing while its domain is off, whatever the engines run. -/
theorem whenCpf_off {s : Dev} (h : s.powered 6 = false) (f : Dev → Dev) : whenCpf f s = s := by
  simp [whenCpf, h]

/-- Group replication does nothing while Monarch's domain is off. -/
theorem whenGrp_off {s : Dev} (h : s.powered 5 = false) (f : Dev → Dev) : whenGrp f s = s := by
  simp [whenGrp, h]

theorem State.upd_of_fixed {s : State} {f : Dev → Dev} (hf : f s.dev = s.dev) : s.upd f = .next s := by
  rw [State.upd, hf]

/-- Dispatched or not, a command whose meaning keeps the block keeps the whole state. -/
theorem State.cmd_of_fixed {s : State} (d : Desc) {f : Dev → Dev} (hf : f s.dev = s.dev) : s.cmd d f = .next s := by
  cases hs : s.dev.isInFlight d with
  | true => rw [State.cmd_sent hs, State.upd_of_fixed hf]
  | false => exact State.cmd_unsent hs f

theorem State.cmd_off {pd : Nat} {s : State} (h : s.dev.powered pd = false) (d : Desc) (f : Dev → Dev) :
    s.cmd d (whenOn pd f) = .next s :=
  State.cmd_of_fixed d (whenOn_off h f)

theorem State.cmd_cpf_off {s : State} (h : s.dev.powered 6 = false) (d : Desc) (f : Dev → Dev) :
    s.cmd d (whenCpf f) = .next s :=
  State.cmd_of_fixed d (whenCpf_off h f)

theorem State.upd_cpf_off {s : State} (h : s.dev.powered 6 = false) (f : Dev → Dev) : s.upd (whenCpf f) = .next s :=
  State.upd_of_fixed (whenCpf_off h f)

theorem State.upd_grp_off {s : State} (h : s.dev.powered 5 = false) (f : Dev → Dev) : s.upd (whenGrp f) = .next s :=
  State.upd_of_fixed (whenGrp_off h f)

/-- Settles O55: the meaning of each row listed stands behind the gate of its domain, and that gate is shut. The rows
are taken in the order of the list, each by the law of the gate it passes. -/
theorem offBlockDoesNothing : Obligations.OffBlockDoesNothing := by
  intro s d
  simp only [List.forall_mem_cons, List.not_mem_nil, false_implies, implies_true, and_true]
  refine ⟨fun pd6 => ?_, fun pd5 => ?_, fun pd8 => ?_, fun pd7 => ?_, fun pd0 => ?_, fun pd10 => ?_⟩
  · have cmd := State.cmd_off pd6 d
    have cpf := State.cmd_cpf_off pd6 d
    have event := State.upd_off pd6
    exact ⟨cmd _, cmd _, cmd _, cmd _, cmd _, cmd _, cpf _, cpf _, cpf _, cpf _, cpf _, cpf _,
      cmd _, cmd _, cmd _, cmd _, cmd _, cmd _, cmd _, cmd _, cmd _, cmd _, cmd _, cmd _, cmd _, cmd _,
      cmd _, cmd _, cmd _, State.upd_cpf_off pd6 _, event _, event _, event _⟩
  · have cmd := State.cmd_off pd5 d
    have event := State.upd_off pd5
    have grp := State.upd_grp_off pd5
    exact ⟨cmd _, cmd _, cmd _, cmd _, cmd _, cmd _, cmd _, cmd _, cmd _, cmd _, cmd _, cmd _,
      event _, event _, event _, grp _, grp _⟩
  · have cmd := State.cmd_off pd8 d
    have event := State.upd_off pd8
    exact ⟨cmd _, cmd _, cmd _, cmd _, cmd _, event _, event _, cmd _, cmd _, event _⟩
  · have cmd := State.cmd_off pd7 d
    exact ⟨cmd _, cmd _, cmd _, cmd _, cmd _⟩
  · have cmd := State.cmd_off pd0 d
    have event := State.upd_off pd0
    exact ⟨cmd _, cmd _, cmd _, cmd _, cmd _, cmd _, event _, event _, event _⟩
  · have event := State.upd_off pd10
    exact ⟨State.cmd_off pd10 d _, event _, event _, event _⟩

end Sys2Proof.Machine
end

section
/-! PROOFS. The channels of the Position Feedback Interface through the shared operations (03 R34-R53). A record, a
message, a pulse or a fire of a compare slot changes no accepted level, no raw counter and no instant of a count;
`counts` is what they leave of every channel. -/
namespace Sys2Proof.Machine

theorem Dev.chan_of_pfi {s t : Dev} (h : t.pfi = s.pfi) (m : Nat) : t.chan m = s.chan m := by
  simp only [Dev.chan, h]

@[simp] theorem Dev.chan_setChan_same (s : Dev) (n : Nat) (c : Chan) : (s.setChan n c).chan n = c := by
  simp [Dev.chan]

theorem Dev.chan_setChan_other (s : Dev) {n m : Nat} (h : m ≠ n) (c : Chan) : (s.setChan n c).chan m = s.chan m := by
  simp [Dev.chan, kget_kput_other _ _ h]

/-- Storing a channel's record twice is storing it once. -/
@[simp] theorem Dev.setChan_idem (s : Dev) (n : Nat) (c : Chan) : (s.setChan n c).setChan n c = s.setChan n c := by
  simp [Dev.setChan, kput_idem]

@[simp] theorem Dev.slot_setSlot_same (s : Dev) (n k : Nat) (x : Slot) : (s.setSlot n k x).slot n k = x := by
  simp [Dev.slot]

/-- Storing a slot twice is storing it once. -/
@[simp] theorem Dev.setSlot_idem (s : Dev) (n k : Nat) (x : Slot) : (s.setSlot n k x).setSlot n k x = s.setSlot n k x := by
  simp [Dev.setSlot, kput_idem]

@[simp] theorem Dev.chan_setSlot (s : Dev) (n k m : Nat) (x : Slot) : (s.setSlot n k x).chan m = s.chan m := rfl

/-! ## The part of the block that the channels stand in -/

theorem Dev.HostSide.pfi {s t : Dev} (a : s.HostSide t) : t.pfi = s.pfi := by
  obtain ⟨_, _, _, rfl⟩ := a
  rfl

/-- A record that finds no room is counted by the host interface. -/
theorem Dev.dropEvent_frame (s : Dev) (src : Nat) : s.HostSide (s.dropEvent src) := ⟨_, _, _, rfl⟩

/-- An event of the host interface, and the record that ends its run of drops (15 R338). -/
theorem Dev.raiseHiu_frame (s : Dev) (sev code obj time : Nat) (p : List Int) :
    s.HostSide (s.raiseHiu sev code obj time p) := by
  unfold Dev.raiseHiu
  dsimp only
  split
  · split
    · exact s.putEvent_frame ..
    · split
      · exact (s.putEvent_frame ..).trans (Dev.putEvent_frame ..)
      · exact (s.putEvent_frame ..).trans (Dev.dropEvent_frame ..)
  · exact s.dropEvent_frame 1

/-- Raising an event (15 R338). -/
theorem Dev.event_frame (s : Dev) (src sev code obj time : Nat) (p : List Int) :
    s.HostSide (s.event src sev code obj time p) := by
  unfold Dev.event
  split
  · exact s.raiseHiu_frame ..
  · split
    · split
      · exact s.putEvent_frame ..
      · exact (s.putEvent_frame ..).trans (Dev.raiseHiu_frame ..)
    · exact s.dropEvent_frame src

@[simp] theorem Dev.event_pfi (s : Dev) (src sev code obj time : Nat) (p : List Int) :
    (s.event src sev code obj time p).pfi = s.pfi := (s.event_frame ..).pfi

/-- The pass-through outputs are pins, and no channel's state (R53). -/
@[simp] theorem Dev.ptPins_pfi (t s : Dev) : (t.ptPins s).pfi = s.pfi := by
  unfold Dev.ptPins
  dsimp only
  (repeat' split) <;> rfl

@[simp] theorem Dev.chan_ptPins (t s : Dev) (m : Nat) : (t.ptPins s).chan m = s.chan m :=
  Dev.chan_of_pfi (Dev.ptPins_pfi t s) m

/-- The pulse of a trigger line starts a hand-over or a door's action (R51). -/
@[simp] theorem Dev.pulseLpe_pfi (s : Dev) (line at_ : Nat) : (s.pulseLpe line at_).pfi = s.pfi := by
  unfold Dev.pulseLpe
  dsimp only
  split
  · split <;> simp
  · split
    · refine List.foldlRecOn (motive := fun t : Dev => t.pfi = s.pfi) _ _ rfl fun t ht n _ => ?_
      split <;> exact ht
    · split <;> rfl

/-! Measuring a speed draws a free value at most (R39, R40, R56). -/

@[simp] theorem Dev.q24_pfi (s : Dev) (num den : Nat) : (s.q24 num den).2.pfi = s.pfi := by
  unfold Dev.q24
  dsimp only
  split <;> rfl

@[simp] theorem Dev.periodMag_pfi (s : Dev) (n : Nat) : (s.periodMag n).2.pfi = s.pfi := by
  unfold Dev.periodMag
  split
  · dsimp only
    split
    · rfl
    · exact s.q24_pfi _ _
  · rfl

@[simp] theorem Dev.windowMag_pfi (s : Dev) (n : Nat) : (s.windowMag n).2.pfi = s.pfi := by
  unfold Dev.windowMag
  dsimp only
  split
  · exact s.q24_pfi _ _
  · exact s.periodMag_pfi n

@[simp] theorem Dev.speedMag_pfi (s : Dev) (n : Nat) : (s.speedMag n).2.pfi = s.pfi := by
  unfold Dev.speedMag
  split
  · exact s.windowMag_pfi n
  · exact s.periodMag_pfi n

@[simp] theorem Dev.ssiSpeed_pfi (s : Dev) (m : Nat) : (s.ssiSpeed m).2.pfi = s.pfi := by
  unfold Dev.ssiSpeed
  split
  · dsimp only
    split <;> rfl
  · rfl

/-- The records of a latch are events (R43). -/
@[simp] theorem Dev.latchRecords_pfi (s : Dev) (mask at_ : Nat) : (s.latchRecords mask at_).pfi = s.pfi := by
  unfold Dev.latchRecords
  refine List.foldlRecOn (motive := fun t : Dev => t.pfi = s.pfi) _ _ ?_ fun t ht m _ => ?_
  · refine List.foldlRecOn (motive := fun t : Dev => t.pfi = s.pfi) _ _ rfl fun t ht n _ => ?_
    split
    · rw [Dev.event_pfi, ht]
    · exact ht
  · dsimp only
    split
    · rw [Dev.event_pfi, Dev.ssiSpeed_pfi, ht]
    · exact ht

@[simp] theorem Dev.limitEvents_pfi (s : Dev) (n : Nat) (lo0 hi0 : Bool) (at_ : Nat) :
    (s.limitEvents n lo0 hi0 at_).pfi = s.pfi := by
  have entered : ∀ (t : Dev) (b : Bool) (p : List Int), (if b then t.event 3 4 6 n at_ p else t).pfi = t.pfi := by
    intro t b p
    split
    · exact t.event_pfi ..
    · rfl
  simp only [Dev.limitEvents, entered]

/-! ## What a count is made of -/

/-- The accepted levels, the raw counter and the instant of the last count (R34, R35, R43). -/
def Chan.counted (c : Chan) : Bool × Bool × BitVec 48 × Nat := (c.qa, c.qb, c.raw, c.tEdge)

/-- The same of every channel. -/
def Dev.counts (s : Dev) (m : Nat) : Bool × Bool × BitVec 48 × Nat := (s.chan m).counted

theorem Dev.counts_of_pfi {s t : Dev} (h : t.pfi = s.pfi) : t.counts = s.counts :=
  funext fun m => congrArg Chan.counted (Dev.chan_of_pfi h m)

theorem Dev.counts_setChan (s : Dev) (n : Nat) (c : Chan) :
    (s.setChan n c).counts = fun m => if m = n then c.counted else s.counts m := by
  funext m
  by_cases h : m = n
  · rw [if_pos h, h, Dev.counts, Dev.chan_setChan_same]
  · rw [if_neg h, Dev.counts, Dev.chan_setChan_other s h, Dev.counts]

/-- A change of a channel that keeps its levels, counter and instant. -/
theorem Dev.counts_setChan_of_counted {s : Dev} {n : Nat} {c : Chan} (h : c.counted = (s.chan n).counted) :
    (s.setChan n c).counts = s.counts := by
  rw [Dev.counts_setChan, h]
  funext m
  by_cases e : m = n
  · rw [if_pos e, e, Dev.counts]
  · rw [if_neg e]

@[simp] theorem Dev.counts_setSlot (s : Dev) (n k : Nat) (x : Slot) : (s.setSlot n k x).counts = s.counts := rfl

/-- An evaluation gives the channel a mode and a speed (R41, R42). -/
@[simp] theorem Dev.counts_evalSpeed (s : Dev) (n : Nat) : (s.evalSpeed n).counts = s.counts := by
  unfold Dev.evalSpeed
  dsimp only
  rw [Dev.counts_setChan_of_counted, Dev.counts_of_pfi (Dev.speedMag_pfi ..), Dev.counts_setChan_of_counted,
    Dev.counts_of_pfi (Dev.speedMag_pfi ..)] <;> rfl

@[simp] theorem Dev.counts_latchEval (s : Dev) (mask : Nat) : (s.latchEval mask).counts = s.counts := by
  unfold Dev.latchEval
  refine List.foldlRecOn (motive := fun t : Dev => t.counts = s.counts) _ _ rfl fun t ht n _ => ?_
  split
  · rw [Dev.counts_evalSpeed, ht]
  · exact ht

/-- A slot that fires raises records, latches, disarms itself and pulses a line (R51). -/
@[simp] theorem Dev.counts_fire (s : Dev) (n k at_ : Nat) (atArm snap dirNeg : Bool) :
    (s.fire n k at_ atArm snap dirNeg).counts = s.counts := by
  have pulsed : ∀ t : Dev, ∀ line, (t.pulseLpe line at_).counts = t.counts := fun t line =>
    Dev.counts_of_pfi (t.pulseLpe_pfi line at_)
  have latched : ∀ t : Dev, ∀ mask, (t.latchRecords mask at_).counts = t.counts := fun t mask =>
    Dev.counts_of_pfi (t.latchRecords_pfi mask at_)
  have raised : ∀ p, (s.event 3 2 1 (n + 256 * k) at_ p).counts = s.counts := fun p =>
    Dev.counts_of_pfi (s.event_pfi ..)
  unfold Dev.fire
  dsimp only
  (repeat' split) <;> simp only [pulsed, latched, raised, Dev.counts_setSlot]

@[simp] theorem Dev.counts_crossSlots (s : Dev) (n : Nat) (u0 u1 : Int) (snap : Bool) :
    (s.crossSlots n u0 u1 snap).counts = s.counts := by
  unfold Dev.crossSlots
  refine List.foldlRecOn (motive := fun t : Dev => t.counts = s.counts) _ _ (s.counts_latchEval _) fun t ht k _ => ?_
  rw [Dev.counts_fire, ht]

/-- The direction, the extreme and the speed edges follow a count (R38). -/
@[simp] theorem Dev.counts_direction (s : Dev) (n : Nat) (up : Bool) : (s.direction n up).counts = s.counts := by
  unfold Dev.direction
  extract_lets c edge
  split
  · split
    · exact Dev.counts_setChan_of_counted rfl
    · split
      · exact Dev.counts_setChan_of_counted rfl
      · rfl
  · split <;> exact Dev.counts_setChan_of_counted rfl

/-- The pass-through follows the counts of channel 0 with a state of its own (R53). -/
@[simp] theorem Dev.counts_passThrough (s : Dev) (up : Bool) : (s.passThrough up).counts = s.counts := by
  have advanced : ∀ d, (s.ptAdvance d).counts = s.counts := fun d => by
    unfold Dev.ptAdvance
    rw [Dev.counts_of_pfi (Dev.ptPins_pfi ..)]
    rfl
  unfold Dev.passThrough
  split
  · extract_lets fwd d k div
    split
    · exact advanced 1
    · split
      · exact advanced 3
      · rfl
  · rfl

/-- A count moves the raw counter of its channel by one and notes its instant; no channel's levels change. -/
theorem Dev.counts_takeCount (s : Dev) (n : Nat) (up : Bool) :
    (s.takeCount n up).counts = fun m => if m = n then ((s.chan n).qa, (s.chan n).qb,
      (if up then (s.chan n).raw + 1 else (s.chan n).raw - 1), s.dt) else s.counts m := by
  have limits : ∀ t : Dev, ∀ lo0 hi0 at_, (t.limitEvents n lo0 hi0 at_).counts = t.counts := fun t lo0 hi0 at_ =>
    Dev.counts_of_pfi (t.limitEvents_pfi ..)
  unfold Dev.takeCount
  dsimp only
  split <;> simp only [Dev.counts_passThrough, limits, Dev.counts_crossSlots, Dev.counts_direction,
    Dev.counts_setChan] <;> rfl

end Sys2Proof.Machine
end

section
/-! PROOFS. COUNT (03 R34, R35, R48): what one sample of the pins of a quadrature channel does. The filter of each line
gives the levels; levels that are the accepted ones, one step from them, or both changed, are the three cases. -/
namespace Sys2Proof.Machine

theorem exec_count {s : State} (hp : s.dev.powered 6 = true) (n : Fin 8) (a b : Bool) :
    exec (.count n a b) s = .next (s.withDev (s.dev.samplePins n a b)) := State.upd_on hp _

/-- A level that is not new, or has lasted, is the accepted one after the sample. -/
theorem filterStep_accepts {need run : Nat} {level pin : Bool} (h : level ≠ pin → need ≤ run + 1) :
    filterStep need level run pin = (pin, 0) := by
  unfold filterStep
  split
  next e => rw [e]
  next e => rw [if_pos (h (Ne.symm e))]

/-- A new level that has not lasted is not accepted; a sample of the accepted one cancels the run. -/
theorem filterStep_keeps {need run : Nat} {level pin : Bool} (h : pin ≠ level → run + 1 < need) :
    filterStep need level run pin = (level, if pin = level then 0 else run + 1) := by
  unfold filterStep
  split
  · rfl
  next e => rw [if_neg (Nat.not_le.mpr (h e))]

/-- The filters of both lines give new levels. -/
theorem Dev.samplePins_accepts {s : Dev} {n : Nat} {a b : Bool}
    (ha : (s.chan n).qa ≠ a → s.filt n ≤ (s.chan n).runA + 1) (hb : (s.chan n).qb ≠ b → s.filt n ≤ (s.chan n).runB + 1) :
    s.samplePins n a b =
      (s.setChan n { s.chan n with pinA := a, pinB := b, runA := 0, runB := 0 }).acceptLevels n a b := by
  simp only [Dev.samplePins, filterStep_accepts ha, filterStep_accepts hb]

/-- The accepted levels again are no step and no error. -/
theorem Dev.acceptLevels_same {s : Dev} {n : Nat} : s.acceptLevels n (s.chan n).qa (s.chan n).qb =
    s.setChan n (s.chan n) := by
  simp [Dev.acceptLevels, quadStep]

/-- Samples that the filters do not accept are noted, and nothing else. -/
theorem Dev.samplePins_keeps {s : Dev} {n : Nat} {a b : Bool} (ha : a ≠ (s.chan n).qa → (s.chan n).runA + 1 < s.filt n)
    (hb : b ≠ (s.chan n).qb → (s.chan n).runB + 1 < s.filt n) :
    s.samplePins n a b = s.setChan n { s.chan n with
      pinA := a, pinB := b,
      runA := if a = (s.chan n).qa then 0 else (s.chan n).runA + 1,
      runB := if b = (s.chan n).qb then 0 else (s.chan n).runB + 1 } := by
  generalize hc : ({ s.chan n with
      pinA := a, pinB := b,
      runA := if a = (s.chan n).qa then 0 else (s.chan n).runA + 1,
      runB := if b = (s.chan n).qb then 0 else (s.chan n).runB + 1 } : Chan) = c
  have same := Dev.acceptLevels_same (s := s.setChan n c) (n := n)
  rw [Dev.chan_setChan_same, Dev.setChan_idem] at same
  subst hc
  simpa only [Dev.samplePins, filterStep_keeps ha, filterStep_keeps hb] using same

theorem quadStep_eq_zero_of_both {a0 b0 a1 b1 : Bool} (ha : a0 ≠ a1) (hb : b0 ≠ b1) : quadStep a0 b0 a1 b1 = 0 := by
  rw [quadStep, if_pos ⟨ha, hb⟩]

/-- Levels one quadrature step from the accepted ones are a count, up by the step and INV (R34). -/
theorem Dev.acceptLevels_step {s : Dev} {n : Nat} {a b : Bool} (he : s.qEnabled n = true)
    (hq : quadStep (s.chan n).qa (s.chan n).qb a b ≠ 0) :
    s.acceptLevels n a b = (s.setChan n { s.chan n with qa := a, qb := b }).takeCount n
      ((quadStep (s.chan n).qa (s.chan n).qb a b == 1) != s.bit (Reg.pfiQcfg n) 1) := by
  have one : ((s.chan n).qa != a && (s.chan n).qb != b) = false := by
    rw [Bool.eq_false_iff, ne_eq, Bool.and_eq_true, bne_iff_ne, bne_iff_ne]
    exact fun ⟨ha, hb⟩ => hq (quadStep_eq_zero_of_both ha hb)
  have en : (s.setChan n { s.chan n with qa := a, qb := b }).qEnabled n = true := he
  have inv : (s.setChan n { s.chan n with qa := a, qb := b }).bit (Reg.pfiQcfg n) 1 = s.bit (Reg.pfiQcfg n) 1 := rfl
  simp [Dev.acceptLevels, en, one, inv, hq]

/-- Levels that both change are undetermined (R34). -/
theorem Dev.acceptLevels_both {s : Dev} {n : Nat} {a b : Bool} (he : s.qEnabled n = true)
    (ha : (s.chan n).qa ≠ a) (hb : (s.chan n).qb ≠ b) :
    s.acceptLevels n a b = (s.setChan n { s.chan n with qa := a, qb := b }).phaseError n := by
  have en : (s.setChan n { s.chan n with qa := a, qb := b }).qEnabled n = true := he
  simp [Dev.acceptLevels, en, ha, hb]

/-- A sample with which the levels move one step counts. -/
theorem Dev.counts_samplePins_step {s : Dev} {n : Nat} {a b : Bool} (he : s.qEnabled n = true)
    (hq : quadStep (s.chan n).qa (s.chan n).qb a b ≠ 0)
    (ha : (s.chan n).qa ≠ a → s.filt n ≤ (s.chan n).runA + 1) (hb : (s.chan n).qb ≠ b → s.filt n ≤ (s.chan n).runB + 1) :
    (s.samplePins n a b).counts n = (a, b,
      (if (quadStep (s.chan n).qa (s.chan n).qb a b == 1) != s.bit (Reg.pfiQcfg n) 1
        then (s.chan n).raw + 1 else (s.chan n).raw - 1), s.dt) := by
  rw [Dev.samplePins_accepts ha hb, Dev.acceptLevels_step (s := s.setChan n _) he (by rwa [Dev.chan_setChan_same]),
    Dev.counts_takeCount]
  refine (if_pos rfl).trans ?_
  simp only [Dev.chan_setChan_same]
  rfl

/-! ## An undetermined count -/

/-- A sample with which both lines take a new level is an undetermined count. -/
theorem Dev.samplePins_both {s : Dev} {n : Nat} {a b : Bool} (he : s.qEnabled n = true)
    (ha : (s.chan n).qa ≠ a) (hb : (s.chan n).qb ≠ b)
    (hfa : s.filt n ≤ (s.chan n).runA + 1) (hfb : s.filt n ≤ (s.chan n).runB + 1) :
    s.samplePins n a b =
      ((s.setChan n { s.chan n with pinA := a, pinB := b, runA := 0, runB := 0 }).setChan n
        { s.chan n with qa := a, qb := b, pinA := a, pinB := b, runA := 0, runB := 0 }).phaseError n := by
  rw [Dev.samplePins_accepts (fun _ => hfa) (fun _ => hfb), Dev.acceptLevels_both (s := s.setChan n _) he]
  all_goals rw [Dev.chan_setChan_same]
  · exact ha
  · exact hb

/-- A field of one bit reads back. -/
theorem bitOf_setBitsOf_zero (w : Word) : bitOf (setBitsOf w 0 0 1) 0 = true := by
  have hw := w.isLt
  have odd : (setBitsOf w 0 0 1).toNat % 2 = 1 := by
    simp only [setBitsOf, natBits, BitVec.toNat_ofNat]
    omega
  rw [bitOf, BitVec.getLsbD, Nat.testBit_zero, odd]
  rfl

@[simp] theorem Dev.reg_setReg_same (s : Dev) (off : Nat) (w : Word) : (s.setReg off w).reg off = w := by
  simp [Dev.reg]

theorem Dev.bit_setBit_zero (s : Dev) (off : Nat) : (s.setBit off 0 true).bit off 0 = true := by
  simp only [Dev.bit, Dev.setBit, Dev.setFld, Dev.reg_setReg_same]
  exact bitOf_setBitsOf_zero _

/-- What an undetermined count notes before PHASE_ERR: its Chrysalis counter, and the event at the first (R48). -/
def Dev.phaseNote (s : Dev) (n : Nat) : Dev :=
  let s := s.chrInc 2 (2 * n + 1)
  if s.bit (Reg.pfiQstat n) 0 then s else s.event 3 8 5 n s.dt [wrapS 32 (s.chan n).u]

/-- An undetermined count is noted, sets PHASE_ERR and is passed to CPF. -/
theorem Dev.phaseError_eq (s : Dev) (n : Nat) :
    ∃ c, s.phaseError n = { (s.phaseNote n).setBit (Reg.pfiQstat n) 0 true with cpf := c } := by
  by_cases h0 : n = 0
  · exact ⟨_, if_pos h0⟩
  · by_cases h1 : n = 1
    · exact ⟨_, (if_neg h0).trans (if_pos h1)⟩
    · exact ⟨_, (if_neg h0).trans (if_neg h1)⟩

theorem Dev.phaseNote_pfi (s : Dev) (n : Nat) : (s.phaseNote n).pfi = s.pfi := by
  unfold Dev.phaseNote
  dsimp only
  split
  · rfl
  · rw [Dev.event_pfi]
    rfl

theorem Dev.phaseError_pfi (s : Dev) (n : Nat) : (s.phaseError n).pfi = s.pfi := by
  obtain ⟨c, h⟩ := s.phaseError_eq n
  rw [h]
  exact s.phaseNote_pfi n

theorem Dev.bit_phaseError (s : Dev) (n : Nat) : (s.phaseError n).bit (Reg.pfiQstat n) 0 = true := by
  obtain ⟨c, h⟩ := s.phaseError_eq n
  rw [h]
  exact (s.phaseNote n).bit_setBit_zero (Reg.pfiQstat n)

/-- Settles O1: the filters give the new levels, which are one step from the accepted ones, so that the sample is a count;
what it shoots off — slots that fire, speeds that they evaluate, limits, the pass-through — leaves the counts. -/
theorem countMovesRawByOne : Obligations.CountMovesRawByOne := by
  intro n a b s hp he hq ha hb
  refine ⟨_, exec_count hp n a b, rfl, ?_⟩
  have key := Dev.counts_samplePins_step he hq ha hb
  simp only [Dev.counts, Chan.counted, Prod.mk.injEq] at key
  obtain ⟨levelA, levelB, raw, edge⟩ := key
  exact ⟨levelA, levelB, edge, raw⟩

/-- Settles O2: both filters give a new level, so that the sample is an undetermined count: PHASE_ERR is set, and of the
channels only the levels and the runs of this one change. -/
theorem countUndetermined : Obligations.CountUndetermined := by
  intro n a b s hp he ha hb hfa hfb
  refine ⟨_, exec_count hp n a b, rfl, ?_⟩
  dsimp only
  rw [Dev.samplePins_both he ha hb hfa hfb]
  refine ⟨Dev.bit_phaseError .., ?_, fun m hm => ?_, ?_⟩
  · rw [Dev.chan_of_pfi (Dev.phaseError_pfi ..), Dev.chan_setChan_same]
  · rw [Dev.chan_of_pfi (Dev.phaseError_pfi ..), Dev.chan_setChan_other _ hm, Dev.chan_setChan_other _ hm]
  · rw [Dev.phaseError_pfi]
    rfl

/-- Settles O60: a new level that is too young and an accepted one both leave the accepted level, and the accepted levels
are no count. -/
theorem countFilters : Obligations.CountFilters := by
  refine ⟨fun n a b s hp ha hb => ?_, fun n s hp => ?_⟩
  · rw [exec_count hp, Dev.samplePins_keeps (fun _ => ha) (fun _ => hb)]
  · rw [exec_count hp, Dev.samplePins_keeps (fun h => absurd rfl h) (fun h => absurd rfl h), if_pos rfl, if_pos rfl]

end Sys2Proof.Machine
end

section
/-! PROOFS. The events, configuration writes and commands of the Position Feedback Interface (03 R39, R41, R45, R46,
R55-R59): what each row of a channel comes to when its condition or its checks hold. -/
namespace Sys2Proof.Machine

/-! ## Events -/

/-- The sample that completes the filter of QZn gives it the new level (R34). -/
theorem Dev.sampleZ_accepts {s : Dev} {n : Nat} {z : Bool} (hf : s.filt n ≤ (s.chan n).runZ + 1) :
    s.sampleZ n z = s.setChan n { s.chan n with pinZ := z, qz := z, runZ := 0 } := by
  simp only [Dev.sampleZ, filterStep_accepts (fun _ => hf)]

/-- The index goes active with the filtered level, and QOZ follows (R45, R53). -/
theorem indexGoesActive_accepted {s : Dev} {n : Nat} (hf : s.filt n ≤ (s.chan n).runZ + 1)
    (hi : (s.chan n).idxActive = false) {c : Chan}
    (hc : c = { s.chan n with pinZ := s.idxLevel n, qz := s.idxLevel n, runZ := 0 }) :
    indexGoesActive n s = s.ptPins ((s.setChan n c).setChan n
      { c with idxActive := true, idxTaken := s.qEnabled n, idxX := (s.chan n).u }) := by
  unfold indexGoesActive
  dsimp only
  rw [Dev.sampleZ_accepts hf, ← hc, Dev.chan_setChan_same]
  have active : c.idxActive = false := by rw [hc]; exact hi
  have level : c.qz = s.idxLevel n := by rw [hc]
  have u : c.u = (s.chan n).u := by rw [hc]; rfl
  rw [if_pos ⟨by rw [active]; rfl, level⟩, Dev.indexOn]
  simp only [Dev.chan_setChan_same, u]
  rfl

/-- An active index goes inactive with the filtered level and is checked (R45, R46). -/
theorem indexCheck_accepted {s : Dev} {n : Nat} (hf : s.filt n ≤ (s.chan n).runZ + 1)
    (hi : (s.chan n).idxActive = true) :
    indexCheck n s = (s.ptPins (s.setChan n
      { s.chan n with pinZ := !s.idxLevel n, qz := !s.idxLevel n, runZ := 0 })).indexOff n := by
  unfold indexCheck
  dsimp only
  rw [Dev.sampleZ_accepts hf, Dev.chan_ptPins, Dev.chan_setChan_same, if_pos ⟨hi, rfl⟩]

theorem zeroSpeedTimeout_reached {s : Dev} {n : Nat} {e : Nat × BitVec 48} {l : List (Nat × BitVec 48)}
    (hl : (s.chan n).edges = e :: l) (he : s.qEnabled n = true)
    (ht : s.fld (Reg.pfiQest n) 15 8 * 1000000 ≤ s.dt - e.1) :
    zeroSpeedTimeout n s = s.setChan n { s.chan n with timedOut := true } := by
  simp [zeroSpeedTimeout, hl, he, ht]

/-- A good read of a channel that has not failed (R56). -/
theorem ssiFrameComplete_good {s : Dev} {m : Nat} {idle start par : Bool} {pos stat ts : Nat}
    (hr : (s.ssi m).reading = some ts) (hg : s.ssiFailure m idle start pos stat par = none)
    (hf : (s.ssi m).fail = false) :
    ssiFrameComplete m idle start pos stat par s = s.setSsi m { s.ssi m with
      reading := none, prevRead := some (s.ssiValue m pos), fails := 0, goods := (s.ssi m).goods + 1,
      recent := (⟨s.ssiValue m pos, ts⟩ :: (s.ssi m).recent).take 8,
      prevGood := (s.ssi m).good, good := some ⟨s.ssiValue m pos, ts⟩, fail := false, stale := false } := by
  simp [ssiFrameComplete, hr, hg, hf]

/-! ## Configuration writes -/

/-- A write to a quadrature channel that stays disabled (R41, R57). -/
theorem pfiQcfgWrite_disabled {s : Dev} {n : Nat} {v : Word} (hn : n < s.quads) (he : s.bit (Reg.pfiQcfg n) 0 = false)
    (hv : bitOf v 0 = false) (hw : bitsOf (writeBits (s.reg (Reg.pfiQcfg n)) v 0x3F1FF7 0) 19 16 ≠ 0) :
    pfiQcfgWrite n v s = ((s.settleMode n).setReg (Reg.pfiQcfg n)
      (writeBits (s.reg (Reg.pfiQcfg n)) v 0x3F1FF7 0)).settleMode n := by
  have off : bitOf (s.reg (Reg.pfiQcfg n)) 0 = false := he
  simp [pfiQcfgWrite, Nat.not_le.mpr hn, off, hv, hw]

/-- A write to an SSI channel that stays disabled ends a read in progress (R55, R57). -/
theorem pfiScfgWrite_disabled {s : Dev} {m : Nat} {v w : Word} (hm : m < s.ssis) (he : s.bit (Reg.pfiScfg m) 0 = false)
    (hv : bitOf v 0 = false) (hw : w = writeBits (s.reg (Reg.pfiScfg m)) v 0x3F1F03 0) (hen : bitOf w 0 = false)
    (hp : 7 ≤ bitsOf w 12 8) (hs : bitsOf w 19 16 ≤ 4) :
    pfiScfgWrite m v s = (s.setReg (Reg.pfiScfg m) w).setSsi m
      { (s.setReg (Reg.pfiScfg m) w).ssi m with reading := none } := by
  have off : bitOf (s.reg (Reg.pfiScfg m)) 0 = false := he
  subst hw
  simp [pfiScfgWrite, Nat.not_le.mpr hm, off, hv, hen, Nat.not_lt.mpr hp, Nat.not_lt.mpr hs]

/-! ## Commands -/

/-- A dispatched command whose effect edge has come acts (R59). -/
theorem State.cmd_atEdge {s : State} {d : Desc} (hp : s.dev.powered 6 = true) (hs : s.dev.isInFlight d = true)
    (ht : s.dev.pfiEdge d ≤ s.dev.dt) (f : Dev → Dev) :
    s.cmd d (whenOn 6 (atEdge d f)) = .next (s.withDev (f s.dev)) := by
  rw [State.cmd_on hp hs, atEdge, if_neg (Nat.not_lt.mpr ht)]

/-- A channel command whose checks pass acts on its enabled channel. -/
theorem Dev.pfiRun_passed {s : Dev} {d : Desc} {bad : Option Status} (hb : bad = none) (ho : s.pfiOn d = true)
    (f : Dev → Dev) : s.pfiRun d bad f = f s := by
  rw [hb, Dev.pfiRun]
  exact if_pos ho

/-- A check that passes is a well-formed descriptor of an enabled channel. -/
theorem Dev.pfiCheck_eq_none {s : Dev} {d : Desc} {q : Bool} (h : s.pfiCheck d q = none) :
    s.pfiForm d q false = none ∧ s.pfiOn d = true := by
  unfold Dev.pfiCheck at h
  cases hf : s.pfiForm d q false with
  | some st => simp [hf] at h
  | none => simpa [hf] using h

/-- Evaluating no channel changes nothing. -/
theorem Dev.latchEval_zero (s : Dev) : s.latchEval 0 = s := by
  unfold Dev.latchEval
  refine List.foldlRecOn (motive := fun t : Dev => t = s) _ _ rfl fun t ht n _ => ?_
  simp only [ht, tbit, Nat.zero_testBit, Bool.false_and, Bool.false_eq_true, if_false]

/-- A slot ahead of u does not fire at its arming, and is not behind (Table 3-3). -/
theorem Dev.judgeArm_ahead {s : Dev} {n k : Nat} (hd : (s.chan n).dirNeg = false) (hu : (s.chan n).u < (s.slot n k).pos)
    (at_ : Nat) : s.judgeArm n k at_ =
      (s.setSlot n k { s.slot n k with armed := true, fired := false, behind := false }, false, false) := by
  have behind : s.slotBehind n k = false := by simp [Dev.slotBehind, hd, Int.le_of_lt hu]
  have fires : s.firesAtArm n k = false := by simp [Dev.firesAtArm, behind, Int.ne_of_gt hu]
  have eval : s.evalFiring n [] = s := s.latchEval_zero
  simp [Dev.judgeArm, Dev.armAt, fires, behind, eval]

section
variable {s : Dev} {d : Desc}

theorem pfiRead_quad (hc : s.pfiCheck d false = none) (hn : pfiCh d < 8) :
    pfiRead d s = s.complete d .done (s.pfiEdge d)
      [wordI (s.pos (pfiCh d)), wordI (s.chan (pfiCh d)).speed, lo64 (s.chan (pfiCh d)).tEdge,
       hi64 (s.chan (pfiCh d)).tEdge] := by
  obtain ⟨form, on⟩ := Dev.pfiCheck_eq_none hc
  rw [pfiRead, Dev.pfiRun_passed form on, if_pos hn]

theorem pfiRead_ssi (hc : s.pfiCheck d false = none) {m : Nat} (hm : pfiCh d = 0x10 + m) {v : Int} {y : Dev}
    (hy : s.ssiSpeed m = (v, y)) :
    pfiRead d s = y.complete d .done (y.pfiEdge d)
      [wordI ((y.ssi m).good.getD ⟨0, 0⟩).pos, wordI v, lo64 ((y.ssi m).good.getD ⟨0, 0⟩).at_,
       hi64 ((y.ssi m).good.getD ⟨0, 0⟩).at_] := by
  obtain ⟨form, on⟩ := Dev.pfiCheck_eq_none hc
  have ssi : ¬ pfiCh d < 8 := by omega
  have idx : pfiCh d - 0x10 = m := by omega
  rw [pfiRead, Dev.pfiRun_passed form on, if_neg ssi, idx, hy]

/-- PFI_SET_POS (R37): u becomes word 3, and the armed slots and the limits are judged on it. -/
theorem pfiSetPos_passed (hc : s.pfiCheck d true = none) :
    pfiSetPos d s = (((s.setChan (pfiCh d) { s.chan (pfiCh d) with
        offset := sWord (d.w 3) - (s.chan (pfiCh d)).raw.toInt,
        idxX := if (s.chan (pfiCh d)).idxActive then min (s.chan (pfiCh d)).idxX (sWord (d.w 3))
          else (s.chan (pfiCh d)).idxX }).rejudge (pfiCh d) (s.pfiEdge d)).limitEvents
        (pfiCh d) (s.limLo (pfiCh d)) (s.limHi (pfiCh d)) (s.pfiEdge d)).complete d .done (s.pfiEdge d) [] := by
  obtain ⟨form, on⟩ := Dev.pfiCheck_eq_none hc
  rw [pfiSetPos, Dev.pfiRun_passed form on]

theorem pfiCmpDisarm_passed (hc : s.pfiCheck d true = none) (hk : pfiSlot d < slotCount (pfiCh d)) :
    pfiCmpDisarm d s = (s.setSlot (pfiCh d) (pfiSlot d) .reset).complete d .done (s.pfiEdge d)
      [wordN (if (s.slot (pfiCh d) (pfiSlot d)).armed then 0
        else if (s.slot (pfiCh d) (pfiSlot d)).fired then 2 else 1)] := by
  obtain ⟨form, on⟩ := Dev.pfiCheck_eq_none hc
  rw [pfiCmpDisarm, decide_eq_false (Nat.not_le.mpr hk), Dev.pfiRun_passed form on]

theorem pfiClear_quad (hc : s.pfiCheck d false = none) (hn : pfiCh d < 8) :
    pfiClear d s = (s.setReg (Reg.pfiQstat (pfiCh d))
      (writeBits (s.reg (Reg.pfiQstat (pfiCh d))) (d.w 3) 0 0x143)).complete d .done (s.pfiEdge d) [] := by
  obtain ⟨form, on⟩ := Dev.pfiCheck_eq_none hc
  rw [pfiClear, Dev.pfiRun_passed form on, if_pos hn]

theorem pfiClear_ssi (hc : s.pfiCheck d false = none) {m : Nat} (hm : pfiCh d = 0x10 + m) :
    pfiClear d s = (s.setReg (Reg.pfiSstat m)
      (writeBits (s.reg (Reg.pfiSstat m)) (d.w 3) 0 0x9)).complete d .done (s.pfiEdge d) [] := by
  obtain ⟨form, on⟩ := Dev.pfiCheck_eq_none hc
  have ssi : ¬ pfiCh d < 8 := by omega
  have idx : pfiCh d - 0x10 = m := by omega
  rw [pfiClear, Dev.pfiRun_passed form on, if_neg ssi, idx]

/-- PFI_CMP_ARM of a slot ahead of u in direction DIR (R50): it is armed and nothing fires. -/
theorem pfiCmpArm_ahead (hc : s.pfiCheck d true = none) (hm : s.maskAbsent (bitsOf (d.w 4) 25 16) = false)
    (hk : pfiSlot d < slotCount (pfiCh d)) (hdir : bitsOf (d.w 4) 1 0 ≠ 3)
    (hz : Nat.land (d.w 4).toNat 0xFC00F080 = 0) (hr : s.armReserved d = false)
    (hd : (s.chan (pfiCh d)).dirNeg = false) (hu : (s.chan (pfiCh d)).u < sWord (d.w 3)) :
    pfiCmpArm d s = (s.setSlot (pfiCh d) (pfiSlot d) (armSlot d)).complete d .done (s.pfiEdge d)
      [0, wordI (s.chan (pfiCh d)).u] := by
  obtain ⟨form, on⟩ := Dev.pfiCheck_eq_none hc
  have more : (decide (slotCount (pfiCh d) ≤ pfiSlot d) || bitsOf (d.w 4) 1 0 == 3 ||
      Nat.land (d.w 4).toNat 0xFC00F080 != 0) = false := by
    rw [hz]
    simp [Nat.not_le.mpr hk, hdir]
  have judged := Dev.judgeArm_ahead (s := s.setSlot (pfiCh d) (pfiSlot d) (armSlot d)) (n := pfiCh d) (k := pfiSlot d)
    hd (by rw [Dev.slot_setSlot_same]; exact hu) (s.pfiEdge d)
  have same : { armSlot d with armed := true, fired := false, behind := false } = armSlot d := rfl
  rw [Dev.slot_setSlot_same, same, Dev.setSlot_idem] at judged
  have edge : (s.setSlot (pfiCh d) (pfiSlot d) (armSlot d)).pfiEdge d = s.pfiEdge d := rfl
  unfold pfiCmpArm
  dsimp only
  rw [hm, more, if_neg Bool.false_ne_true, Dev.pfiRun_passed form on, hr]
  simp [edge, judged, b2n, wordN]

/-- PFI_LATCH (R43): the latch at the effect edge. -/
theorem pfiLatch_passed (hm : s.maskAbsent (bitsOf (d.w 3) 9 0) = false) (ho : d.object = 0)
    (hz : bitsOf (d.w 3) 31 10 = 0) :
    pfiLatch d s = (s.latch (bitsOf (d.w 3) 9 0) (s.pfiEdge d)).complete d .done (s.pfiEdge d) [] := by
  simp [pfiLatch, hm, ho, hz]

end

/-! ## The rows together -/

/-- Settles O3: the events, the configuration writes and the commands, row by row. -/
theorem pfiRowsComplete : Obligations.PfiRowsComplete := by
  refine ⟨⟨?_, ?_, ?_, ?_⟩, ⟨?_, ?_⟩, fun d s hp hs ht => ?_⟩
  · intro n z s hp hz _ hf hi c hc
    subst hz
    exact (State.upd_on hp _).trans (by rw [indexGoesActive_accepted hf hi hc])
  · intro n z s hp hz _ hf hi
    subst hz
    exact (State.upd_on hp _).trans (by rw [indexCheck_accepted hf hi])
  · intro n s e l hp hl he ht
    exact (State.upd_on hp _).trans (by rw [zeroSpeedTimeout_reached hl he ht])
  · intro m idle start par pos stat ts s hp hr hg hf
    exact (State.upd_on hp _).trans (by rw [ssiFrameComplete_good hr hg hf])
  · intro n v s h7 h0 hn he hv hw
    exact (State.upd_bar h7 h0 _).trans (by rw [pfiQcfgWrite_disabled hn he hv hw])
  · intro m v s h7 h0 hm he hv hen hpos hstat
    exact (State.upd_bar h7 h0 _).trans (by rw [pfiScfgWrite_disabled hm he hv rfl hen hpos hstat])
  · have act := State.cmd_atEdge hp hs ht
    refine ⟨fun hq hc hn => ⟨?_, ?_, ?_, ?_, ?_⟩, fun m v y hm hc hy => ⟨?_, ?_⟩, fun hm ho hz => ?_⟩
    · exact (act _).trans (by rw [pfiRead_quad hc hn])
    · exact (act _).trans (by rw [pfiSetPos_passed hq])
    · intro x hx hk
      subst hx
      exact (act _).trans (by rw [pfiCmpDisarm_passed hq hk])
    · exact (act _).trans (by rw [pfiClear_quad hc hn])
    · intro hm hk hdir hz hr hd hu
      exact (act _).trans (by rw [pfiCmpArm_ahead hq hm hk hdir hz hr hd hu])
    · exact (act _).trans (by rw [pfiRead_ssi hc hm hy])
    · exact (act _).trans (by rw [pfiClear_ssi hc hm])
    · exact (act _).trans (by rw [pfiLatch_passed hm ho hz])

end Sys2Proof.Machine
end

section
/-! PROOFS. CPF_PERIOD (04 R64-R76, R86): a period in which no command waits and no zone edge has come. Handling what
waits and the edges of the period then changes nothing, and what is left is the parts of the estimate in order. -/
namespace Sys2Proof.Machine

/-- A change that leaves the record of car position fusion leaves the block. -/
theorem Dev.setCpf_of_fixed {s : Dev} {f : Cpf → Cpf} (hf : f s.cpf = s.cpf) : s.setCpf f = s := by
  rw [Dev.setCpf, hf]

/-- Emptying the queue of corrections again changes nothing (R85). -/
theorem Dev.clearCorrect_of_nil {s : Dev} (h : s.cpf.waitCorrect = []) :
    s.setCpf (fun c => { c with waitCorrect := [] }) = s :=
  Dev.setCpf_of_fixed (by rw [← h])

/-- With no load and no commit waiting the period begins with the block as it is (R78, R87). -/
theorem Dev.periodWaits_of_nil {s : Dev} (hl : s.cpf.waitLoad = []) (hc : s.cpf.waitCommit = []) :
    s.periodWaits = s := by
  have load : s.setCpf (fun c => { c with waitLoad := [] }) = s := Dev.setCpf_of_fixed (by rw [← hl])
  have commit : s.setCpf (fun c => { c with waitCommit := [] }) = s := Dev.setCpf_of_fixed (by rw [← hc])
  simp only [Dev.periodWaits, hl, List.foldl_nil, load, hc, commit]

/-- With no zone edge there is none to process, and none has been seen (R63, R72). -/
theorem Dev.periodEdges_of_nil {s : Dev} (h : s.cpf.zoneEdges = []) : s.periodEdges = (s, .none) := by
  have due : s.cpf.dueEdges = [] := by rw [Cpf.dueEdges, h, List.filter_nil]
  have kept : s.setCpf (fun c => { c with
      zoneEdges := c.zoneEdges.filter (fun e => !([] : List ZoneEdge).contains e) }) = s :=
    Dev.setCpf_of_fixed (by rw [h, List.filter_nil, ← h])
  simp only [Dev.periodEdges, due, kept, List.foldl_nil]

/-- The parts of a period with no correction waiting, no zone edge and no run. -/
theorem Dev.runCpf_quiet {s t w : Dev} {v : Vote} {f : PeriodFlags} (hc : s.cpf.waitCorrect = [])
    (vote : s.computeTracks.periodVote = (t, v)) (edges : t.cpf.zoneEdges = []) (run : t.estimate.cpf.run = none)
    (missed : t.estimate.missedEdges .none = (w, f)) :
    s.runCpf = ((w.periodState v f).countReadmission.runPeriod.publishUnc.setCpf
      (fun c => { c with pubTk := c.tk })).periodEnd := by
  simp only [Dev.runCpf, hc, List.foldl_nil, Dev.clearCorrect_of_nil hc, vote, Dev.periodEdges_of_nil edges,
    if_pos run, missed]

/-- Settles O4: the setup values come into force and leave what waits, so that the period finds nothing to handle. -/
theorem cpfPeriodRuns : Obligations.CpfPeriodRuns := by
  intro s t w v f hp hr he hl hc hx vote edges run missed
  have waits : s.dev.forceCpf.periodWaits = s.dev.forceCpf := Dev.periodWaits_of_nil hl hc
  have enabled : s.dev.forceCpf.cpfEnabled = true := he
  have period : cpfPeriod s.dev = s.dev.forceCpf.runCpf := by
    simp only [cpfPeriod, waits, if_pos enabled]
  refine (State.upd_cpf hp hr _).trans ?_
  rw [period, Dev.runCpf_quiet (s := s.dev.forceCpf) hx vote edges run missed]

end Sys2Proof.Machine
end

section
/-! PROOFS. The events and commands of car position fusion (04 R74, R78, R80, R81, R83-R87): what each row comes to when
its condition or its checks hold. -/
namespace Sys2Proof.Machine

section
variable {s : Dev}

/-! ## Events -/

theorem trackReadmitted_counted (hx : s.cpf.ts.excluded = true) (hn : 40 ≤ s.cpf.tsWithin) {y : Dev}
    (hy : y = s.setCpf (fun c => { c with ts := { c.ts with excluded := false, healthy := true }, tsWithin := 0 })) :
    trackReadmitted s = y.event 3 2 0x0103 0 s.cpf.tk [2, y.uncOf .ts] := by
  subst hy
  exact if_pos (by rw [hx, decide_eq_true hn]; rfl)

/-- REVALIDATION by a tape that stands where the record of the table's generation says (R83). -/
theorem revalidation_tape {p : StoredPos} {t : LandingTable} (he : s.cpfEnabled = true)
    (hu : s.cpf.state = .unreferenced) (hd : s.cpf.revalDone = false) (hrec : s.cpf.record = some p)
    (htab : s.cpf.table = some t) (hg : p.gen = t.gen) (htape : s.tape = true) (hgood : 3 ≤ (s.ssi 0).goods)
    (hlim : dist s.tsNow p.x ≤ s.cfld Reg.cpfReval 31 0) {y z : Dev}
    (hy : y = s.setCpf (fun c => { c with revalDone := true }))
    (hz : z = (y.anchorAll s.tsNow (s.cfld Reg.cpfUnc 31 16)).cpfSet .valid 0x010B) :
    revalidation s = (z.event 3 2 0x010B 0 z.cpf.tk [1, wrapS 32 (s.tsNow - p.x)]).publishUnc := by
  have awaited : ¬(!s.cpfEnabled ∨ s.cpf.state ≠ .unreferenced ∨ s.cpf.revalDone) := by simp [he, hu, hd]
  have within : dist s.tsNow p.x ≤ y.cfld Reg.cpfReval 31 0 := by rw [hy]; exact hlim
  have unc : y.cfld Reg.cpfUnc 31 16 = s.cfld Reg.cpfUnc 31 16 := by rw [hy]; rfl
  simp only [revalidation, if_neg awaited, hrec, htab, if_neg (not_not_intro hg), if_pos htape,
    if_neg (Nat.not_lt.mpr hgood), ← hy, if_pos within, unc, ← hz]

/-- AUTO_CORRECTION_START of a SUSPECT or LOST car that the interlocks let move (R76). -/
theorem autoCorrectionStart_ready (he : s.cpfEnabled = true) (ht : s.cpf.table.isSome = true)
    (ha : s.cbit Reg.cpfCfg 5 = true) (hrest : s.atRest = true) (hb : s.hoistBusy = false)
    (hm : s.motionGranted = true) (hl : s.locksClosed = true) (hs : s.cpf.state = .suspect ∨ s.cpf.state = .lost) :
    autoCorrectionStart s = s.startCorrection none false := by
  have away : (s.cpf.state == .suspect || s.cpf.state == .lost ||
      (s.cpf.state == .unreferenced && s.cpf.revalDone)) = true := by
    obtain h | h := hs <;> rw [h] <;> rfl
  refine if_pos ?_
  rw [he, ht, ha, hrest, hb, hm, hl, away]
  rfl

/-- LEARN_RUN_COMPLETE in step 5 of a car levelled at its landing: the staged table is committed (R81). -/
theorem learnRunComplete_levelled {r : CpfRun} {t : LandingTable} (hr : s.cpf.run = some r)
    (hlearn : r.learning = true) (ha : r.abort = none) (h5 : r.step = 5)
    (hlev : s.levelledAt s.cpf.staged r.landing = true) (ht : s.cpf.staged = some t) :
    learnRunComplete s = (s.commitTable t ((t.gen + 1) % 2 ^ 32) s.cpf.tk).endLearning r t ((t.gen + 1) % 2 ^ 32) := by
  rw [ht] at hlev
  simp [learnRunComplete, hr, hlearn, ha, h5, ht, hlev]

/-- LEARN_PASS_TIMEOUT of a pass that has taken its time (R81). -/
theorem learnPassTimeout_reached {r : CpfRun} (hr : s.cpf.run = some r) (hlearn : r.learning = true) (h3 : r.step ≤ 3)
    (ht : r.passStart + s.passLimit ≤ s.dt) : learnPassTimeout s = s.endRunAborted r 8 s.dt := by
  simp [learnPassTimeout, hr, hlearn, h3, ht]

/-- CORRECTION_RUN_COMPLETE of a car levelled at the landing whose edges were accepted (R84, R85). -/
theorem correctionRunComplete_levelled {r : CpfRun} (hr : s.cpf.run = some r) (hcorr : r.learning = false)
    (ha : r.abort = none) (h4 : r.step = 4) (hacc : r.accepted = true)
    (hlev : s.levelledAt s.cpf.table r.landing = true) {y z : Dev}
    (hy : y = (s.setCpf (fun c => { c with run := none, drive := 0, missedRow := 0, flawed := false })).event 3 2 0x010B 0
      s.cpf.tk [r.phase + 2, wrapS 32 r.rv])
    (hz : z = y.cpfSet (if y.vote = .agree then .valid else .degraded) 0x010B) :
    correctionRunComplete s =
      z.publishUnc.completeOpt r.desc .done z.publishUnc.dt [0, wordN r.phase, wordI r.rv] := by
  have there : (r.step = 4 && r.accepted && s.levelledAt s.cpf.table r.landing) = true := by
    rw [decide_eq_true h4, hacc, hlev]
    rfl
  have moving : ¬r.learning = true := by rw [hcorr]; exact Bool.false_ne_true
  have now : z.publishUnc.dt = z.dt := rfl
  simp only [correctionRunComplete, hr, if_neg moving, ha, if_pos there, now]
  rw [hz, hy]
  rfl

/-! ## Commands -/

variable {d : Desc}

theorem cpfRead_passed (ho : d.object = 0) : cpfRead d s = s.complete d .done s.cpf.pubTk
    [wordI s.cpf.x, wordI s.cpf.v, wordN s.cpf.u,
     wordN (s.cpf.state.code + 16 * refCode s.cpf.reference + 64 * exclMask s.cpf)] :=
  if_neg (not_not_intro ho)

theorem cpfSetLoad_passed (ho : d.object = 0) (hz : bitsOf (d.w 3) 31 16 = 0) :
    cpfSetLoad d s = s.setCpf (fun c => { c with waitLoad := c.waitLoad ++ [d] }) :=
  if_neg (by simp [ho, hz])

theorem cpfCorrect_passed (ho : d.object = 0) (hz : bitsOf (d.w 3) 31 1 = 0) (he : s.cpfEnabled = true) :
    cpfCorrect d s = s.setCpf (fun c => { c with waitCorrect := c.waitCorrect ++ [d] }) :=
  if_neg (by simp [ho, hz, he])

/-- CPF_TABLE_COMMIT of the staged table's generation with the car at rest (R78). -/
theorem cpfTableCommit_passed {t : LandingTable} (ho : d.object = 0) (ht : s.cpf.staged = some t)
    (hg : (d.w 3).toNat = t.gen) (hrest : s.atRest = true) :
    cpfTableCommit d s = s.setCpf (fun c => { c with waitCommit := c.waitCommit ++ [d] }) := by
  simp [cpfTableCommit, ht, ho, hg, hrest]

/-- CPF_LEARN past its form, its setup and the interlocks: the first pass, downward (R80, R81). -/
theorem cpfLearn_passed (ho : d.object = 0) (hmin : 1 ≤ bitsOf (d.w 3) 8 0) (hmax : bitsOf (d.w 3) 8 0 ≤ 256)
    (hz : Nat.land (d.w 3).toNat 0xFFFEFE00 = 0) (he : s.cpfEnabled = true)
    (hdz0 : bitsOf (s.creg Reg.cpfDzin) 7 0 ≠ 0xFF) (hlo : bitsOf (s.creg Reg.cpfDzin) 23 16 ≠ 0xFF)
    (hhi : bitsOf (s.creg Reg.cpfDzin) 31 24 ≠ 0xFF) (hslow : 50000 ≤ s.learnSpeed) (hfast : s.learnSpeed ≤ 1000000)
    (hrest : s.atRest = true) (hb : s.hoistBusy = false)
    (hs : s.cpf.state = .valid ∨ s.cpf.state = .degraded ∨ s.cpf.state = .unreferenced)
    (hm : s.motionGranted = true) (hl : s.locksClosed = true) {y : Dev}
    (hy : y = ((s.cpfSet .learning 0).recordTape).anchorAll 0 (s.cfld Reg.cpfUnc 15 0)) :
    cpfLearn d s = y.learnStep { y.cpf.newRun true (some d) 1 with
      expected := bitsOf (d.w 3) 8 0, stageOnly := bitOf (d.w 3) 16 } 1 (-y.learnSpeed) := by
  have form : ¬(d.object ≠ 0 ∨ bitsOf (d.w 3) 8 0 = 0 ∨ 256 < bitsOf (d.w 3) 8 0 ∨
      Nat.land (d.w 3).toNat 0xFFFEFE00 ≠ 0 ∨ !s.cpfEnabled ∨ bitsOf (s.creg Reg.cpfDzin) 7 0 = 0xFF ∨
      bitsOf (s.creg Reg.cpfDzin) 23 16 = 0xFF ∨ bitsOf (s.creg Reg.cpfDzin) 31 24 = 0xFF ∨
      s.learnSpeed < 50000 ∨ 1000000 < s.learnSpeed) := by
    rintro (h | h | h | h | h | h | h | h | h | h)
    · exact h ho
    · omega
    · omega
    · exact h hz
    · rw [he] at h
      exact Bool.false_ne_true h
    · exact hdz0 h
    · exact hlo h
    · exact hhi h
    · omega
    · omega
  have free : ¬(!s.atRest ∨ s.hoistBusy) := by simp [hrest, hb]
  have known : ¬(s.cpf.state ≠ .valid ∧ s.cpf.state ≠ .degraded ∧ s.cpf.state ≠ .unreferenced) := by
    obtain h | h | h := hs <;> simp [h]
  have permitted : ¬(!s.motionGranted ∨ !s.locksClosed) := by simp [hm, hl]
  subst hy
  simp only [cpfLearn, if_neg form, if_neg free, if_neg known, if_neg permitted]

theorem cpfTableRead_passed {t : LandingTable} (ho : d.object = 0) (hz : bitsOf (d.w 5) 31 1 = 0)
    (ht : (if bitOf (d.w 5) 0 then s.cpf.staged else s.cpf.table) = some t)
    (ha : s.addrOk d (d.w64 3) (tableImage t).length = true) :
    cpfTableRead d s = (s.hostWrite d (d.w64 3) (tableImage t)).complete d .done s.dt
      [wordN t.gen, wordN t.entries.length] := by
  simp [cpfTableRead, ho, hz, ht, ha]

/-- CPF_TABLE_WRITE of an image in host memory that parses, is in order and names the current generation (R78). -/
theorem cpfTableWrite_host {img : HostBytes} {t : LandingTable} (ho : d.object = 0) (hl : s.isLocal d = false)
    (hp : parseTable img = some t) (hord : entriesOrdered t.entries = true)
    (hg : t.gen = (s.cpf.table.map (·.gen)).getD 0) :
    cpfTableWrite d img s = (s.setCpf (fun c => { c with staged := some { t with
      entries := markEdited ((s.cpf.table.map (·.entries)).getD []) t.entries } })).complete d .done s.dt
        [wordN t.gen] := by
  have read : s.fetch d (d.w64 3) img = img := by simp [Dev.fetch, hl]
  have addr : s.addrOk d (d.w64 3) img.length = true := by simp [Dev.addrOk, hl]
  simp [cpfTableWrite, read, addr, ho, hp, hord, ← hg]

/-- A write of CPF_CFG that leaves CPF off takes its fields (R86). -/
theorem cpfCfgWrite_off {v : Word} (he : s.cpfEnabled = false) (hv : bitOf v 0 = false) :
    cpfCfgWrite v s = s.setReg Reg.cpfCfg (writeBits (s.reg Reg.cpfCfg) v 0x3F 0) := by
  have off : bitOf (s.reg Reg.cpfCfg) 0 = false := he
  simp [cpfCfgWrite, off, hv]

end

/-! ## The rows together -/

/-- Settles O5: the events and the commands, row by row. -/
theorem cpfRowsComplete : Obligations.CpfRowsComplete := by
  refine ⟨fun s hp hr => ?_, fun d s hp hr hs ho => ?_⟩
  · have act := State.upd_cpf hp hr
    refine ⟨?_, ?_, ?_, ?_, ?_, ?_⟩
    · intro y hy hx hn
      exact (act _).trans (by rw [trackReadmitted_counted hx hn hy])
    · intro p t y z he hu hd hrec htab hg htape hgood hlim hy hz
      exact (act _).trans (by rw [revalidation_tape he hu hd hrec htab hg htape hgood hlim hy hz])
    · intro he ht ha hrest hb hm hl hst
      exact (act _).trans (by rw [autoCorrectionStart_ready he ht ha hrest hb hm hl hst])
    · intro r t g hrun hlearn ha h5 hlev ht hg
      subst hg
      exact (act _).trans (by rw [learnRunComplete_levelled hrun hlearn ha h5 hlev ht])
    · intro r hrun hlearn h3 ht
      exact (act _).trans (by rw [learnPassTimeout_reached hrun hlearn h3 ht])
    · intro r y z hrun hcorr ha h4 hacc hlev hy hz
      exact (act _).trans (by rw [correctionRunComplete_levelled hrun hcorr ha h4 hacc hlev hy hz])
  · have act := State.cmd_cpf hp hr hs
    refine ⟨?_, ?_, ?_, ?_, ?_, ?_, ?_, ?_⟩
    · exact (act _).trans (by rw [cpfRead_passed ho])
    · intro hz
      exact (act _).trans (by rw [cpfSetLoad_passed ho hz])
    · intro hz he
      exact (act _).trans (by rw [cpfCorrect_passed ho hz he])
    · intro t ht hg hrest
      exact (act _).trans (by rw [cpfTableCommit_passed ho ht hg hrest])
    · intro hmin hmax hz he hdz0 hlo hhi hslow hfast hrest hb hst hm hl y hy
      exact (act _).trans (by
        rw [cpfLearn_passed ho hmin hmax hz he hdz0 hlo hhi hslow hfast hrest hb hst hm hl hy])
    · intro t hz ht ha
      exact (act _).trans (by rw [cpfTableRead_passed ho hz ht ha])
    · intro img t y h0 hy _ hparse hord hg hl hc
      have reads : s.dev.reads d = true := by simp [Dev.reads, h0]
      subst hy
      refine (State.updIn_cpf hp hr hs reads img _).trans ?_
      rw [cpfTableWrite_host ho hl hparse hord (by rw [hc]; exact hg), hc]
    · intro v h7 h0 he hv
      exact (State.upd_bar h7 h0 _).trans (by rw [cpfCfgWrite_off he hv])

end Sys2Proof.Machine
end

section
/-! PROOFS. MSQ_PROFILE_STEP of a goto under way (05 R89, R91). Each part of the step looks for an event of its own: an
abort, a fault, an arrival, a change of the car position state, a command, a limit. A part that finds none leaves the
block, and then the sample and the tally of the peak acceleration are what is left of the step. -/
namespace Sys2Proof.Machine

/-- A change that leaves the record of the hoist axis leaves the block. -/
theorem Dev.setHoist_of_fixed {s : Dev} {f : Hoist → Hoist} (hf : f s.hoist = s.hoist) : s.setHoist f = s := by
  rw [Dev.setHoist, hf]

/-- With no aborts waiting there is none to take before or after the step's instant (R102). -/
theorem Dev.hAbortsBefore_of_nil {s : Dev} (h : s.hoist.aborts = []) : s.hAbortsBefore = s := by
  have kept : s.setHoist (fun h => { h with aborts := h.aborts.filter (fun e => decide (s.cpf.tk ≤ e.2.2)) }) = s :=
    Dev.setHoist_of_fixed (by rw [h, List.filter_nil, ← h])
  simp only [Dev.hAbortsBefore, h, List.filter_nil, List.foldl_nil, kept]

theorem Dev.hAbortsAfter_of_nil {s : Dev} (h : s.hoist.aborts = []) : s.hAbortsAfter = s := by
  simp only [Dev.hAbortsAfter, h, List.foldl_nil]
  exact Dev.setHoist_of_fixed (by rw [← h])

/-- No fault, the link up and the permit granted: nothing ends the run (R105, R110). -/
theorem Dev.hGuards_travel {s : Dev} (hp : s.hoist.phase = .travel) (hf : s.invBit 3 = false)
    (hl : s.drv.linkUp = true) (hg : s.motionGranted = true) : s.hGuards = s := by
  simp [Dev.hGuards, hp, hf, hl, hg]

/-- The sample of a plan whose segments have not ended keeps the phase (R91). -/
theorem Dev.hSample_running {s : Dev} {p : Plan} (hp : s.hoist.plan = some p)
    (he : (p.at_ (s.cpf.tk + 250000)).2 = false) : s.hSample = s.setHoist (fun h => { h with
      prior := h.kin, kin := (p.at_ (s.cpf.tk + 250000)).1, sampleAt := s.cpf.tk + 250000,
      travelled := h.travelled + dist (p.at_ (s.cpf.tk + 250000)).1.xUm s.hoist.kin.xUm,
      runTravel := h.runTravel + dist (p.at_ (s.cpf.tk + 250000)).1.xUm s.hoist.kin.xUm }) := by
  simp [Dev.hSample, hp, he]

/-- A car that travels has not arrived (R102). -/
theorem Dev.hArrive_travel {s : Dev} (hp : s.hoist.phase = .travel) : s.hArrive = s := by
  simp [Dev.hArrive, hp]

/-- A motion to a target is not the speed profile's (R99). -/
theorem Dev.hSpeedMode_toTarget {s : Dev} {m : HMotion} {x : Int} (hm : s.hoist.active = some m)
    (hx : m.target = some x) : s.hSpeedMode = s := by
  unfold Dev.hSpeedMode
  split
  next m' _ ha =>
    obtain rfl : m = m' := Option.some.inj (hm.symm.trans ha)
    simp only [hx]
  next => rfl

/-- The car position state is the one acted on at the last step (R98). -/
theorem Dev.hCpfChange_same {s : Dev} (h : s.hoist.lastCpf = s.cpf.state) : s.hCpfChange = s := by
  have kept : s.setHoist (fun h => { h with lastCpf := s.cpf.state }) = s := Dev.setHoist_of_fixed (by rw [← h])
  simp only [Dev.hCpfChange, kept, if_pos h]

/-- With no learning or correction run CPF does not take a goto from the host (04 R81, R84). -/
theorem Dev.hCpfDrive_goto {s : Dev} {m : HMotion} (hr : s.cpf.run = none) (hm : s.hoist.active = some m)
    (hk : m.kind = .goto) : s.hCpfDrive = s := by
  simp [Dev.hCpfDrive, Dev.cpfMotion, hr, hm, hk]

/-- The start sequence is over (R100). -/
theorem Dev.hStart_travel {s : Dev} (hp : s.hoist.phase = .travel) : s.hStart = s := by
  simp [Dev.hStart, hp]

/-- Only a speed motion is turned at a virtual limit (R99). -/
theorem Dev.hLimit_goto {s : Dev} {m : HMotion} (hm : s.hoist.active = some m) (hk : m.kind = .goto) :
    s.hLimit = s := by
  unfold Dev.hLimit
  split
  next m' _ ha =>
    obtain rfl : m = m' := Option.some.inj (hm.symm.trans ha)
    exact if_neg (by simp [hk])
  next => rfl

/-- A car that travels is not being braked (R102, R103). -/
theorem Dev.hBraking_travel {s : Dev} (hp : s.hoist.phase = .travel) : s.hBraking = s := by
  simp [Dev.hBraking, hp]

/-- A car that is not levelled is off no landing (R104). -/
theorem Dev.hOff_unlevelled {s : Dev} (h : s.hoist.levelled = none) : s.hOff = s := by
  simp [Dev.hOff, h]

/-- A goto under way with no other event in sight: the drive follows, no abort waits, the car position state is the one
acted on, no run of CPF, and no landing at which the car is levelled. -/
structure Dev.GotoUnderWay (s : Dev) (m : HMotion) (x : Int) : Prop where
  travel : s.hoist.phase = .travel
  active : s.hoist.active = some m
  goto : m.kind = .goto
  target : m.target = some x
  healthy : s.invBit 3 = false
  linkUp : s.drv.linkUp = true
  granted : s.motionGranted = true
  sameCpf : s.hoist.lastCpf = s.cpf.state
  noRun : s.cpf.run = none
  noAborts : s.hoist.aborts = []
  unlevelled : s.hoist.levelled = none

namespace Dev.GotoUnderWay

variable {s : Dev} {m : HMotion} {x : Int} {f : Hoist → Hoist}

/-- A change of the record that keeps what the step looks at keeps the goto under way. -/
theorem setHoist (h : s.GotoUnderWay m x) (hp : (f s.hoist).phase = s.hoist.phase)
    (ha : (f s.hoist).active = s.hoist.active) (hc : (f s.hoist).lastCpf = s.hoist.lastCpf)
    (hb : (f s.hoist).aborts = s.hoist.aborts) (hl : (f s.hoist).levelled = s.hoist.levelled) :
    (s.setHoist f).GotoUnderWay m x where
  travel := hp.trans h.travel
  active := ha.trans h.active
  goto := h.goto
  target := h.target
  healthy := h.healthy
  linkUp := h.linkUp
  granted := h.granted
  sameCpf := hc.trans h.sameCpf
  noRun := h.noRun
  noAborts := hb.trans h.noAborts
  unlevelled := hl.trans h.unlevelled

/-- Before the sample nothing ends the run. -/
theorem beforeSample (h : s.GotoUnderWay m x) : s.hAbortsBefore.hGuards = s := by
  rw [hAbortsBefore_of_nil h.noAborts, hGuards_travel h.travel h.healthy h.linkUp h.granted]

/-- Between the sample and the commands the car does not arrive, and nothing takes its command away. -/
theorem beforeCommands (h : s.GotoUnderWay m x) : s.hArrive.hSpeedMode.hAbortsAfter.hCpfChange = s := by
  rw [hArrive_travel h.travel, hSpeedMode_toTarget h.active h.target, hAbortsAfter_of_nil h.noAborts,
    hCpfChange_same h.sameCpf]

/-- After the commands the run goes on as it is. -/
theorem afterCommands (h : s.GotoUnderWay m x) : s.hCpfDrive.hStart.hLimit.hBraking.hOff = s := by
  rw [hCpfDrive_goto h.noRun h.active h.goto, hStart_travel h.travel, hLimit_goto h.active h.goto,
    hBraking_travel h.travel, hOff_unlevelled h.unlevelled]

end Dev.GotoUnderWay

/-- The step with no command waiting: what is left is the registers taken up, the sample, and the tally of the peak
acceleration (R91, 18 R400). -/
theorem msqProfileStep_goto {s : Dev} {m : HMotion} {x : Int} {p : Plan} (h : s.GotoUnderWay m x)
    (hw : s.hoist.waiting = []) (hp : s.hoist.plan = some p) (he : (p.at_ (s.cpf.tk + 250000)).2 = false) :
    msqProfileStep s = (s.forceStep.setHoist (fun h => { h with
      prior := h.kin, kin := (p.at_ (s.cpf.tk + 250000)).1, sampleAt := s.cpf.tk + 250000,
      travelled := h.travelled + dist (p.at_ (s.cpf.tk + 250000)).1.xUm h.kin.xUm,
      runTravel := h.runTravel + dist (p.at_ (s.cpf.tk + 250000)).1.xUm h.kin.xUm,
      peakAcc := max h.peakAcc s.cpf.a.natAbs })).setDrv (fun d => { d with fresh := false }) := by
  have forced : s.forceStep.GotoUnderWay m x := h.setHoist rfl rfl rfl rfl rfl
  have sample := Dev.hSample_running (s := s.forceStep) hp he
  have sampled : s.forceStep.hSample.GotoUnderWay m x := by
    rw [sample]
    exact forced.setHoist rfl rfl rfl rfl rfl
  have tallied : (s.forceStep.hSample.setHoist (fun h => { h with
      waiting := [], peakAcc := max h.peakAcc s.forceStep.hSample.cpf.a.natAbs })).GotoUnderWay m x :=
    sampled.setHoist rfl rfl rfl rfl rfl
  have waiting : s.forceStep.hSample.hoist.waiting = [] := by
    rw [sample]
    exact hw
  simp only [msqProfileStep, forced.beforeSample, sampled.beforeCommands, waiting, List.foldl_nil,
    tallied.afterCommands]
  rw [sample]
  simp [Dev.setHoist, Dev.forceStep, Dev.setDrv, hw]

/-- Settles O6: the step finds a goto under way and no other event, and takes the sample. -/
theorem hoistStepTakesSample : Obligations.HoistStepTakesSample := by
  intro s m p x hp ht hm hk hx hpl hf hl hg hc hr hw ha hlev he
  refine (State.upd_on hp _).trans ?_
  rw [msqProfileStep_goto ⟨ht, hm, hk, hx, hf, hl, hg, hc, hr, ha, hlev⟩ hw hpl he]

end Sys2Proof.Machine
end

section
/-! PROOFS. The timed events and the commands of the hoist axis (05 R93, R95, R100, R102, R104, R111, R112, R114): what
each row comes to when its time has come or its checks hold. -/
namespace Sys2Proof.Machine

section
variable {s : Dev}

/-! ## Timed events -/

theorem hoistDwellEnd_reached (hp : s.hoist.phase = .dwell) (ht : s.hoist.since + s.hDwell ≤ s.dt) :
    hoistDwellEnd s = s.setHoist (fun h => { h with
      active := if h.next.isSome then h.next else h.active, next := none, phase := .waitBrake, since := s.dt }) :=
  if_pos ⟨hp, ht⟩

/-- HOIST_START_TIMEOUT of a car that waits for the inverter or for its brake (R100). -/
theorem hoistStartTimeout_starting {m : HMotion} (hm : s.hoist.active = some m)
    (hp : s.hoist.phase = .waitReady ∨ s.hoist.phase = .waitBrake) (ht : s.hoist.since + s.hStartTo ≤ s.dt) :
    hoistStartTimeout s = (s.hFinishActive .timeout 12 false s.dt).cancelStart := by
  obtain hp | hp := hp <;> simp only [hoistStartTimeout, hm, hp, if_pos ht]

/-- HOIST_STOP_TIMEOUT of a car that settles (R102). -/
theorem hoistStopTimeout_settling (hp : s.hoist.phase = .settle) (ht : s.hoist.since + s.hStopTo ≤ s.dt) :
    hoistStopTimeout s = ((s.hFinishActive .timeout 13 false s.dt).setHoist (fun h => { h with
      levelled := if h.active.map (·.kind) = some .relevel then h.levelled else none })).hSetBrake s.dt := by
  simp only [hoistStopTimeout, hp, if_pos ht]

/-- RELEVEL_START of a car at rest that has been off its landing for RELEV_DELAY (R104). -/
theorem relevelStart_due {l deck t : Nat} {x : Int} (hl : s.hoist.levelled = some (l, deck, x))
    (ho : s.hoist.offSince = some t) (hr : bitOf (s.hreg Reg.msqHcfg) 1 = true) (hp : s.hoist.phase = .rest)
    (hm : s.hoist.active = none) (hf : s.hoist.faultHeld = false)
    (ht : t + s.hfld Reg.msqHrelevt 15 0 * 1000000 ≤ s.dt) (hc : s.cpfFit = true) :
    relevelStart s = ((s.event 4 2 5 0 s.dt [l, s.cpf.x - x]).handLoop 0 2).begin
      { interimMotion l deck x false with kind := .relevel } := by
  simp [relevelStart, hl, ho, hr, hp, hm, hf, ht, hc]

/-! ## Commands -/

variable {d : Desc}

theorem msqHDisable_passed (ho : d.object = 0) (hz : bitsOf (d.w 3) 31 1 = 0) : msqHDisable d s = s.hWait d :=
  if_neg (by simp [ho, hz])

/-- MSQ_H_GOTO to a position, or to a landing of the table, on a deck that has a door zone (R94). -/
theorem msqHGoto_passed (ho : d.object = 0) (hz : bitsOf (d.w 3) 31 18 = 0)
    (hl : bitsOf (d.w 3) 15 0 = 0xFFFF ∨ s.landingTarget (bitsOf (d.w 3) 15 0) (bitsOf (d.w 3) 16 16) ≠ none)
    (hd : bitsOf (d.w 3) 16 16 = 1 → s.cbit Reg.cpfCfg 2 = true) : msqHGoto d s = s.hWait d := by
  refine if_neg ?_
  rintro (h | h | ⟨away, h⟩ | ⟨h, off⟩)
  · exact h ho
  · exact h hz
  · exact hl.elim away (· h)
  · simp [hd h] at off

theorem msqHSpeed_passed (ho : d.object = 0) (hz : bitsOf (d.w 4) 31 1 = 0) : msqHSpeed d s = s.hWait d :=
  if_neg (by simp [ho, hz])

theorem msqHStop_passed (ho : d.object = 0) (hz : bitsOf (d.w 3) 31 1 = 0) : msqHStop d s = s.hWait d :=
  if_neg (by simp [ho, hz])

theorem msqHRead_passed (ho : d.object = 0) : msqHRead d s = s.hWait d :=
  if_neg (not_not_intro ho)

theorem msqHEnable_passed (ho : d.object = 0) (he : s.cpfEnabled = true) : msqHEnable d s = s.hWait d :=
  if_neg (by simp [ho, he])

theorem Dev.decideHoist_read (hd : d.opcode = 0x0406) : s.decideHoist d = s.decideRead d := by
  simp only [Dev.decideHoist, hd]

theorem Dev.decideHoist_enable (hd : d.opcode = 0x0401) : s.decideHoist d = s.decideEnable d := by
  simp only [Dev.decideHoist, hd]

/-- A setup with limits and with CPF enabled lets the axis be enabled (R112). -/
theorem Dev.enableBad_eq_false (hv : s.fld Reg.msqHvmax 31 0 ≠ 0) (ha : s.hA ≠ 0) (hj : s.hJ ≠ 0)
    (hr : s.nextLo < s.nextHi) (hc : s.cpfEnabled = true) : s.enableBad = false := by
  simp [Dev.enableBad, hv, ha, hj, hr, hc]

/-- MSQ_H_ENABLE of a disabled axis whose duties fit: they are admitted and the Drive Port starts (R111). -/
theorem Dev.decideEnable_passed (hb : s.enableBad = false) (he : s.hoist.enabled = false)
    (hr : s.drv.running = false) (ha : s.hoistAdmissible = true) {v : Nat} (hv : v = s.fld Reg.drvCfg 1 0) :
    s.decideEnable d = s.admitHoist.setDrv (fun r => { r with
      running := true, version := if v = 1 ∨ v = 2 then v else 0, hellos := if v = 1 ∨ v = 2 then none else some 0,
      settledFor := 0, sentFor := none, enableDesc := some d, awaiting := none, badRow := 0, goodRow := 0,
      linkUp := false, fresh := false, missing := 0, bad := 0 }) := by
  subst hv
  simp [Dev.decideEnable, hb, he, hr, ha]

theorem drvFaultReset_passed (ho : d.object = 0) (hr : s.drv.resetDesc = none) :
    drvFaultReset d s = s.setDrv (fun r => { r with
      faultReset := 4, resetDesc := some (d, r.last.faultCode, s.dt) }) := by
  simp [drvFaultReset, ho, hr]

theorem drvRead_passed (ho : d.object = 0) {b : List Byte} (hb : b = s.drv.last.bytes.take 17) :
    drvRead d s = s.complete d .done s.dt
      [wordN (leAt b 4 4), wordN (leAt b 8 4), wordN (leAt b 12 4), wordN (leAt b 16 1), wordN s.drvStatWord] := by
  subst hb
  exact if_neg (not_not_intro ho)

end

/-! ## The rows together -/

/-- Settles O7: the timed events, and the commands with what two of them come to at their decision, row by row. -/
theorem hoistRowsComplete : Obligations.HoistRowsComplete := by
  refine ⟨fun s h6 => ⟨?_, ?_, ?_, ?_⟩, fun d s h6 h8 hs ho => ?_⟩
  · intro hp ht
    exact (State.upd_on h6 _).trans (by rw [hoistDwellEnd_reached hp ht])
  · intro m hm hp ht
    exact (State.upd_on h6 _).trans (by rw [hoistStartTimeout_starting hm hp ht])
  · intro hp ht
    exact (State.upd_on h6 _).trans (by rw [hoistStopTimeout_settling hp ht])
  · intro l deck x t hl hoff hr hp hm hf ht hc
    exact (State.upd_on h6 _).trans (by rw [relevelStart_due hl hoff hr hp hm hf ht hc])
  · have axis := State.cmd_on h6 hs
    have port := State.cmd_on h8 hs
    refine ⟨?_, ?_, ?_, ?_, ?_, ?_, ?_, ?_, ?_, ?_⟩
    · intro hz
      exact (axis _).trans (by rw [msqHDisable_passed ho hz, Dev.hWait])
    · intro hz hl hd
      exact (axis _).trans (by rw [msqHGoto_passed ho hz hl hd, Dev.hWait])
    · intro hz
      exact (axis _).trans (by rw [msqHSpeed_passed ho hz, Dev.hWait])
    · intro hz
      exact (axis _).trans (by rw [msqHStop_passed ho hz, Dev.hWait])
    · exact (axis _).trans (by rw [msqHRead_passed ho, Dev.hWait])
    · intro hop z
      rw [Dev.decideHoist_read hop, Dev.decideRead]
    · intro he
      exact (axis _).trans (by rw [msqHEnable_passed ho he, Dev.hWait])
    · intro hop z v hv ha hj hr hc he hrun hadm hver
      rw [Dev.decideHoist_enable hop,
        Dev.decideEnable_passed (Dev.enableBad_eq_false hv ha hj hr hc) he hrun hadm hver]
    · intro hr
      exact (port _).trans (by rw [drvFaultReset_passed ho hr])
    · intro b hb
      exact (port _).trans (by rw [drvRead_passed ho hb])

end Sys2Proof.Machine
end

section
/-! PROOFS. The frames and timers of the Drive Port (05 R107, R108, R110, R111, R114): what each comes to when it is due
or in its window. -/
namespace Sys2Proof.Machine

section
variable {s : Dev}

/-! ## Frames sent -/

section
variable (hr : s.drv.running = true) (ht : s.cpf.tk + clampN 205 245 (s.fld Reg.drvTxph 7 0) * 1000 ≤ s.dt)
  (hf : s.drv.sentFor ≠ some s.cpf.tk)
include hr ht hf

/-- A Drive Port that runs sends once TXPH is past, and one frame in a hoist period (R108). -/
theorem drvSetpointFrame_due : ¬(!s.drv.running ∨
    s.dt < s.cpf.tk + clampN 205 245 (s.fld Reg.drvTxph 7 0) * 1000 ∨ s.drv.sentFor = some s.cpf.tk) := by
  simp [hr, Nat.not_lt.mpr ht, hf]

/-- The frame of a period after the negotiation is a set-point frame (R108). -/
theorem drvSetpointFrame_settled (hn : s.drv.hellos = none) {z y : Dev} {b : List Byte}
    (hz : z = s.setDrv (fun d => { d with sentFor := some s.cpf.tk })) (hb : z.setpointFrame = (b, y)) :
    drvSetpointFrame s = (y.emit (.drvFrame b)).setDrv (fun d => { d with
      awaiting := some d.seq, sentEnd := y.dt + frameTime b.length, seq := (d.seq + 1) % 256,
      settledFor := d.settledFor + 1, faultReset := d.faultReset - 1 }) := by
  have settled : z.drv.hellos = none := by rw [hz]; exact hn
  simp only [drvSetpointFrame, if_neg (drvSetpointFrame_due hr ht hf), ← hz, settled, hb]

/-- The frame of a period in which the version is negotiated is a HELLO, up to 20 of them (R111). -/
theorem drvSetpointFrame_negotiating {n : Nat} (hn : s.drv.hellos = some n) (hlt : n < 20) {z : Dev}
    (hz : z = s.setDrv (fun d => { d with sentFor := some s.cpf.tk })) :
    drvSetpointFrame s = (z.emit (.drvFrame z.helloFrame)).setDrv (fun d => { d with hellos := some (n + 1) }) := by
  have count : z.drv.hellos = some n := by rw [hz]; exact hn
  simp only [drvSetpointFrame, if_neg (drvSetpointFrame_due hr ht hf), ← hz, count, if_pos hlt]

end

/-! ## Status frames -/

/-- A good status frame in its window is taken if it echoes SEQ, and counts as bad if it does not (R108, R110). -/
theorem drvStatusFrame_parsed {ok : Bool} {b : List Byte} {q r : Nat} {st : DrvStatus}
    (hw : s.inWindow b.length = true) (hq : s.drv.awaiting = some q) (hp : s.parseStatus ok b = some (r, st)) :
    drvStatusFrame ok b s = if r = q then s.drvGood st
      else ((s.setBit Reg.drvStat 5 true).setDrv (fun d => { d with bad := satInc 16 d.bad })).drvMiss := by
  simp [drvStatusFrame, hw, hq, hp]

theorem drvStatusWindowExpiry_closed {q : Nat} (hq : s.drv.awaiting = some q) (ht : s.rxClose ≤ s.dt) :
    drvStatusWindowExpiry s = (s.setDrv (fun d => { d with missing := satInc 16 d.missing })).drvMiss := by
  simp only [drvStatusWindowExpiry, hq, if_neg (Nat.not_lt.mpr ht)]

/-! ## Negotiation and timers -/

/-- A valid HELLO_ACK that names version 1 or 2 settles it (R111). -/
theorem drvHelloAck_valid {n : Nat} {b : List Byte} (hn : s.drv.hellos = some n) (hl : b.length = 12)
    (hc : crcOk b = true) (hs : leAt b 0 2 = 0x00D5) (ht : leAt b 2 1 = 0xFF) (hmin : 1 ≤ leAt b 4 1)
    (hmax : leAt b 4 1 ≤ 2) :
    drvHelloAck true b s = s.setDrv (fun d => { d with version := leAt b 4 1, hellos := none, settledFor := 0 }) := by
  simp [drvHelloAck, hn, hl, hc, hs, ht, hmin, hmax]

theorem drvNegotiationTimeout_reached {n : Nat} (hn : s.drv.hellos = some n) (h20 : 20 ≤ n) :
    drvNegotiationTimeout s = s.setDrv (fun d => { d with version := 1, hellos := none, settledFor := 0 }) := by
  simp only [drvNegotiationTimeout, hn, if_pos h20]

theorem drvEnableTimeout_reached {d : Desc} (hd : s.drv.enableDesc = some d) (hn : s.drv.hellos = none)
    (h20 : 20 ≤ s.drv.settledFor) : drvEnableTimeout s = s.enableFails .timeout :=
  if_pos (by simp [hd, hn, h20])

theorem drvFaultResetTimeout_reached {d : Desc} {code t : Nat} (hr : s.drv.resetDesc = some (d, code, t))
    (ht : t + s.hStartTo ≤ s.dt) :
    drvFaultResetTimeout s =
      (s.setDrv (fun r => { r with resetDesc := none })).complete d .timeout s.dt [wordN code] := by
  simp only [drvFaultResetTimeout, hr, if_pos ht]

end

/-! ## The rows together -/

/-- Settles O8: the frames sent, the frames received and the timers, row by row. -/
theorem driveFramesComplete : Obligations.DriveFramesComplete := by
  intro s h8
  have act := State.upd_on h8
  refine ⟨?_, ?_, ?_, ?_, ?_, ?_, ?_, ?_, ?_⟩
  · intro b z y hr ht hf hn hz hb
    exact (act _).trans (by rw [drvSetpointFrame_settled hr ht hf hn hz hb])
  · intro n z hr ht hf hn hlt hz
    exact (act _).trans (by rw [drvSetpointFrame_negotiating hr ht hf hn hlt hz])
  · intro ok b q st hw hq hp
    exact (act _).trans (by rw [drvStatusFrame_parsed hw hq hp, if_pos rfl])
  · intro ok b q r st hw hq hp hne
    exact (act _).trans (by rw [drvStatusFrame_parsed hw hq hp, if_neg hne])
  · intro q hq ht
    exact (act _).trans (by rw [drvStatusWindowExpiry_closed hq ht])
  · intro n b hn hl hc hs ht hmin hmax
    exact (act _).trans (by rw [drvHelloAck_valid hn hl hc hs ht hmin hmax])
  · intro n hn h20
    exact (act _).trans (by rw [drvNegotiationTimeout_reached hn h20])
  · intro d hd hn h20
    exact (act _).trans (by rw [drvEnableTimeout_reached hd hn h20])
  · intro d code t hr ht
    exact (act _).trans (by rw [drvFaultResetTimeout_reached hr ht])

end Sys2Proof.Machine
end

section
/-! PROOFS. MSQ_DOOR_STEP with every axis at rest and disabled (06 R120, R128, R138). No axis has an event and none waits
for the car, so the step decides its commands and then moves what they have put in service. -/
namespace Sys2Proof.Machine

@[simp] theorem Dev.axis_setAxis_same (s : Dev) (n : Nat) (x : Axis) : (s.setAxis n x).axis n = x := by
  simp [Dev.axis]

theorem Dev.axis_setAxis_other (s : Dev) {n m : Nat} (h : m ≠ n) (x : Axis) : (s.setAxis n x).axis m = s.axis m := by
  simp [Dev.axis, kget_kput_other _ _ h]

@[simp] theorem Dev.axis_modAxis_same (s : Dev) (n : Nat) (f : Axis → Axis) : (s.modAxis n f).axis n = f (s.axis n) :=
  s.axis_setAxis_same n _

@[simp] theorem Dev.out_modAxis (s : Dev) (n : Nat) (f : Axis → Axis) : (s.modAxis n f).out = s.out := rfl

/-- An axis at rest and disabled is in no other state. -/
theorem Axis.state_of_not_live {x : Axis} (h : x.live = false) : x.state = .disabled := by
  simp only [Axis.live, Bool.or_eq_false_iff, bne_eq_false_iff_eq] at h
  obtain ⟨⟨⟨disabled, _⟩, _⟩, _⟩ := h
  exact disabled

/-- Every axis is at rest and disabled, and no NUDGE is left for the next step. -/
def Dev.AxesOff (s : Dev) : Prop := ∀ n, n < 5 → (s.axis n).live = false ∧ (s.axis n).nudgeNext = none

/-- An axis at rest and disabled has no event (R138). -/
theorem Dev.axisEvents_of_off {s : Dev} {n : Nat} (hl : (s.axis n).live = false) (hn : (s.axis n).nudgeNext = none) :
    s.axisEvents n = s := by
  simp [Dev.axisEvents, hn, hl]

/-- An axis at rest and disabled does not wait for the car (R142). -/
theorem Dev.advWait_of_off {s : Dev} {n : Nat} (hl : (s.axis n).live = false) : s.advWait n = s :=
  if_pos (by simp [Axis.state_of_not_live hl])

/-- The step goes over axes 0 to 4 that are present. -/
theorem Dev.lt_of_mem_axes {s : Dev} {n : Nat} (h : n ∈ (List.range 5).filter s.hasAxis) : n < 5 := by
  obtain ⟨listed, _⟩ := List.mem_filter.mp h
  exact List.mem_range.mp listed

/-- What the step does with an axis once its commands are decided: the virtual master counts, and an axis in service is
moved (R120, R128). -/
def Dev.moveAxis (s : Dev) (n : Nat) : Dev :=
  if !(s.axis n).live ∨ (s.axis n).state = .fault ∨ (s.axis n).aligning.isSome then s.virtStep n
  else ((s.virtStep n).genStep n).followStep n

/-- With every axis off the step is the decisions of what waits, and then the moves. -/
theorem msqDoorStep_of_axesOff {s : Dev} (h : s.AxesOff) :
    msqDoorStep s = ((List.range 5).filter s.hasAxis).foldl Dev.moveAxis
      (s.door.waiting.foldl (fun t e => t.decideDoor e.1)
        { s with door := { s.door with waiting := [], gotoDone := false, gotoLost := false } }) := by
  have off : ∀ n ∈ (List.range 5).filter s.hasAxis, (s.axis n).live = false ∧ (s.axis n).nudgeNext = none :=
    fun n hn => h n (Dev.lt_of_mem_axes hn)
  have events : ((List.range 5).filter s.hasAxis).foldl (fun t n => t.axisEvents n) s = s :=
    List.foldlRecOn (motive := fun t => t = s) _ _ rfl fun t ht n hn => by
      obtain ⟨rest, nudge⟩ := off n hn
      rw [ht, Dev.axisEvents_of_off rest nudge]
  have waits : ((List.range 5).filter s.hasAxis).foldl (fun t n => t.advWait n) s = s :=
    List.foldlRecOn (motive := fun t => t = s) _ _ rfl fun t ht n hn => by
      obtain ⟨rest, _⟩ := off n hn
      rw [ht, Dev.advWait_of_off rest]
  simp only [msqDoorStep, events, waits]
  rfl

/-- The virtual master is no part of an axis's service. -/
theorem Dev.live_virtStep (s : Dev) (m n : Nat) : ((s.virtStep m).axis n).live = (s.axis n).live := by
  by_cases h : n = m
  · rw [h, Dev.virtStep, Dev.axis_modAxis_same]
    rfl
  · rw [Dev.virtStep, Dev.modAxis, Dev.axis_setAxis_other s h]

/-- Of axes that are off only the virtual masters count (R128). -/
theorem Dev.foldl_moveAxis_of_off (l : List Nat) :
    ∀ {s : Dev}, (∀ n ∈ l, (s.axis n).live = false) → l.foldl Dev.moveAxis s = l.foldl Dev.virtStep s := by
  induction l with
  | nil => exact fun _ => rfl
  | cons n l ih =>
    intro s h
    have first : s.moveAxis n = s.virtStep n := if_pos (.inl (by rw [h n List.mem_cons_self]; rfl))
    rw [List.foldl_cons, List.foldl_cons, first]
    exact ih fun m hm => (s.live_virtStep n m).trans (h m (List.mem_cons_of_mem n hm))

/-- Settles O9: no axis has an event and none waits, so the step is the decisions and the moves; with no decision every
axis is still off. -/
theorem doorStepRuns : Obligations.DoorStepRuns := by
  intro s hp h
  refine ⟨fun hw => ?_, fun d a y hw hy => ?_⟩
  · refine (State.upd_on hp _).trans ?_
    rw [msqDoorStep_of_axesOff h, hw, List.foldl_nil, Dev.foldl_moveAxis_of_off, ← hw]
    exact fun n hn => (h n (Dev.lt_of_mem_axes hn)).1
  · refine (State.upd_on hp _).trans ?_
    rw [msqDoorStep_of_axesOff h, hw, List.foldl_cons, List.foldl_nil, ← hy]
    rfl

end Sys2Proof.Machine
end

section
/-! PROOFS. The commutation, the limiter and the timed events of a door axis (06 R121, R126, R129, R131-R136, R139): what
each row comes to when its condition holds. -/
namespace Sys2Proof.Machine

section
variable {s : Dev} {n : Nat}

/-! ## Commutation -/

/-- A commutation step of an axis that aligns no more and has not tripped: the phase currents of the electrical angle at
the present position (R129). -/
theorem commutationStep_running {iq : Int} {y z : Dev} {x : Axis} {t : Nat} {sn cur : List Int}
    (ha : s.hasAxis n = true) (hi : (s.axis n).immediate = false) (hidle : s.axisIdle n = false)
    (hq : s.limitIq n = (iq, y)) (hz : z = y.switchMode n iq) (hx : x = z.axis n) (halign : x.aligning = none)
    (htrip : x.tripped = false) (ht : t = z.elecAngle n (z.pos (n + 2))) (hsn : sn = (phaseAngles t).map z.sineAt)
    (hcur : cur = (List.range 3).map (fun i => z.phaseCurrent (firstBridge n + i))) :
    commutationStep n s = z.setAxis n { x with
      iq := iq, theta := t, setU := (sn.map (fun v => idiv (iq * v) 32768)).getD 0 0,
      setV := (sn.map (fun v => idiv (iq * v) 32768)).getD 1 0,
      setW := (sn.map (fun v => idiv (iq * v) 32768)).getD 2 0,
      shunts := (idiv (2 * ((cur.zip sn).map (fun (a, b) => a * b)).foldl (· + ·) 0) (3 * 32768) :: x.shunts).take 10 } := by
  have angle : (if x.aligning.isSome then 0 else z.elecAngle n (z.pos (n + 2))) = t :=
    (if_neg (by simp [halign])).trans ht.symm
  subst hsn hcur
  simp only [commutationStep, ha, hi, hidle, hq, ← hz, ← hx, angle, htrip, Bool.not_true, Bool.false_and,
    Bool.false_eq_true, if_false]

/-- QUIET_MODE_ENTRY of an automatic axis whose current fell 50 ms ago (R132). -/
theorem quietModeEntry_due {t : Nat} (ha : s.hasAxis n = true) (ho : (s.axis n).offSince = some t)
    (hs : (s.axis n).strong = true) (h1 : s.fld (Reg.msqDcfg n) 3 2 ≠ 1) (h2 : s.fld (Reg.msqDcfg n) 3 2 ≠ 2)
    (htrip : (s.axis n).tripped = false) (hr : (s.axis n).relief = false) (ht : t + 50000000 ≤ s.dt) :
    quietModeEntry n s =
      (s.modAxis n (fun x => { x with strong := false })).dEvent 1 10 n s.dt [0, (s.axis n).iq] := by
  simp [quietModeEntry, ho, ha, hs, h1, h2, htrip, hr, ht]

/-! ## The limiter -/

/-- An axis that does not close is held under no energy clamp (R133). -/
theorem Dev.energyClampStep_of_not_closing (hc : (s.axis n).state ≠ .closing) (vm : Nat) :
    s.energyClampStep n vm = s.modAxis n (fun x => { x with energyClamp := false }) := by
  have off : ((s.axis n).state == .closing && decide (s.vcl n < vm)) = false := by simp [hc]
  simp only [Dev.energyClampStep, off, Bool.false_and, Bool.false_eq_true, if_false]

/-- The energy of this evaluation is kept, and the energy clamp ends (R133). -/
def Dev.keepEnergy (s : Dev) (n e : Nat) : Dev :=
  (s.modAxis n (fun x => { x with lastE := e })).modAxis n (fun x => { x with energyClamp := false })

@[simp] theorem Dev.axis_keepEnergy (s : Dev) (n e : Nat) :
    (s.keepEnergy n e).axis n = { s.axis n with lastE := e, energyClamp := false } := by
  simp only [Dev.keepEnergy, Dev.axis_modAxis_same]

@[simp] theorem Dev.out_keepEnergy (s : Dev) (n e : Nat) : (s.keepEnergy n e).out = s.out := by
  simp only [Dev.keepEnergy, Dev.out_modAxis]

/-- The energy limit is one of the axis's setup, its state and its NUDGE (R133). -/
theorem Dev.eLim_keepEnergy (s : Dev) (n e : Nat) : (s.keepEnergy n e).eLim n = s.eLim n := by
  simp only [Dev.eLim, Dev.axis_keepEnergy]
  rfl

/-- The limiter of an open axis whose energy is within its limit: beside the energy, the counts end (R133, R134). -/
theorem doorLimiterEvaluation_open (ha : s.hasAxis n = true) (hidle : s.axisIdle n = false)
    (hst : (s.axis n).state = .open_) (hg : (s.axis n).gen ≠ .home) {vm e : Nat} (hvm : vm = (s.doorSpeed n).natAbs)
    (he : e = s.fld (Reg.msqDmass n) 31 0 * vm * vm / 2000000000)
    (hlim : e ≤ s.eLim n * 10 * clampN 100 200 (s.fld (Reg.msqDforce n) 15 8)) :
    doorLimiterEvaluation n s = ((s.keepEnergy n e).modAxis n (fun x => { x with overRow := 0 })).modAxis n
      (fun x => { x with clampSince := none }) := by
  have clamp : (s.modAxis n (fun x => { x with lastE := e })).energyClampStep n vm = s.keepEnergy n e :=
    Dev.energyClampStep_of_not_closing (by simp [hst]) vm
  have within : decide ((s.keepEnergy n e).eLim n * 10 *
      clampN 100 200 ((s.keepEnergy n e).fld (Reg.msqDforce n) 15 8) < e) = false := by
    rw [Dev.eLim_keepEnergy]
    exact decide_eq_false (Nat.not_lt.mpr hlim)
  have moves : ((s.axis n).gen == .home) = false := beq_eq_false_iff_ne.mpr hg
  simp [doorLimiterEvaluation, ha, hidle, ← hvm, ← he, clamp, within, moves, hst, DState.moving]

/-! ## Timed events -/

theorem homeReferenceDone_reached {t : Nat} (hc : (s.axis n).clampSince = some t)
    (he : (s.axis n).enabling.isSome = true) (hg : (s.axis n).gen = .home) (ht : t + 200000000 ≤ s.dt) :
    homeReferenceDone n s = (s.modAxis n (fun x => { x with pRef := s.pos (n + 2) })).enableDone n := by
  simp [homeReferenceDone, hc, he, hg, ht]

theorem alignDone_reached {t : Nat} (ha : (s.axis n).aligning = some t) (ht : t + 200000000 ≤ s.dt) {y : Dev}
    (hy : y = s.setReg (Reg.msqDalign n) (wordI (s.pos (n + 2)))) :
    alignDone n s = if (s.axis n).homing then y.modAxis n (fun x => { x with aligning := none, gen := .home })
      else y.enableDone n := by
  simp only [alignDone, ha, if_pos ht, ← hy]

theorem doorMotionTimeout_reached (hm : (s.axis n).state.moving = true)
    (ht : (s.axis n).start + s.dfld n (Reg.msqDmisc n) 31 16 * 1000000 ≤ s.dt) :
    doorMotionTimeout n s = (s.axisDone n .timeout 12 false s.dt).stopAxis n := by
  simp [doorMotionTimeout, hm, ht]

/-- CAM_CHECK_COMPLETE of an image that breaks no rule (R126). -/
theorem camCheckComplete_passed {k : Nat} {d : Desc} (hl : (s.camSlot n k).loading = some d)
    (hf : s.camFailure n k (s.camSlot n k).staged = none) :
    camCheckComplete n k s = (s.setCamSlot n k {
        current := some (parseCam (s.camSlot n k).staged), image := (s.camSlot n k).staged, valid := true, staged := [],
        loading := none }).complete d .done s.dt [0, wordN (leAt (s.camSlot n k).staged 4 2)] := by
  simp only [camCheckComplete, hl, hf]
  rfl

end

/-! ## The rows together -/

/-- Settles O10: the commutation and limiter steps and the timed events, row by row. -/
theorem doorAxisRowsComplete : Obligations.DoorAxisRowsComplete := by
  refine ⟨fun n s hp ha => ?_, fun n s hp => ?_⟩
  · have act := State.upd_on hp
    refine ⟨?_, ?_, ?_⟩
    · intro iq y z x t sn cur hi hidle hq hz hx halign htrip ht hsn hcur
      exact (act _).trans (by rw [commutationStep_running ha hi hidle hq hz hx halign htrip ht hsn hcur])
    · intro t ho hs h1 h2 htrip hr ht
      exact (act _).trans (by rw [quietModeEntry_due ha ho hs h1 h2 htrip hr ht])
    · intro vm e hidle hst hg hvm he hlim
      refine ⟨_, act _, ?_⟩
      rw [doorLimiterEvaluation_open ha hidle hst hg hvm he hlim]
      exact ⟨by simp only [Dev.axis_modAxis_same, Dev.axis_keepEnergy],
        by simp only [Dev.out_modAxis, Dev.out_keepEnergy]⟩
  · have act := State.upd_on hp
    refine ⟨?_, ?_, ?_, ?_⟩
    · intro t hc he hg ht
      exact (act _).trans (by rw [homeReferenceDone_reached hc he hg ht])
    · intro t y ha ht hy
      exact (act _).trans (by rw [alignDone_reached ha ht hy])
    · intro hm ht
      exact (act _).trans (by rw [doorMotionTimeout_reached hm ht])
    · intro k d hl hf
      exact (act _).trans (by rw [camCheckComplete_passed hl hf])

end Sys2Proof.Machine
end

section
/-! PROOFS. The door and bridge commands (06 R126, R130, R138, R145, R148): what each comes to when its checks pass, and
what MSQ_D_READ and MSQ_D_SINE_LOAD come to at their decision. -/
namespace Sys2Proof.Machine

section
variable {s : Dev} {d : Desc}

/-! ## Commands that wait for the door step -/

section
variable (hc : s.axisCheck d false = none)
include hc

theorem msqDEnable_passed (hz : bitsOf (d.w 3) 31 2 = 0) : msqDEnable d s = s.doorWait d := by
  simp [msqDEnable, hc, hz]

theorem msqDDisable_passed (hz : bitsOf (d.w 3) 31 1 = 0) : msqDDisable d s = s.doorWait d := by
  simp [msqDDisable, hc, hz]

/-- MSQ_D_GOTO to a target on the stroke (R148). -/
theorem msqDGoto_passed (hmin : 0 ≤ sWord (d.w 3)) (hmax : sWord (d.w 3) ≤ s.nextStroke (bitsOf d.object 7 0)) :
    msqDGoto d s = s.doorWait d := by
  simp only [msqDGoto, hc]
  exact if_neg (not_or.mpr ⟨Int.not_lt.mpr hmin, Int.not_lt.mpr hmax⟩)

theorem msqDStop_passed : msqDStop d s = s.doorWait d := by
  simp only [msqDStop, hc]

theorem msqDRead_passed : msqDRead d s = s.doorWait d := by
  simp only [msqDRead, hc]

/-- MSQ_D_CAM_LOAD of a slot that is not being loaded stages the image (R126). -/
theorem msqDCamLoad_passed {img : HostBytes} {n k : Nat} {b : List Byte} (hn : n = bitsOf d.object 7 0)
    (hk : k = bitsOf (d.w 3) 1 0) (hb : b = s.fetch d (d.w64 4) img) (hz : bitsOf (d.w 3) 31 2 = 0) (h3 : k ≠ 3)
    (ha : s.addrOk d (d.w64 4) b.length = true) (hl : (s.camSlot n k).loading = none) (hw : s.door.waiting = []) :
    msqDCamLoad d img s = (s.setCamSlot n k { s.camSlot n k with staged := b }).doorWait d := by
  simp [msqDCamLoad, hc, ← hn, ← hk, ← hb, hz, h3, ha, hl, hw]

/-- MSQ_D_SINE_LOAD of a whole table leaves it to the step (R130). -/
theorem msqDSineLoad_passed {img : HostBytes} {b : List Byte} (hb : b = s.fetch d (d.w64 3) img)
    (ha : s.addrOk d (d.w64 3) 2048 = true) (hlen : 2048 ≤ b.length) :
    msqDSineLoad d img s =
      Dev.doorWait { s with door := { s.door with sines := s.door.sines ++ [(d, parseSine 1024 b)] } } d := by
  simp [msqDSineLoad, hc, ← hb, ha, Nat.not_lt.mpr hlen]

end

/-- MSQ_D_OPEN and MSQ_D_CLOSE of a set whose masks pass (R143, R148). -/
theorem Dev.doorSet_passed (hc : s.axisCheck d true = none) (hs : s.syncCheck d = none) :
    s.doorSet d = s.doorWait d := by
  simp only [Dev.doorSet, hc, hs]

/-- A charge changes neither the axes of the part nor their setup (15 R335). -/
theorem Dev.axisCheck_charge (s : Dev) (d : Desc) (doors : Bool) (q n : Nat) :
    (s.charge q n).axisCheck d doors = s.axisCheck d doors := by
  obtain ⟨h, e⟩ := s.charge_frame q n
  rw [e]
  rfl

/-! ## Decisions of the door step -/

theorem Dev.decideDoor_read (hd : d.opcode = 0x0509) : s.decideDoor d = s.doorReading d (bitsOf d.object 7 0) := by
  simp only [Dev.decideDoor, hd]

theorem Dev.decideDoor_sine (hd : d.opcode = 0x0508) : s.decideDoor d = s.decideSine d := by
  simp only [Dev.decideDoor, hd]

theorem Desc.same_self (d : Desc) : d.same d = true := by
  simp [Desc.same]

/-- The one table that waits, of entries in range, comes into force while every axis is disabled (R130). -/
theorem Dev.decideSine_passed {t : List Int} (ht : s.door.sines = [(d, t)]) (hr : t.all (fun v => v != -32768) = true)
    (he : (List.range 5).any s.axisEnabled = false) :
    s.decideSine d = Dev.complete { s with door := { s.door with sines := [], sine := t } } d .done s.dt [] := by
  have table : ((s.door.sines.find? (fun e => e.1.same d)).map (·.2)).getD [] = t := by
    simp [ht, Desc.same_self]
  have rest : s.door.sines.filter (fun e => !e.1.same d) = [] := by
    simp [ht, Desc.same_self]
  have range : t.any (fun v => v == -32768) = false := by
    simpa using hr
  have off : (List.range 5).any (Dev.axisEnabled { s with door := { s.door with sines := [] } }) = false := he
  simp only [Dev.decideSine, table, rest, range, off, Bool.false_eq_true, if_false]

/-! ## Bridges -/

/-- MSQ_B_SET of a general bridge to a duty in range (R145). -/
theorem msqBSet_passed {b : Nat} (h16 : b < 16) (ho : bitsOf d.object 7 0 = b + 0x10) (hz : bitsOf d.object 31 8 = 0)
    (hb : s.hasBridge b = true) (hg : s.bridgeGeneral b = true) (hv : bitsOf (d.w 3) 10 0 ≤ 1024)
    (hz3 : bitsOf (d.w 3) 31 11 = 0) :
    msqBSet d s = (s.setBridge b { s.bridge b with next := dutyApplied (bitsOf (d.w 3) 10 0) }).complete d .done s.dt [] := by
  have index : b + 0x10 - 0x10 = b := Nat.add_sub_cancel ..
  have present : ¬(0x10 ≤ b + 0x10 ∧ b + 0x10 < 0x20 ∧ !s.hasBridge b) := by
    rintro ⟨_, _, absent⟩
    rw [hb] at absent
    exact Bool.false_ne_true absent
  have form : ¬(b + 0x10 < 0x10 ∨ 0x20 ≤ b + 0x10 ∨ !s.bridgeGeneral b ∨ bitsOf d.object 31 8 ≠ 0 ∨
      1024 < bitsOf (d.w 3) 10 0 ∨ bitsOf (d.w 3) 31 11 ≠ 0) := by
    rintro (h | h | h | h | h | h)
    · omega
    · omega
    · rw [hg] at h
      exact Bool.false_ne_true h
    · exact h hz
    · omega
    · exact h hz3
  simp only [msqBSet, ho, index, if_neg present, if_neg form]

end

/-! ## The rows together -/

/-- Settles O11: the commands, and the decisions of two of them, row by row. -/
theorem doorCommandsComplete : Obligations.DoorCommandsComplete := by
  intro d s hp hs
  have act := State.cmd_on hp hs
  have reads : s.dev.hiu.d3hot = false → s.dev.reads d = true := fun h0 => by simp [Dev.reads, h0]
  refine ⟨fun hc => ⟨?_, ?_, ?_, ?_, ⟨?_, ?_⟩, ?_⟩, fun hc hm => ⟨?_, ?_⟩, ?_, ?_, ?_⟩
  · intro hz
    exact (act _).trans (by rw [msqDEnable_passed hc hz])
  · intro hz
    exact (act _).trans (by rw [msqDDisable_passed hc hz])
  · intro hmin hmax
    exact (act _).trans (by rw [msqDGoto_passed hc hmin hmax])
  · exact (act _).trans (by rw [msqDStop_passed hc])
  · exact (act _).trans (by rw [msqDRead_passed hc])
  · intro z n hn hop
    rw [Dev.decideDoor_read hop, ← hn, Dev.doorReading]
  · intro img y n k b h0 hy hn hk hb hz h3 ha hl hw
    subst hy
    refine (State.updIn_on hp hs (reads h0) img _).trans ?_
    rw [msqDCamLoad_passed ((Dev.axisCheck_charge ..).trans hc) hn hk hb hz h3 ha hl hw]
  · exact (act _).trans (by rw [msqDOpen, Dev.doorSet_passed hc hm])
  · exact (act _).trans (by rw [msqDClose, Dev.doorSet_passed hc hm])
  · intro img y b h0 hy hc hb ha hlen
    subst hy
    refine (State.updIn_on hp hs (reads h0) img _).trans ?_
    rw [msqDSineLoad_passed hc hb ha hlen]
  · intro z t hop ht hr he
    rw [Dev.decideDoor_sine hop, Dev.decideSine_passed ht hr he]
  · intro b h16 ho hz hb hg hv hz3
    exact (act _).trans (by rw [msqBSet_passed h16 ho hz hb hg hv hz3])

end Sys2Proof.Machine
end

section
/-! PROOFS. The Loop Engine (07 R152, R154, R163, R168, R171, R174, R175): a frame with no rate group, no commit and no
staged table, in which nothing is due after the positions latch, and what each command comes to when its checks pass. -/
namespace Sys2Proof.Machine

section
variable {s : Dev}

/-! ## The start of a frame -/

/-- With no commit waiting none takes effect (R171). -/
theorem Dev.applyCommits_of_nil (h : s.lpe.commits = []) : s.applyCommits = s := by
  have kept : { s with lpe := { s.lpe with commits := [] } } = s := by
    rw [← h]
  rw [Dev.applyCommits, h]
  exact kept

/-- With no table staged none becomes current (R163). -/
theorem Dev.applySwaps_of_none (h : ∀ t, t < 16 → kget none s.lpe.staged t = none) : s.applySwaps = s := by
  unfold Dev.applySwaps
  refine List.foldlRecOn (motive := fun x : Dev => x = s) _ _ rfl fun x hx t ht => ?_
  subst hx
  rw [h t (List.mem_range.mp ht)]

/-- With nothing decided for it and no loop to evaluate, a frame is its start alone: the latch, the reads and the
bridges (R152, R154). -/
theorem framePhaseZero_idle {w y : Dev}
    (hw : w = { s with lpe := { s.lpe with frame := s.lpe.frames, frames := s.lpe.frames + 1, phaseAt := s.dt } })
    (hy : y = Dev.frameStarts (Dev.phaseLatch
      (if s.lpe.frames % 5 = 0 then w.closeCpf.setCpf (fun c => { c with tk := s.dt }) else w) (s.lpe.frames % 5 == 0)))
    (hc : y.lpe.commits = []) (hst : ∀ t, t < 16 → kget none y.lpe.staged t = none)
    (hg : groupList y.lpe.groups = []) : framePhaseZero s = y := by
  have decided : y.applyCommits.applySwaps = y := by
    rw [Dev.applyCommits_of_nil hc, Dev.applySwaps_of_none hst]
  have loops : frameLoops (groupList y.lpe.groups) s.lpe.frames = [] := by
    rw [hg]
    rfl
  simp only [framePhaseZero, ← hw, ← hy, decided, loops, List.zipIdx_nil, List.foldl_nil, ite_self]

/-! ## Commands -/

variable {d : Desc}

/-- LPE_PARAM_WRITE of a block that no rule refuses, to a loop that no commit names (R171, R174). -/
theorem lpeParamWrite_passed {img : HostBytes} {b : List Byte} (hb : b = s.fetch d (d.w64 3) img)
    (ho : lpeObjectOk d = true) (hlen : 64 ≤ b.length) (ha : s.addrOk d (d.w64 3) 64 = true)
    (hbad : (parseParams b).bad (decide (lpeLoop d < 16)) = false) (hp : s.commitPending (lpeLoop d) = false) :
    lpeParamWrite d img s =
      (s.setBank (lpeLoop d) (4 + lpeMode d) ((parseParams b).owned (lpeLoop d))).complete d .done s.dt [] := by
  simp [lpeParamWrite, ← hb, ho, Nat.not_lt.mpr hlen, ha, hbad, hp]

theorem lpeCommit_passed (ho : lpeObjectOk d = true) (hz : bitsOf (d.w 5) 31 1 = 0) :
    lpeCommit d s = { s with lpe := { s.lpe with
      commits := s.lpe.commits ++ [⟨d.w64 3, bitOf (d.w 5) 0, s.dispatchedAt d, d⟩] } } := by
  simp [lpeCommit, ho, hz]

/-- LPE_HANDOVER of a loop that the MSQ does not own (R170). -/
theorem lpeHandover_passed (ho : lpeObjectOk d = true) (hz : bitsOf (d.w 3) 31 2 = 0) (hl : 16 ≤ lpeLoop d) :
    lpeHandover d s = s.handAt (lpeLoop d) (bitsOf (d.w 3) 1 0) (s.dispatchedAt d) (some d) := by
  simp [lpeHandover, ho, hz, Nat.not_lt.mpr hl]

theorem lpeRead_passed (ho : lpeObjectOk d = true) :
    lpeRead d s = s.complete d .done s.dt
      [wordI (s.lpeOut (lpeLoop d)), wordI (idiv (s.loop (lpeLoop d)).iacc 65536), wordN (s.lstat (lpeLoop d)),
       wordN (s.loop (lpeLoop d)).lastFrame] := by
  simp [lpeRead, ho]

/-- LPE_TABLE_LOAD of an image that breaks no rule, to a table with no copy staged (R163). -/
theorem lpeTableLoad_passed {img : HostBytes} {b : List Byte} (hb : b = s.fetch d (d.w64 3) img)
    (hz : bitsOf d.object 31 4 = 0) (ha : s.addrOk d (d.w64 3) b.length = true)
    (hs : kget none s.lpe.staged (bitsOf d.object 3 0) = none) (hf : ffCheck b = none) :
    lpeTableLoad d img s = { s with lpe := { s.lpe with
      staged := kput none s.lpe.staged (bitsOf d.object 3 0) (some ⟨parseFf b, s.dt, d⟩) } } := by
  simp [lpeTableLoad, ← hb, hz, ha, hs, hf]

end

/-! ## The rows together -/

/-- Settles O12: the start of an idle frame and the commands, row by row. -/
theorem loopEngineRowsComplete : Obligations.LoopEngineRowsComplete := by
  refine ⟨?_, fun d s hp hs => ?_⟩
  · intro s z hp hz _ w y hw hy hc hst hg
    refine (State.upd_on hp _).trans ?_
    rw [← hz, framePhaseZero_idle hw hy hc hst hg]
  · have act := State.cmd_on hp hs
    have reads : s.dev.hiu.d3hot = false → s.dev.reads d = true := fun h0 => by simp [Dev.reads, h0]
    refine ⟨?_, ?_, ?_, ?_, ?_⟩
    · intro img y b h0 hy hb ho hlen ha hbad hpend
      subst hy
      refine (State.updIn_on hp hs (reads h0) img _).trans ?_
      rw [lpeParamWrite_passed hb ho hlen ha hbad hpend]
    · intro ho hz
      exact (act _).trans (by rw [lpeCommit_passed ho hz])
    · intro ho hz hl
      exact (act _).trans (by rw [lpeHandover_passed ho hz hl])
    · intro ho
      exact (act _).trans (by rw [lpeRead_passed ho])
    · intro img y b h0 hy hb hz ha hst hf
      subst hy
      refine (State.updIn_on hp hs (reads h0) img _).trans ?_
      rw [lpeTableLoad_passed hb hz ha hst hf]

end Sys2Proof.Machine
end

section
/-! PROOFS. Hawkmoth's position and speed (08 R183) and the evaluation of its logic half (08 R178, R181, R188-R190,
R195). A sample of QA1 and QB1 is a step of h or an undetermined one; a cause that the doors heed blocks every permit. -/
namespace Sys2Proof.Machine

section
variable {s : Dev}

/-! ## Position and speed -/

/-- Levels that both change have no sense of turning (R183). -/
theorem hwkQuadStep_eq_zero_of_both {a b a' b' : Bool} (ha : a ≠ a') (hb : b ≠ b') : hwkQuadStep a b a' b' = 0 :=
  if_pos ⟨bne_iff_ne.mpr ha, bne_iff_ne.mpr hb⟩

/-- Accepted levels of which at most one has changed move h and the count by the step. -/
theorem Dev.hwkLevels_step {a b : Bool} (h : ¬(s.hwk.qa ≠ a ∧ s.hwk.qb ≠ b)) :
    s.hwkLevels a b = s.setHwk (fun g => { g with
      qa := a, qb := b, h := wrapS 32 (g.h + hwkQuadStep g.qa g.qb a b), net := g.net + hwkQuadStep g.qa g.qb a b }) := by
  have one : (s.hwk.qa != a && s.hwk.qb != b) = false := by
    rw [Bool.eq_false_iff, ne_eq, Bool.and_eq_true, bne_iff_ne, bne_iff_ne]
    exact h
  rw [Dev.hwkLevels, one]
  rfl

/-- Levels that both change set Q1_PHASE and move nothing. -/
theorem Dev.hwkLevels_both {a b : Bool} (ha : s.hwk.qa ≠ a) (hb : s.hwk.qb ≠ b) :
    s.hwkLevels a b = (s.setBit Reg.hwkStat 12 true).setHwk (fun g => { g with
      qa := a, qb := b, h := wrapS 32 g.h }) := by
  have both : (s.hwk.qa != a && s.hwk.qb != b) = true := by
    rw [Bool.and_eq_true, bne_iff_ne, bne_iff_ne]
    exact ⟨ha, hb⟩
  simp only [Dev.hwkLevels, both, if_true, hwkQuadStep_eq_zero_of_both ha hb, Int.add_zero]

section
variable {a b : Bool} {fa fb : Bool × Nat} (ho : s.hwk.osc = true) (hfa : fa = filterStep 4 s.hwk.qa s.hwk.runA a)
  (hfb : fb = filterStep 4 s.hwk.qb s.hwk.runB b)
include ho hfa hfb

/-- The running half filters a sample and takes the levels that come of it (R183). -/
theorem hwkQ1Count_runs : hwkQ1Count a b s =
    (s.setHwk (fun g => { g with runA := fa.2, runB := fb.2 })).hwkLevels fa.1 fb.1 := by
  subst hfa hfb
  exact if_pos ho

theorem hwkQ1Count_step (h : ¬(s.hwk.qa ≠ fa.1 ∧ s.hwk.qb ≠ fb.1)) :
    hwkQ1Count a b s = s.setHwk (fun g => { g with
      runA := fa.2, runB := fb.2, qa := fa.1, qb := fb.1, h := wrapS 32 (g.h + hwkQuadStep g.qa g.qb fa.1 fb.1),
      net := g.net + hwkQuadStep g.qa g.qb fa.1 fb.1 }) :=
  (hwkQ1Count_runs ho hfa hfb).trans (Dev.hwkLevels_step h)

theorem hwkQ1Count_both (ha : s.hwk.qa ≠ fa.1) (hb : s.hwk.qb ≠ fb.1) :
    hwkQ1Count a b s =
      ((s.setHwk (fun g => { g with runA := fa.2, runB := fb.2 })).setBit Reg.hwkStat 12 true).setHwk (fun g => { g with
        qa := fa.1, qb := fb.1, h := wrapS 32 g.h }) :=
  (hwkQ1Count_runs ho hfa hfb).trans (Dev.hwkLevels_both ha hb)

end

/-- A speed update of the running half: S from the counts, then the curve checks of an armed rule set (R183, R186). -/
theorem hwkSpeedUpdate_runs (ho : s.hwk.osc = true) {nets : List Int} {v : Int} {y : Dev}
    (hn : nets = (s.hwk.net :: s.hwk.nets).take 100)
    (hv : v = wrapS 32 (idiv ((nets.take (10 * s.spdWin)).foldl (· + ·) 0 * 1000) s.spdWin))
    (hy : y = s.setHwk (fun g => { g with
      net := 0, nets := nets, s := v, zeroRow := if v = 0 then g.zeroRow + 1 else 0 })) :
    hwkSpeedUpdate s = y.setHwk (fun g => { g with speedCauses := if s.hwk.armed then y.speedCausesNow else 0 }) := by
  subst hy hv hn
  simp only [hwkSpeedUpdate, ho, Bool.not_true, Bool.false_eq_true, if_false]
  rfl

/-- Settles O13: a sample is a step or an undetermined one, and an update is one of a half that is armed or not. -/
theorem hwkCountAndSpeed : Obligations.HwkCountAndSpeed := by
  intro s ho
  have act := State.upd_eq s
  refine ⟨?_, ?_, ?_⟩
  · intro a b fa fb hfa hfb
    refine ⟨fun one => ?_, fun ha hb => ?_⟩
    · exact (act _).trans (by rw [hwkQ1Count_step ho hfa hfb one])
    · exact (act _).trans (by rw [hwkQ1Count_both ho hfa hfb ha hb])
  · intro nets v off hn hv
    exact (act _).trans (by rw [hwkSpeedUpdate_runs ho hn hv rfl, off]; rfl)
  · intro nets v y on hn hv hy
    exact (act _).trans (by rw [hwkSpeedUpdate_runs ho hn hv hy, on]; rfl)

/-! ## The evaluation -/

theorem beq_zero_of_tbit {m i : Nat} (h : tbit m i = true) : (m == 0) = false := by
  rw [beq_eq_false_iff_ne]
  rintro rfl
  simp [tbit] at h

/-- A cause that is taken is active (R178). -/
theorem Dev.logicTake_active {c i : Nat} (h : tbit c i = true) : tbit (s.logicTake c).hwk.active i = true := by
  simp only [tbit] at h
  simp [Dev.logicTake, tbit, h]

/-- A cause that withdraws the door permits withdraws all three (R190). -/
theorem Dev.logicTake_blocked {c i : Nat} (h : tbit c i = true) (hd : tbit doorBlock i = true) :
    (s.logicTake c).hwk.permits = .none := by
  simp only [tbit] at h hd
  have motion (x y : Nat) : (c ||| x ||| y == 0) = false := beq_zero_of_tbit (i := i) (by simp [tbit, h])
  have doors (x y : Nat) : ((c ||| x ||| y) &&& doorBlock == 0) = false :=
    beq_zero_of_tbit (i := i) (by simp [tbit, h, hd])
  simp [Dev.logicTake, motion, doors, Permits.none]

theorem hwkEvaluation_unarmed (ho : s.hwk.osc = true) (ha : s.hwk.armed = false) :
    hwkEvaluation s = (s.logicTake 1).hwkCombine false s.dt := by
  simp [hwkEvaluation, ho, ha]

/-- An evaluation of an armed rule set: locks and anchors, mode inputs, UCM triggers, causes, permits. -/
theorem hwkEvaluation_armed (ho : s.hwk.osc = true) (ha : s.hwk.armed = true) {y z w : Dev}
    (hy : y = (((List.range 8).foldl (fun (t : Dev) i => t.lockStep i) s).anchorClear 0).anchorClear 1)
    (hz : z = y.setHwk (fun g => { g with insp := y.modeInput 14 g.insp, recallOn := y.modeInput 15 g.recallOn }))
    (hw : w = z.ucmEvent (z.hwk.triggers ++ z.ucmTriggers)) :
    hwkEvaluation s = (w.logicTake w.logicCauses).hwkCombine false w.dt := by
  subst hw hz hy
  simp only [hwkEvaluation, ho, ha, Bool.not_true, Bool.false_eq_true, if_false]

end

/-- Settles O14: NOT_ARMED, cause 0, is one that the doors heed too. -/
theorem hwkEvaluationRuns : Obligations.HwkEvaluationRuns := by
  intro s ho
  refine ⟨?_, ?_⟩
  · rintro t ha rfl
    refine ⟨?_, ?_, ?_⟩
    · exact (State.upd_eq s _).trans (by rw [hwkEvaluation_unarmed ho ha])
    · exact Dev.logicTake_blocked (i := 0) (by decide) (by decide)
    · exact Dev.logicTake_active (by decide)
  · intro y z w ha hy hz hw
    exact (State.upd_eq s _).trans (by rw [hwkEvaluation_armed ho ha hy hz hw])

end Sys2Proof.Machine
end

section
/-! PROOFS. The timers and checks of Hawkmoth's logic half (08 R179, R180, R189, R198) and the events of its Cocoon half
(08 R190, R191): what each comes to when it is due. -/
namespace Sys2Proof.Machine

section
variable {s : Dev}

/-! ## The logic half -/

/-- While the ring has room the oldest record goes, and then the rest (R198). -/
theorem deliverRecords_cons {n : Nat} {r : HwkRecord} {t : List HwkRecord} (hr : s.hwk.records = r :: t)
    (he : s.eqReady 7 = true) :
    deliverRecords (n + 1) s =
      deliverRecords n ((s.setHwk (fun g => { g with records := t })).event 7 r.severity r.code 0 r.time r.payload) := by
  simp only [deliverRecords, hr, he, if_true]

/-- A ring without room takes none. -/
theorem deliverRecords_full (he : s.eqReady 7 = false) : ∀ n, deliverRecords n s = s
  | 0 => rfl
  | n + 1 => by
    unfold deliverRecords
    split
    · simp [he]
    · rfl

theorem hwkSpeedCauseRelease_reached (ho : s.hwk.osc = true) (hz : 5000 ≤ s.hwk.zeroRow) :
    hwkSpeedCauseRelease s = s.setHwk (fun g => { g with
      held := g.held &&& g.cond, active := maskOff g.active (maskOff g.held g.cond) }) :=
  if_pos ⟨hz, ho⟩

theorem hwkParkStart_reached (ho : s.hwk.osc = true) (ha : s.hwk.armed = true) (hp : s.hwk.park = none)
    (hr : 500000 ≤ s.hwk.parkRow) : hwkParkStart s = s.setHwk (fun g => { g with park := some g.h }) :=
  if_pos ⟨hr, ha, Option.isNone_iff_eq_none.mpr hp, ho⟩

theorem hwkClockCheck_inside {n : Nat} (ho : s.hwk.osc = true)
    (hn : ((n : Int) - 100000).natAbs ≤ s.fld Reg.hwkWin 11 8 * 1000) :
    hwkClockCheck n s = s.setHwk (fun g => { g with
      clkPasses := g.clkPasses + 1, clkBad := g.clkBad && decide (g.clkPasses + 1 < 10) }) := by
  simp [hwkClockCheck, ho, Nat.not_lt.mpr hn]

theorem hwkClockCheck_outside {n : Nat} (ho : s.hwk.osc = true)
    (hn : s.fld Reg.hwkWin 11 8 * 1000 < ((n : Int) - 100000).natAbs) :
    hwkClockCheck n s =
      ((s.setHwk (fun g => { g with clkBad := true, clkPasses := 0 })).chrInc 6 21).hwkEvent 8 9 s.dt
        [(n : Int), 100000] := by
  simp [hwkClockCheck, ho, hn]

/-! ## The Cocoon half -/

/-- A pin that moves or not is no part of either half and no setting. -/
theorem Dev.emit_or_not (t : Dev) (move : Bool) (o : Output) :
    (if move then t.emit o else t).hwkF = t.hwkF ∧ (if move then t.emit o else t).hwk = t.hwk ∧
    (if move then t.emit o else t).cfg = t.cfg := by
  cases move <;> exact ⟨rfl, rfl, rfl⟩

section
variable (ho : s.hwkF.osc = true) (hr : s.coc.field.running = true)
include ho hr

/-- The clock and the field die run, so the Cocoon half acts. -/
theorem cocoonHalf_runs : (!s.hwkF.osc || !s.coc.field.running) = false := by
  simp [ho, hr]

/-- An evaluation of the Cocoon half: its causes, the latches of causes 5 and 13, the permits that both leave (R190). -/
theorem hwkCocoonEvaluation_runs {c l : Nat} {p : Permits} (hc : c = if s.hwkF.armed then s.fieldCauses else 1)
    (hl : l = s.hwkF.latched ||| (c &&& 0x2020))
    (hp : p = ⟨c ||| l == 0,
      s.hwkF.armed && s.fieldOn 8 && ((c ||| l) &&& doorBlock == 0),
      s.hwkF.armed && s.fieldOn 9 && ((c ||| l) &&& doorBlock == 0)⟩) :
    hwkCocoonEvaluation s = (s.setHwkF (fun f => { f with
      active := c, latched := l, permits := p,
      evalAt := if c ≠ f.active ∨ l ≠ f.latched ∨ p ≠ f.permits then s.time else f.evalAt })).dropEnables := by
  subst hp hl hc
  simp only [hwkCocoonEvaluation, cocoonHalf_runs ho hr, Bool.false_eq_true, if_false, decide_eq_true_eq]
  rfl

/-- A timebase edge turns the timebase and gates what both halves grant at the start of a period (R191). -/
theorem enableTimebaseEdge_runs :
    (enableTimebaseEdge s).hwkF.timebase = (!s.hwkF.timebase) ∧
    (enableTimebaseEdge s).hwkF.motionEn = s.hwkF.motionEn.edge (!s.hwkF.timebase) s.hwkF.grants.1 ∧
    (enableTimebaseEdge s).hwkF.doorEn = s.hwkF.doorEn.edge (!s.hwkF.timebase) s.hwkF.grants.2 ∧
    (enableTimebaseEdge s).hwk = s.hwk ∧ (enableTimebaseEdge s).cfg = s.cfg := by
  simp only [enableTimebaseEdge, cocoonHalf_runs ho hr, Bool.false_eq_true, if_false, Dev.emit_or_not,
    Dev.setHwkF_fields, and_self]

theorem enableReadback_runs (m d : Bool) :
    enableReadback m d s =
      s.setHwkF (fun f => { f with motionEn := f.motionEn.read m, doorEn := f.doorEn.read d }) := by
  simp only [enableReadback, cocoonHalf_runs ho hr, Bool.false_eq_true, if_false]

end

end

/-! ## The rows together -/

/-- Settles O15: the logic half's timers and checks and the Cocoon half's events, row by row. -/
theorem hwkRowsComplete : Obligations.HwkRowsComplete := by
  refine ⟨fun s => ?_, fun s => ?_⟩
  · have act := State.upd_eq s
    refine ⟨?_, ?_, ?_, ?_, ?_, ?_⟩
    · intro r t hr he
      exact (act _).trans (by rw [hwkRecordDelivery, deliverRecords_cons hr he])
    · intro he
      exact State.upd_of_fixed (deliverRecords_full he 64)
    · intro ho hz
      exact (act _).trans (by rw [hwkSpeedCauseRelease_reached ho hz])
    · intro ho ha hp hr
      exact (act _).trans (by rw [hwkParkStart_reached ho ha hp hr])
    · intro n ho hn
      exact (act _).trans (by rw [hwkClockCheck_inside ho hn])
    · intro n ho hn
      exact (act _).trans (by rw [hwkClockCheck_outside ho hn])
  · have act := State.upd_eq s
    refine ⟨?_, ?_, ?_, act _, act _⟩
    · intro c l p ho hr hc hl hp
      exact (act _).trans (by rw [hwkCocoonEvaluation_runs ho hr hc hl hp])
    · intro ho hr
      exact ⟨_, act _, enableTimebaseEdge_runs ho hr⟩
    · intro m d ho hr
      exact (act _).trans (by rw [enableReadback_runs ho hr])

end Sys2Proof.Machine
end

section
/-! PROOFS. The Hawkmoth commands (08 R194, R197): a lock is a write of LOCK = 1, by register or by a rules load, and its
outcome is that of the checks of Table 8-8. -/
namespace Sys2Proof.Machine

section
variable {s : Dev}

/-! ## The lock -/

/-- A lock computes the CRC, keeps its command and, when the checks find nothing, sends the rule set down (R194). -/
theorem Dev.lockRules_checked {d : Option Desc} {y : Dev}
    (hy : y = (s.setFld Reg.hwkCtrl 0 0 1).setHwk (fun g => { g with
      locked := true, crc := rulesCrc s.hwkImage, lockDesc := d, lockAt := s.dt })) :
    s.lockRules d = if y.lockReason (rulesCrc s.hwkImage) = 0
      then (y.setHwk (fun g => { g with confirming := true })).sendRules
      else y.lockDone (y.lockReason (rulesCrc s.hwkImage)) := by
  rw [hy, Dev.lockRules]

theorem hwkLock_first {v : Word} (hv : bitOf v 0 = true) (hl : s.hwk.locked = false) :
    hwkLock v s = s.lockRules none := by
  simp [hwkLock, hv, hl]

/-- A write without LOCK, and one after the lock, change nothing (R194). -/
theorem hwkLock_ignored {v : Word} (h : bitOf v 0 = false ∨ s.hwk.locked = true) : hwkLock v s = s := by
  obtain hv | hl := h
  · simp [hwkLock, hv]
  · simp [hwkLock, hl]

/-! ## Commands -/

variable {d : Desc}

section
variable (h0 : d.object = 0) (ha : s.addrOk d (d.w64 3) 512 = true)
include h0 ha

/-- The object and the buffer of a command of 512 bytes are good. -/
theorem rulesBuffer_ok : ¬(d.object ≠ 0 ∨ !s.addrOk d (d.w64 3) 512) := by
  simp [h0, ha]

/-- A rules load before the lock writes the registers, and then locks if LOCK is 1 (R194). -/
theorem hwkRulesLoad_unlocked {img : HostBytes} (hl : s.hwk.locked = false) {b : List Byte}
    (hb : b = s.fetch d (d.w64 3) img) {z : Dev}
    (hz : z = ruleOffsets.foldl (fun (t : Dev) o => t.hwkRuleWrite (0x6000 + o) (imgWord b o)) s) :
    hwkRulesLoad d img s = if bitOf (imgWord b 0) 0 then z.lockRules (some d)
      else z.complete d .done z.dt [0, z.hwkStatWord] := by
  simp only [hwkRulesLoad, if_neg (rulesBuffer_ok h0 ha), hl, Bool.false_eq_true, if_false, ← hb, ← hz]

theorem hwkRulesLoad_locked {img : HostBytes} (hl : s.hwk.locked = true) :
    hwkRulesLoad d img s = s.fail d .refusedInterlock := by
  simp only [hwkRulesLoad, if_neg (rulesBuffer_ok h0 ha), hl, if_true]

theorem hwkRulesRead_passed {img : List Byte} (hi : img = (List.range 128).flatMap (fun i =>
      leBytes 4 (if 0x20 ≤ i ∧ i < 0x40 then 0 else (s.reg (0x6000 + 4 * i)).toNat))) :
    hwkRulesRead d s =
      (s.hostWrite d (d.w64 3) img).complete d .done s.dt [rulesCrc s.hwkImage, wordN s.hwk.reason] := by
  rw [hwkRulesRead, if_neg (rulesBuffer_ok h0 ha), hi]

end

theorem hwkStatus_passed (h0 : d.object = 0) :
    hwkStatus d s = s.complete d .done s.dt [s.hwkStatWord, s.hwkCauseWord, wordI s.hwk.h, wordI s.hwk.s] :=
  if_neg (not_not_intro h0)

end

/-! ## The rows together -/

/-- Settles O16: the register write of the lock, then the commands, row by row. -/
theorem hwkCommandsComplete : Obligations.HwkCommandsComplete := by
  intro s
  have reads (d : Desc) (h : s.dev.hiu.d3hot = false) : s.dev.reads d = true := by simp [Dev.reads, h]
  refine ⟨?_, ?_, ?_, ?_, ?_, ?_⟩
  · intro v y hp h3 hv hl hy
    exact (State.upd_bar hp h3 _).trans (by rw [hwkLock_first hv hl, Dev.lockRules_checked hy])
  · intro v hp h3 h
    exact (State.upd_bar hp h3 _).trans (by rw [hwkLock_ignored h])
  · rintro d img y b hs h3 h0 rfl ha hl hb z hz
    have load := State.updIn_sent hs (reads d h3) img (hwkRulesLoad d img)
    rw [hwkRulesLoad_unlocked h0 ha hl hb hz] at load
    refine ⟨fun hv => ?_, fun hv w hw => ?_⟩
    · exact load.trans (by rw [if_neg (Bool.eq_false_iff.mp hv)])
    · exact load.trans (by rw [if_pos hv, Dev.lockRules_checked hw])
  · intro d img hs h3 h0 ha hl
    exact (State.updIn_sent hs (reads d h3) img _).trans (by rw [hwkRulesLoad_locked h0 ha hl])
  · intro d hs h0
    exact (State.cmd_sent hs _).trans ((State.upd_eq ..).trans (by rw [hwkStatus_passed h0]))
  · intro d img hs h0 ha hi
    exact (State.cmd_sent hs _).trans ((State.upd_eq ..).trans (by rw [hwkRulesRead_passed h0 ha hi]))

end Sys2Proof.Machine
end

section
/-! PROOFS. Monarch's rows (09 R206, R214, R215, R217, R219, R221, R223, R224; 10 R231, R246): the head of the committed
order, the end of an evaluation, the commit of a Solo part, and what each command comes to when its checks pass. -/
namespace Sys2Proof.Machine

section
variable {s : Dev}

/-! ## Applied events -/

/-- With no evaluation left, the row of its kind takes the head of the committed order and applies it. -/
theorem Dev.applyHead_of_kind {p : Committed → Bool} {c : Committed} {rest : List Committed} (hj : s.mon.jobs = [])
    (hc : s.mon.committed = c :: rest) (hp : p c = true) :
    s.applyHead p = (s.setMon (fun m => { m with committed := rest })).applyCommitted c := by
  simp only [Dev.applyHead, hj, hc, hp, if_true]

/-- An applied row changes the block by the head of the order and then judges the car's own record anew. -/
theorem State.applyHead_of_kind {s : State} (h5 : s.dev.powered 5 = true) {p : Committed → Bool} {c : Committed}
    {rest : List Committed} (hj : s.dev.mon.jobs = []) (hc : s.dev.mon.committed = c :: rest) (hp : p c = true) :
    s.upd (whenOn 5 (fun x => (x.applyHead p).carStatus)) =
      .next (s.withDev ((s.dev.setMon (fun m => { m with committed := rest })).applyCommitted c).carStatus) := by
  rw [State.upd_on h5, Dev.applyHead_of_kind hj hc hp]

/-- An evaluation whose cycles have passed is finished; then an offered set may start the next local epoch (R219). -/
theorem monEvaluationComplete_reached {j : EvalJob} {l : List EvalJob} (hj : s.mon.jobs = j :: l)
    (ht : s.mon.jobStart + 2 * s.evalCycles j ≤ s.dt) :
    monEvaluationComplete s = s.finishEval.soloActivate.carStatus := by
  simp only [monEvaluationComplete, hj, if_pos ht]

/-- A Solo part with an epoch commits what lies before its watermark (10 R246). -/
theorem localCommit_solo (hg : s.hasGrp = false) (he : s.grp.epoch ≠ 0) :
    localCommit s = (s.setGrp (fun g => { g with frontier := s.watermark })).commitWhere
      (fun e => decide (e.tEv < s.watermark)) s.watermark := by
  simp [localCommit, hg, he]

/-! ## Calls and cancels -/

variable {d : Desc}

/-- MON_CALL of a well-formed call takes the node's next trip identity and forms the call event (R223). -/
theorem monCall_passed (hf : s.callFit d = true) {q id : Nat} (hq : q = (s.mon.seq + 1) % 2 ^ 40)
    (hid : id = s.grp.node * 2 ^ 40 + q) :
    monCall d s = (s.setMon (fun m => { m with
        seq := q, calls := m.calls ++ [⟨d, id, bitOf (d.w 4) 24, none, false, none, 0, none⟩] })).formEvent
      (.call ⟨id, bitsOf (d.w 3) 15 0, if bitsOf (d.w 4) 2 0 = 1 then 0xFFFF else bitsOf (d.w 3) 31 16, d.w 4, d.w 5⟩)
      (s.dispatchedAt d) := by
  subst hq hid
  simp only [monCall, hf, Bool.not_true, Bool.false_eq_true, if_false]
  rfl

section
variable (h2 : d.w 2 = 0)
include h2

theorem monCancel_passed {id : Nat} (hid : id = d.w64 3 % 2 ^ 48) :
    monCancel d s = (s.setMon (fun m => { m with cancels := m.cancels ++ [(d, id, s.dispatchedAt d)] })).formEvent
      (.cancel id) (s.dispatchedAt d) := by
  subst hid
  exact if_neg (not_not_intro h2)

/-! ## The own car and reads -/

theorem monCarMode_passed (hm : bitsOf (d.w 3) 1 0 ≠ 3) :
    monCarMode d s =
      ((s.setMon (fun m => { m with mode := bitsOf (d.w 3) 1 0 })).carStatus).complete d .done s.dt [] :=
  if_neg (by simp [h2, hm])

/-- MON_CAR_DOORS while the car dwells, of decks that have no door axis (R224). -/
theorem monCarDoors_passed {m : Nat} (hm : m = bitsOf (d.w 3) 1 0) (h0 : tbit m 0 = true → s.deckHasAxis 0 = false)
    (h1 : tbit m 1 = true → s.deckHasAxis 1 = false) {o : CarRec} (ho : s.mon.own = some o) (hp : o.phase = 1) :
    monCarDoors d s =
      ((s.setMon (fun x => { x with doors := x.doors ||| m })).carStatus).complete d .done s.dt [] := by
  subst hm
  have bare : ¬(d.w 2 ≠ 0 ∨ (tbit (bitsOf (d.w 3) 1 0) 0 && s.deckHasAxis 0)
      ∨ (tbit (bitsOf (d.w 3) 1 0) 1 && s.deckHasAxis 1)) := by
    simpa [h2] using ⟨h0, h1⟩
  have dwells : ¬(s.mon.own.map (·.phase)).getD 0 ≠ 1 := by
    simp [ho, hp]
  simp only [monCarDoors, if_neg bare, if_neg dwells]

section
variable (ha : s.addrOk d (d.w64 5) 64 = true)
include ha

/-- The reserved word and the buffer of MON_TRIP_READ are good. -/
theorem tripBuffer_ok : ¬(d.w 2 ≠ 0 ∨ !s.addrOk d (d.w64 5) 64) := by
  simp [h2, ha]

theorem monTripRead_held {t : Trip} (ht : s.trip (d.w64 3 % 2 ^ 48) = some t) :
    monTripRead d s = (s.hostWrite d (d.w64 5) t.bytes).complete d .done s.dt [wordN t.state.code.toNat] := by
  simp only [monTripRead, if_neg (tripBuffer_ok h2 ha), ht]

/-- MON_TRIP_READ of an identity without a context answers with the code of no trip and writes nothing. -/
theorem monTripRead_unheld (ht : s.trip (d.w64 3 % 2 ^ 48) = none) :
    monTripRead d s = s.complete d .done s.dt [wordN (Config.tripStateCode 0).toNat] := by
  simp only [monTripRead, if_neg (tripBuffer_ok h2 ha), ht]

end

/-! ## Configuration -/

section
variable {img : HostBytes} {b : List Byte} (hoff : s.mon.offered = [])
include hoff

/-- MON_FTT_LOAD of an image that breaks no rule, while no set is offered (R221). -/
theorem monFttLoad_passed (hb : b = (s.fetch d (d.w64 4) img).take 131088)
    (ha : s.addrOk d (d.w64 4) 131088 = true) (hl : b.length = 131088) (hf : fttFit b = true) :
    monFttLoad d img s =
      (s.stage s.mon.stagedCfg (kput [] s.mon.stagedFtt (bitsOf (d.w 3) 1 0) b)).complete d .done s.dt
        [wordN (leAt b 12 4)] := by
  simp [monFttLoad, ← hb, h2, ha, hoff, hl, hf]

/-- MON_CONFIG_LOAD of an image that breaks no rule, while no set is offered (R221). -/
theorem monConfigLoad_passed (hb : b = (s.fetch d (d.w64 3) img).take 1156)
    (ha : s.addrOk d (d.w64 3) 1156 = true) (hl : b.length = 1156) (hf : configFit b = true) :
    monConfigLoad d img s =
      (s.stage b s.mon.stagedFtt).complete d .done s.dt [wordN (leAt b 1152 4)] := by
  simp [monConfigLoad, ← hb, h2, ha, hoff, hl, hf]

end

theorem monConfigCommit_passed (hs : s.mon.sdigest ≠ 0) :
    monConfigCommit d s = (s.setMon (fun m => { m with offered := m.offered ++ [d] })).soloActivate :=
  if_neg (by simp [h2, hs])

end

/-- MON_CAR_READ answers with the record and the first 64 halts of the stop list of a car. -/
theorem monCarRead_passed {c : Nat} (hc : c = (d.w 2).toNat) (h16 : c < 16) (ha : s.addrOk d (d.w64 3) 544 = true)
    {r : CarRec} (hr : r = s.car c) {hs : List Halt}
    (hh : hs = (stopList r (r.dir == 1) (s.carTrips c)).take 64) {v : List Visit}
    (hv : v = (s.simulate c s.dt r hs).getD []) :
    monCarRead d s = (s.drawn.hostWrite d (d.w64 3)
      (r.bytes ++ hs.flatMap (fun h => haltBytes h (((v.find? (fun x => decide (x.halt = h))).map
        (fun x => satU 32 x.arr)).getD (s.free % 2 ^ 32))))).complete d .done s.dt [wordN hs.length] := by
  subst hc hr hh hv
  have fits : ¬(16 ≤ (d.w 2).toNat ∨ !s.addrOk d (d.w64 3) 544) := by
    simp [ha, h16]
  exact if_neg fits

end

/-! ## The rows together -/

/-- Settles O17: each applied row finds a head of its kind, the evaluation's cycles have passed, and the part is Solo. -/
theorem monarchEventsComplete : Obligations.MonarchEventsComplete := by
  refine ⟨?_, fun s h5 => ⟨?_, ?_⟩⟩
  · rintro s rest h5 hj y rfl
    refine ⟨fun n q t f c hc => ?_, fun n q t f i hc => ?_, fun n q t f r hc => ?_, fun t hc => ?_⟩
    · exact (State.applyHead_of_kind h5 hj hc (p := Committed.isCall) rfl).trans (by rw [Dev.applyCommitted])
    · exact (State.applyHead_of_kind h5 hj hc (p := Committed.isCancel) rfl).trans (by rw [Dev.applyCommitted])
    · exact (State.applyHead_of_kind h5 hj hc (p := Committed.isStatus) rfl).trans (by rw [Dev.applyCommitted])
    · exact (State.applyHead_of_kind h5 hj hc (p := Committed.isTick) rfl).trans (by rw [Dev.applyCommitted])
  · intro j l hj ht
    exact (State.upd_on h5 _).trans (by rw [monEvaluationComplete_reached hj ht])
  · intro hg he
    exact (State.upd_on h5 _).trans (by rw [localCommit_solo hg he])

/-- Settles O18: the commands, row by row. -/
theorem monarchCommandsComplete : Obligations.MonarchCommandsComplete := by
  intro d s h5 hs
  have act := State.cmd_on h5 hs
  have reads : s.dev.hiu.d3hot = false → s.dev.reads d = true := fun h => by simp [Dev.reads, h]
  refine ⟨?_, fun h2 => ⟨?_, ?_, ?_, ?_, ?_, ?_, ?_, ?_⟩, ?_⟩
  · intro q id hf hq hid
    exact (act _).trans (by rw [monCall_passed hf hq hid])
  · intro id hid
    exact (act _).trans (by rw [monCancel_passed h2 hid])
  · intro hm
    exact (act _).trans (by rw [monCarMode_passed h2 hm])
  · intro o h0 h1 ho hp b0 b1
    rw [← b0] at h0
    rw [← b1] at h1
    exact (act _).trans (by rw [monCarDoors_passed h2 rfl h0 h1 ho hp])
  · intro t ha ht
    exact (act _).trans (by rw [monTripRead_held h2 ha ht])
  · intro ha ht
    exact (act _).trans (by rw [monTripRead_unheld h2 ha ht])
  · rintro img y b h3 rfl hb ha hoff hl hf
    exact (State.updIn_on h5 hs (reads h3) img _).trans (by rw [monFttLoad_passed h2 hoff hb ha hl hf])
  · rintro img y b h3 rfl hb ha hoff hl hf
    exact (State.updIn_on h5 hs (reads h3) img _).trans (by rw [monConfigLoad_passed h2 hoff hb ha hl hf])
  · intro hd
    exact (act _).trans (by rw [monConfigCommit_passed h2 hd])
  · intro r halts v h16 ha hr hh hv
    exact (act _).trans (by rw [monCarRead_passed rfl h16 ha hr hh hv])

end Sys2Proof.Machine
end

section
/-! PROOFS. The group commands (10 R250): what each comes to on a part with the Group replication when its checks
pass. -/
namespace Sys2Proof.Machine

section
variable {s : Dev} {d : Desc}

/-- Members and contexts that the part has (02 R29). -/
theorem Dev.overLimit_within (hm : bitsOf (d.w 3) 12 8 ≤ s.maxCars) (hc : bitsOf (d.w 3) 25 16 ≤ s.tripCtx) :
    s.overLimit d = false :=
  decide_eq_false (by omega)

section
variable (hg : s.hasGrp = true) (h2 : d.w 2 = 0)
include hg h2

/-- GRP_CONFIG takes its words while the group is off, SKEW within its bounds. -/
theorem grpConfig_passed {y : Dev} (he : s.grp.en = false) (h1 : 1 ≤ bitsOf (d.w 3) 12 8)
    (hn : bitsOf (d.w 3) 7 0 < 16) (hm : bitsOf (d.w 3) 12 8 ≤ s.maxCars) (hc : bitsOf (d.w 3) 25 16 ≤ s.tripCtx)
    (hy : y = s.setGrp (fun g => { g with
      node := bitsOf (d.w 3) 3 0, members := bitsOf (d.w 3) 12 8,
      capacity := bitsOf (d.w 3) 25 16, groupId := bitsOf (d.w 4) 15 0 })) :
    grpConfig d s = (y.setFld Reg.grpSkew 9 0 (clampN 50 900 (bitsOf (d.w 4) 25 16))).complete d .done s.dt [] := by
  subst hy
  have here : ¬(!s.hasGrp || s.overLimit d) = true := by simp [hg, Dev.overLimit_within hm hc]
  have off : ¬s.grp.en = true := by simp [he]
  have fits : ¬(d.w 2 ≠ 0 ∨ bitsOf (d.w 3) 12 8 = 0 ∨ 16 ≤ bitsOf (d.w 3) 7 0) := by simp [h2]; omega
  simp only [grpConfig, if_neg here, if_neg off, if_neg fits, Dev.setGrp_fields]

/-- The part has the replication and the object of the command is 0. -/
theorem grpCommand_ok : (!s.hasGrp) = false ∧ ¬d.w 2 ≠ 0 :=
  ⟨by simp [hg], not_not_intro h2⟩

theorem grpJoin_passed (he : s.grp.en = false) :
    grpJoin d s = s.setGrp (fun g => { g with
      en := true, joining := true, leaving := none, joinDesc := some d, quietAt := s.dt }) := by
  obtain ⟨here, object⟩ := grpCommand_ok hg h2
  simp only [grpJoin, here, if_neg object, he, Bool.false_eq_true, if_false]

/-- A member with nobody aboard starts to leave. -/
theorem grpLeave_member (ha : (s.carTrips s.grp.node).all (fun t => !t.aboard) = true) (hl : s.grp.leaving = none)
    (hm : s.grp.member = true) :
    grpLeave d s = s.setGrp (fun g => { g with leaving := some 0, leaveDesc := some d }) := by
  obtain ⟨here, object⟩ := grpCommand_ok hg h2
  have empty : (s.carTrips s.grp.node).any Trip.aboard = false := by
    simpa [List.all_eq_not_any_not] using ha
  simp only [grpLeave, here, if_neg object, empty, hl, hm, Option.isSome_none, Bool.false_eq_true, if_false, if_true]

theorem grpStatus_passed :
    grpStatus d s = s.complete d .done s.dt
      [wordN s.grp.epoch, wordN s.grp.view, s.grpStatWord, lo64 s.grp.frontier] := by
  obtain ⟨here, object⟩ := grpCommand_ok hg h2
  simp only [grpStatus, here, if_neg object, Bool.false_eq_true, if_false]

/-- GRP_SNAPSHOT_READ writes the store's image to a buffer that takes it whole. -/
theorem grpSnapshotRead_passed (ha : s.addrOk d (d.w64 3) s.snapBytes.length = true) :
    grpSnapshotRead d s = (s.hostWrite d (d.w64 3) s.snapBytes).complete d .done s.dt
      [wordN s.snapBytes.length, snapCrc s.snapBytes] := by
  obtain ⟨here, -⟩ := grpCommand_ok hg h2
  have fits : ¬(d.w 2 ≠ 0 ∨ (!s.addrOk d (d.w64 3) s.snapBytes.length) = true) := by simp [h2, ha]
  simp only [grpSnapshotRead, here, if_neg fits, Bool.false_eq_true, if_false]

end

end

/-- Settles O19: the group commands, row by row. -/
theorem groupCommandsComplete : Obligations.GroupCommandsComplete := by
  intro d s h5 hs hg h2
  have act := State.cmd_on h5 hs
  refine ⟨?_, ?_, ?_, ?_, ?_⟩
  · intro y he h1 hn hm hc hy
    exact (act _).trans (by rw [grpConfig_passed hg h2 he h1 hn hm hc hy])
  · intro he
    exact (act _).trans (by rw [grpJoin_passed hg h2 he])
  · intro ha hl hm
    exact (act _).trans (by rw [grpLeave_member hg h2 ha hl hm])
  · exact (act _).trans (by rw [grpStatus_passed hg h2])
  · intro ha
    exact (act _).trans (by rw [grpSnapshotRead_passed hg h2 ha])

end Sys2Proof.Machine
end

section
/-! PROOFS. The records of group replication (10 R228, R229, R232, R234-R236): heartbeats, event records, the asking for
records and their sending again, then the rows of a view change. A row that takes a record is proved of the block `y`
that has the record off the front of the delivered ones. -/
namespace Sys2Proof.Machine

section
variable {s : Dev}

/-! ## Heartbeats -/

/-- The node has left: its third heartbeat of leaving is out, and no view holds another node with it (R250). -/
theorem lastBeat_iff :
    (decide (3 ≤ s.grp.leaving.getD 0) && (!s.grp.member || s.grp.view == 2 ^ s.grp.node)) = true ↔
      3 ≤ s.grp.leaving.getD 0 ∧ (s.grp.member = false ∨ s.grp.view = 2 ^ s.grp.node) := by
  simp

section
variable (hg : s.hasGrp = true) (he : s.grp.en = true) (hsync : s.stl.sync = true)
  (hm : s.grp.member = true ∨ s.grp.joining = true ∨ s.grp.leaving.isSome = true)
  (ht : s.dt % 1000000 = s.grp.node * 62500)
include hg he hsync hm ht

/-- A node in sync that takes part sends at its instant of the millisecond (R228). -/
theorem heartbeatSend_due :
    ¬(!s.hasGrp || !s.grp.en || !s.stl.sync || !(s.grp.member || s.grp.joining || s.grp.leaving.isSome)
      || s.dt % 1000000 != s.grp.node * 62500) = true := by
  have part : (s.grp.member || s.grp.joining || s.grp.leaving.isSome) = true := by simpa [or_assoc] using hm
  simp [hg, he, hsync, part, ht]

variable {y : Dev}
  (hy : y = (s.groupSend s.ownHeartbeat.bytes).setGrp (fun g => { g with leaving := g.leaving.map (· + 1) }))
include hy

/-- After the third heartbeat of its leaving, a node out of every view, or alone in its own, has left (R250). -/
theorem heartbeatSend_leaves
    (ha : 3 ≤ y.grp.leaving.getD 0 ∧ (y.grp.member = false ∨ y.grp.view = 2 ^ y.grp.node)) :
    heartbeatSend s = y.finishLeave := by
  simp only [heartbeatSend, if_neg (heartbeatSend_due hg he hsync hm ht), ← hy, if_pos (lastBeat_iff.mpr ha)]

section
variable (ha : ¬(3 ≤ y.grp.leaving.getD 0 ∧ (y.grp.member = false ∨ y.grp.view = 2 ^ y.grp.node)))
include ha

/-- Any other node starts the change its view calls for (R247, R248), and looks at what it can commit. -/
theorem heartbeatSend_triggers {c : Nat} {m : Bool} (hv : y.viewTrigger = some (c, m)) :
    heartbeatSend s = (y.trigger c m).commitStep := by
  simp only [heartbeatSend, if_neg (heartbeatSend_due hg he hsync hm ht), ← hy, if_neg (mt lastBeat_iff.mp ha), hv]

theorem heartbeatSend_quiet (hv : y.viewTrigger = none) : heartbeatSend s = y.commitStep := by
  simp only [heartbeatSend, if_neg (heartbeatSend_due hg he hsync hm ht), ← hy, if_neg (mt lastBeat_iff.mp ha), hv]

end

end

/-! ## Records asked for -/

/-- The first gap of a peer, due and not asked about, is asked for up to the next record held (R229). -/
theorem gapRetx_due {n q t first past : Nat} {l : List (Nat × Nat)} (hm : (s.peer n).marks = (q, t) :: l)
    (ha : (s.peer n).asked = none) (ht : t + s.fld Reg.stlSkewwin 4 0 * 1000 + 100000 ≤ s.dt)
    (hf : first = ((s.peer n).recv + 1) % 2 ^ 32)
    (hp : past = (s.peer n).beyond.foldl (fun a x => if seqAfter a x.gseq then x.gseq else a) ((q + 1) % 2 ^ 32)) :
    gapRetx n s = (s.modPeer n (fun p => { p with asked := some ((past + 2 ^ 32 - 1) % 2 ^ 32) })).groupSend
      (retxBytes n first ((past + 2 ^ 32 - first) % 2 ^ 32)) := by
  subst hf hp
  have due : ¬((s.peer n).asked.isSome || decide (s.dt < t + s.fld Reg.stlSkewwin 4 0 * 1000 + 100000)) = true := by
    simpa [ha] using ht
  simp only [gapRetx, hm, if_neg due]

/-! ## Loss of a peer -/

/-- What a node knows of a peer is no part of device time. -/
@[simp] theorem Dev.modPeer_dt (n : Nat) (f : Peer → Peer) : (s.modPeer n f).dt = s.dt := rfl

/-- A peer of the view that has not been heard, or whose records have a gap, for 3 ms is lost (R234, R229). -/
theorem grpPeerLost_silent {n : Nat} {h : Heartbeat} (hh : (s.peer n).hb = some h) (hm : s.grp.member = true)
    (hv : tbit s.grp.view n = true) (hn : n ≠ s.grp.node)
    (ht : (s.peer n).hbAt + 3000000 ≤ s.dt ∨ ∃ t, (s.peer n).gapAt = some t ∧ t + 3000000 ≤ s.dt) :
    grpPeerLost n s = (((s.modPeer n (fun p => { p with hb := none, marks := [] })).event
      9 6 2 0 s.dt [n, h.hbT]).chrInc 8 (32 + n)).trigger 1 false := by
  obtain ht | ⟨t, hg, ht⟩ := ht
  · simp [grpPeerLost, hh, hm, hv, hn, ht]
  · simp [grpPeerLost, hh, hm, hv, hn, hg, ht]

/-! ## The waits of a round and of an EPOCH_START -/

section
variable {c : Change} (hc : s.grp.change = some c)
include hc

section
variable (hs : c.start = none)
include hs

theorem flushWaitExpiry_due (ht : c.flushAt + 1000000 ≤ s.dt) : flushWaitExpiry s = s.roundCheck true := by
  simp [flushWaitExpiry, hc, hs, ht]

/-- Without EPOCH_START for 2 ms the next round goes without the coordinator (R235). -/
theorem epochStartTimeout_due (ht : c.flushAt + 2000000 ≤ s.dt) (hl : lowestOf c.proposed ≠ s.grp.node) :
    epochStartTimeout s = (s.beginRound (nodeMask ((nodesOf c.proposed).filter (· != lowestOf c.proposed)))
      c.cause c.merge).roundCheck false := by
  simp [epochStartTimeout, hc, hs, ht, hl]

end

section
variable {e : EpochStart} (hs : c.start = some e)
include hs

theorem cutTimeout_due (ht : c.startAt + 2000000 ≤ s.dt) (hr : s.startReady e = false) : cutTimeout s = s.rejoin := by
  simp [cutTimeout, hc, hs, ht, hr]

section
variable (hr : s.startReady e = true)
include hr

/-- An EPOCH_START whose view holds the node is applied, by a member with commits and by a joining node without. -/
theorem epochStartApply_inView (hv : tbit e.view s.grp.node = true) :
    epochStartApply s = (if s.grp.member then s.applyStart e else s.joinStart e).nextChange := by
  simp only [epochStartApply, hc, hs, hr, hv, Bool.not_true, Bool.false_eq_true, if_false]

/-- One that leaves the node out ends the change. -/
theorem epochStartApply_outside (hv : tbit e.view s.grp.node = false) :
    epochStartApply s = s.setGrp (fun g => { g with change := none, flushes := [], later := [] }) := by
  simp only [epochStartApply, hc, hs, hr, hv, Bool.not_true, Bool.not_false, Bool.false_eq_true, if_false, if_true]

end

end

end

/-! ## Records taken from the front -/

/-- A FLUSH is of a node of the group, and not of this one. -/
theorem flushSender_ok {f : Flush} (hlt : f.node < 16) (hne : f.node ≠ s.grp.node) :
    ¬(16 ≤ f.node ∨ f.node = s.grp.node) := by
  omega

section
variable {r : List Byte} {rest : List (List Byte)} {y : Dev}
  (hy : y = s.setGrp (fun g => { g with inbox := rest }))
include hy

/-- Taking a record off changes nothing else that a row looks at. -/
theorem Dev.taken_fields :
    y.grp.node = s.grp.node ∧ y.grp.log = s.grp.log ∧ y.grp.epoch = s.grp.epoch ∧ y.grp.change = s.grp.change ∧
    y.dt = s.dt := by
  simp [hy]

variable (hi : s.grp.inbox = r :: rest) (he : s.grp.en = true)
include hi he

/-- A record of its kind at the front of the delivered ones is taken off and handled. -/
theorem Dev.takeRecord_front {msg : Nat} (hk : leAt r 0 1 = msg) (f : Dev → List Byte → Dev) :
    s.takeRecord msg f = f y r := by
  subst hy
  simp only [Dev.takeRecord, hi, hk, if_true, Dev.setGrp_fields, he]

theorem heartbeatReceived_front (hk : leAt r 0 1 = 1) : heartbeatReceived s = y.takeHeartbeat r :=
  Dev.takeRecord_front hy hi he hk _

theorem eventRecordReceived_front (hk : leAt r 0 1 = 2) {e : GroupEvent} (hr : GroupEvent.ofBytes r = some e) :
    eventRecordReceived s = y.takeEvent e := by
  simp only [eventRecordReceived, Dev.takeRecord_front hy hi he hk, hr]

/-- A RETX that names this node has its own records of the range sent again (R229). -/
theorem retxReceived_front (hk : leAt r 0 1 = 6) (hn : leAt r 1 1 = s.grp.node) :
    retxReceived s = (s.grp.log.filter (fun e => e.node == s.grp.node &&
      decide ((e.gseq + 2 ^ 32 - leAt r 4 4) % 2 ^ 32 < leAt r 2 2))).foldl
        (fun (t : Dev) e => t.groupSend (e.bytes true)) y := by
  obtain ⟨node, log, -⟩ := Dev.taken_fields hy
  simp only [retxReceived, Dev.takeRecord_front hy hi he hk, node, log, if_neg (not_not_intro hn)]

/-! ### FLUSH -/

section
variable (hk : leAt r 0 1 = 3) (hlt : (Flush.ofBytes r).node < 16) (hne : (Flush.ofBytes r).node ≠ s.grp.node)
  {f : Flush} (hf : f = y.flushCame (Flush.ofBytes r))
include hk hlt hne hf

/-- While the round is open, a FLUSH is kept for it and may complete it (R235). -/
theorem flushReceived_open {c : Change} (hc : s.grp.change = some c) (hs : c.start = none) :
    flushReceived s =
      ((y.setGrp (fun g => { g with flushes := putFlush f g.flushes })).resendBeyond f).roundCheck false := by
  obtain ⟨node, -, -, change, -⟩ := Dev.taken_fields hy
  simp only [flushReceived, Dev.takeRecord_front hy hi he hk, node, if_neg (flushSender_ok hlt hne), ← hf, change, hc,
    hs, Option.isNone_none, if_true]

section
variable {c : Change} (hc : s.grp.change = some c) (hs : c.start ≠ none)
include hc hs

/-- Once EPOCH_START is taken, a FLUSH of the closed round is answered with the records its sender lacks. -/
theorem flushReceived_closed (hl : c.closes s.grp.epoch f = true) : flushReceived s = y.resendBeyond f := by
  obtain ⟨node, -, epoch, change, -⟩ := Dev.taken_fields hy
  simp only [flushReceived, Dev.takeRecord_front hy hi he hk, node, if_neg (flushSender_ok hlt hne), ← hf, change, hc,
    Option.isNone_eq_false_iff.mpr (Option.isSome_iff_ne_none.mpr hs), epoch, hl, Bool.false_eq_true, if_false, if_true]

/-- Any other is kept for the change that follows. -/
theorem flushReceived_later (hl : c.closes s.grp.epoch f = false) :
    flushReceived s = (y.setGrp (fun g => { g with later := putFlush f g.later })).resendBeyond f := by
  obtain ⟨node, -, epoch, change, -⟩ := Dev.taken_fields hy
  simp only [flushReceived, Dev.takeRecord_front hy hi he hk, node, if_neg (flushSender_ok hlt hne), ← hf, change, hc,
    Option.isNone_eq_false_iff.mpr (Option.isSome_iff_ne_none.mpr hs), epoch, hl, Bool.false_eq_true, if_false]

end

section
variable (hc : s.grp.change = none)
include hc

/-- With no change under way, a FLUSH that names the node draws it into the round (R235). -/
theorem flushReceived_joins (hp : tbit f.proposed s.grp.node = true) :
    flushReceived s = (((y.setGrp (fun g => { g with flushes := putFlush f g.flushes })).resendBeyond f).joinRound
      f).roundCheck false := by
  obtain ⟨node, -, -, change, -⟩ := Dev.taken_fields hy
  simp only [flushReceived, Dev.takeRecord_front hy hi he hk, node, if_neg (flushSender_ok hlt hne), ← hf, change, hc,
    hp, if_true]

/-- One that leaves the node out is answered alone. -/
theorem flushReceived_apart (hp : tbit f.proposed s.grp.node = false) : flushReceived s = y.resendBeyond f := by
  obtain ⟨node, -, -, change, -⟩ := Dev.taken_fields hy
  simp only [flushReceived, Dev.takeRecord_front hy hi he hk, node, if_neg (flushSender_ok hlt hne), ← hf, change, hc,
    hp, Bool.false_eq_true, if_false]

end

end

/-! ### EPOCH_START -/

/-- An EPOCH_START of the coordinator of the open round, with a view within the proposal that holds the node, is kept
for its application (R235). -/
theorem epochStartReceived_fits (hk : leAt r 0 1 = 4) {e : EpochStart} (hr : e = EpochStart.ofBytes r)
    (hv : tbit e.view s.grp.node = true) {c : Change} (hc : s.grp.change = some c) (hs : c.start = none)
    (hl : lowestOf c.proposed = e.coord) (hsub : subMask e.view c.proposed = true) :
    epochStartReceived s =
      (y.noteRefused e.coord ((nodesOf c.proposed).filter (fun n => (y.flushOf n).isSome)) e.view).setGrp
        (fun g => { g with change := some { c with start := some e, startAt := s.dt } }) := by
  obtain ⟨node, -, -, change, dt⟩ := Dev.taken_fields hy
  have fits : (c.start.isNone && lowestOf c.proposed == e.coord && subMask e.view c.proposed) = true := by
    simp [hs, hl, hsub]
  simp only [epochStartReceived, Dev.takeRecord_front hy hi he hk, ← hr, node, hv, change, hc, fits, dt, if_true]

/-! ### Snapshots -/

/-- A chunk of a snapshot is kept, and the round may wait for it (R244). -/
theorem snapReceived_front (hk : leAt r 0 1 = 5) (hn : leAt r 1 1 < 16) :
    snapReceived s = (y.keepChunk (leAt r 1 1) (leAt r 4 4) (leAt r 2 2) ((r.drop 8).take 1024)).roundCheck false := by
  simp only [snapReceived, Dev.takeRecord_front hy hi he hk, if_neg (Nat.not_le.mpr hn)]

end

end

/-! ## The rows together -/

/-- Settles O20: the rows of the records, then those of a view change, row by row. -/
theorem groupRecordsComplete : Obligations.GroupRecordsComplete := by
  refine ⟨fun s h5 hrun => ?_, fun s h5 hrun => ?_⟩
  · have act := State.upd_grp h5 hrun
    refine ⟨?_, ?_, ?_⟩
    · intro y hg he hsync hm ht hy
      refine ⟨fun ha => ?_, fun ha => ⟨fun hv => ?_, fun c m hv => ?_⟩⟩
      · exact (act _).trans (by rw [heartbeatSend_leaves hg he hsync hm ht hy ha])
      · exact (act _).trans (by rw [heartbeatSend_quiet hg he hsync hm ht hy ha hv])
      · exact (act _).trans (by rw [heartbeatSend_triggers hg he hsync hm ht hy ha hv])
    · intro r rest hi he y hy
      refine ⟨fun hk => ?_, fun e hk hr => ?_, fun hk hn => ?_⟩
      · exact (act _).trans (by rw [heartbeatReceived_front hy hi he hk])
      · exact (act _).trans (by rw [eventRecordReceived_front hy hi he hk hr])
      · exact (act _).trans (by rw [retxReceived_front hy hi he hk hn])
    · intro n q t l first past hm ha ht hf hp
      exact (act _).trans (by rw [gapRetx_due hm ha ht hf hp])
  · have act := State.upd_grp h5 hrun
    refine ⟨?_, ?_, ?_, ?_, ?_⟩
    · intro n h hh hm hv hn ht
      exact (act _).trans (by rw [grpPeerLost_silent hh hm hv hn ht])
    · intro r rest f y hi he hk hlt hne hy hf
      refine ⟨fun c hc hs => ?_, fun c hc hs => ⟨fun hl => ?_, fun hl => ?_⟩, fun hc => ⟨fun hp => ?_, fun hp => ?_⟩⟩
      · exact (act _).trans (by rw [flushReceived_open hy hi he hk hlt hne hf hc hs])
      · exact (act _).trans (by rw [flushReceived_closed hy hi he hk hlt hne hf hc hs hl])
      · exact (act _).trans (by rw [flushReceived_later hy hi he hk hlt hne hf hc hs hl])
      · exact (act _).trans (by rw [flushReceived_joins hy hi he hk hlt hne hf hc hp])
      · exact (act _).trans (by rw [flushReceived_apart hy hi he hk hlt hne hf hc hp])
    · intro r rest e c y hi he hk hr hv hc hs hl hsub hy
      exact (act _).trans (by rw [epochStartReceived_fits hy hi he hk hr hv hc hs hl hsub])
    · intro c hc hs
      refine ⟨fun ht => ?_, fun ht hl => ?_⟩
      · exact (act _).trans (by rw [flushWaitExpiry_due hc hs ht])
      · exact (act _).trans (by rw [epochStartTimeout_due hc hs ht hl])
    · intro c e hc hs
      refine ⟨fun ht hr => ?_, fun hr hv hm => ?_, fun hr hv hm => ?_, fun hr hv => ?_⟩
      · exact (act _).trans (by rw [cutTimeout_due hc hs ht hr])
      · exact (act _).trans (by rw [epochStartApply_inView hc hs hr hv, if_pos hm])
      · exact (act _).trans (by rw [epochStartApply_inView hc hs hr hv, if_neg (Bool.eq_false_iff.mp hm)])
      · exact (act _).trans (by rw [epochStartApply_outside hc hs hr hv])

end Sys2Proof.Machine
end

section
/-! PROOFS. Joining (10 R243-R245): a snapshot's chunks, its installation or the giving up of it, and the formation of a
group. -/
namespace Sys2Proof.Machine

section
variable {s : Dev}

/-- A whole snapshot is installed; the departures of the epoch act on it, and the join completes (R243). -/
theorem grpSnapshotDone_whole {t : Nat} {b : List Byte} {x : Snap} {y z : Dev} (hi : s.grp.install = some t)
    (hb : s.anySnapshot = some b) (hx : x = Snap.ofBytes b)
    (hy : y = (s.install x).setGrp (fun g => { g with install := none, installed := true, snaps := [] }))
    (hz : z = y.event 9 2 5 0 y.dt [b.length, x.trips.length, x.epoch]) :
    grpSnapshotDone s = (((z.reevaluate z.grp.tS).settleEvent z.grp.tS).carStatus).sendWaiting.commitStep.completeJoin t := by
  simp only [grpSnapshotDone, hi, hb, ← hx, ← hy, ← hz]

theorem installTimeout_due {t : Nat} (hi : s.grp.install = some t) (ht : t + 50000000 ≤ s.dt) :
    installTimeout s = s.rejoin := by
  simp only [installTimeout, hi, if_pos ht]

/-- After 3 ms without a member the lowest of the joining nodes starts the change that forms the group (R245). -/
theorem groupFormation_due (he : s.grp.en = true) (hj : s.grp.joining = true) (hc : s.grp.change = none)
    (hl : s.grp.leaving = none) (ht : s.grp.quietAt + 3000000 ≤ s.dt)
    (hlow : lowestOf (nodeMask s.joiners) = s.grp.node) : groupFormation s = s.trigger 7 false := by
  simp [groupFormation, he, hj, hc, hl, ht, hlow]

end

/-- Settles O21: the joining rows, row by row. -/
theorem groupJoinComplete : Obligations.GroupJoinComplete := by
  intro s h5 hrun
  have act := State.upd_grp h5 hrun
  refine ⟨?_, ?_, ?_, ?_⟩
  · intro r rest hi he hk hn
    exact (act _).trans (by rw [snapReceived_front rfl hi he hk hn])
  · intro t b x y z hi hb hx hy hz
    exact (act _).trans (by rw [grpSnapshotDone_whole hi hb hx hy hz])
  · intro t hi ht
    exact (act _).trans (by rw [installTimeout_due hi ht])
  · intro he hj hc hl ht hlow
    exact (act _).trans (by rw [groupFormation_due he hj hc hl ht hlow])

end Sys2Proof.Machine
end

section
/-! PROOFS. The two copies of a group frame (11 R257, R258): what a copy that concerns this group comes to on a port in
use, once the windows whose edge has passed have closed, and what the closing of a window comes to. -/
namespace Sys2Proof.Machine

section
variable {s z : Dev} {b : Bool} {bytes record : List Byte} {n sseq len pcrc : Nat}

/-- A copy of this group's identifier and of a node there can be, on a port in use of a part with the replication. -/
theorem groupFrameCopy_concerned (hg : s.hasGrp = true) (hu : s.portUse b = true)
    (hid : leAt bytes 2 2 = s.grp.groupId) (h16 : n < 16) :
    ¬(!s.hasGrp || !s.portUse b || leAt bytes 2 2 != s.grp.groupId || decide (16 ≤ n)) = true := by
  simp [hg, hu, hid, h16]

section
variable (hg : s.hasGrp = true) (hu : s.portUse b = true) (hid : leAt bytes 2 2 = s.grp.groupId)
  (hn : n = leAt bytes 1 1) (h16 : n < 16) (hz : z = s.closePast n) (hs : sseq = leAt bytes 4 4)
include hg hu hid hn h16 hz hs

/-- A copy with a wrong FCS counts against the sequence it names, where that one is acceptable. -/
theorem groupFrameCopyReceived_badFcs :
    groupFrameCopyReceived b false bytes s = if (z.stlSender n).accepts sseq then z.invalidCopy n b sseq else z := by
  simp only [groupFrameCopyReceived, ← hn, ← hs, ← hz, if_neg (groupFrameCopy_concerned hg hu hid h16), Bool.not_false,
    if_true]

section
variable (hl : len = leAt bytes 8 2) (hp : pcrc = leAt bytes 12 4) (hr : record = (bytes.drop 16).take len)
include hl hp hr

/-- A copy whose payload check fails sets PCRC_ERR, and then counts like one with a wrong FCS. -/
theorem groupFrameCopyReceived_badPayload
    (hbad : leAt bytes 0 1 ≠ 1 ∨ len ≠ msgLen (leAt record 0 1) ∨ len = 0 ∨
      pcrc ≠ (crc32 (bytes.take 12 ++ record)).toNat) {y : Dev}
    (hy : y = (z.setStl (fun t => { t with pcrcErr := satInc 16 t.pcrcErr })).setBit Reg.stlStat 3 true) :
    groupFrameCopyReceived b true bytes s = if (y.stlSender n).accepts sseq then y.invalidCopy n b sseq else y := by
  simp only [groupFrameCopyReceived, ← hn, ← hs, ← hz, ← hl, ← hp, ← hr, ← hy,
    if_neg (groupFrameCopy_concerned hg hu hid h16), if_pos hbad, Bool.not_true, Bool.false_eq_true, if_false]

/-- A copy whose payload check passes is taken, or refused where its sequence is not acceptable. -/
theorem groupFrameCopyReceived_sound (hv : leAt bytes 0 1 = 1) (hm : len = msgLen (leAt record 0 1)) (h0 : len ≠ 0)
    (hc : pcrc = (crc32 (bytes.take 12 ++ record)).toNat) :
    groupFrameCopyReceived b true bytes s = if (z.stlSender n).accepts sseq then z.validCopy n b sseq len pcrc record
      else (z.setStl (fun t => { t with seqErr := satInc 16 t.seqErr })).setBit Reg.stlStat 4 true := by
  have good : ¬(leAt bytes 0 1 ≠ 1 ∨ len ≠ msgLen (leAt record 0 1) ∨ len = 0 ∨
      pcrc ≠ (crc32 (bytes.take 12 ++ record)).toNat) := by
    rintro (h | h | h | h)
    · exact h hv
    · exact h hm
    · exact h0 h
    · exact h hc
  simp only [groupFrameCopyReceived, ← hn, ← hs, ← hz, ← hl, ← hp, ← hr,
    if_neg (groupFrameCopy_concerned hg hu hid h16), if_neg good, Bool.not_true, Bool.false_eq_true, if_false]
  cases (z.stlSender n).accepts sseq
  · rfl
  · rfl

end

end

/-- The first window whose closing edge has passed is closed (R258). -/
theorem skewWindowClose_past {w : StlWindow} {rest : List StlWindow} (hw : s.pastWindows n = w :: rest) :
    skewWindowClose n s = s.closeWindow n w := by
  simp only [skewWindowClose, hw]

end

/-- Settles O23: a copy with a sound payload, one that fails its payload check, one with a wrong FCS, then the window. -/
theorem groupFrameCopiesComplete : Obligations.GroupFrameCopiesComplete := by
  intro s h8
  have act := State.upd_on h8
  refine ⟨?_, ?_⟩
  · intro b bytes n sseq len pcrc record z hg hu hid hn h16 hz hs hl hp hr
    refine ⟨fun hv hm h0 hc => ⟨fun ha => ?_, fun ha => ?_⟩, fun y hbad hy => ?_, ?_⟩
    · exact (act _).trans (by rw [groupFrameCopyReceived_sound hg hu hid hn h16 hz hs hl hp hr hv hm h0 hc, if_pos ha])
    · exact (act _).trans (by
        rw [groupFrameCopyReceived_sound hg hu hid hn h16 hz hs hl hp hr hv hm h0 hc, if_neg (Bool.eq_false_iff.mp ha)])
    · exact (act _).trans (by rw [groupFrameCopyReceived_badPayload hg hu hid hn h16 hz hs hl hp hr hbad hy])
    · exact (act _).trans (by rw [groupFrameCopyReceived_badFcs hg hu hid hn h16 hz hs])
  · intro n w rest y hw hy
    exact (act _).trans (by rw [skewWindowClose_past hw, Dev.closeWindow, ← hy])

end Sys2Proof.Machine
end

section
/-! PROOFS. The ports of Swallowtail, what it keeps of a sender, group time and the frames sent for the host (11 R253,
R257, R260, R262, R264, 14 R321): what each row comes to when it is due. -/
namespace Sys2Proof.Machine

section
variable {s : Dev} {b : Bool}

/-! ## Ports and senders -/

/-- A failed port whose link has held for 10 ms carries frames again; its path of every sender stays failed until three
sequences in a row arrive (R253, R260). -/
theorem portRecovery_due (hl : (s.port b).link = true) (hf : (s.port b).failed = true) (ho : s.portOn b = true)
    (ht : (s.port b).upSince + 10000000 ≤ s.dt) :
    portRecovery b s = (List.range 16).foldl (fun (t : Dev) n => t.setSender n ((t.stlSender n).setPath b ⟨[], true⟩))
      (s.setPort b { s.port b with failed := false }) := by
  have due : ((s.port b).link && (s.port b).failed && s.portOn b &&
      decide ((s.port b).upSince + 10000000 ≤ s.dt)) = true := by
    simp [hl, hf, ho, ht]
  simp only [portRecovery, if_pos due, StlSender.setPath]

theorem senderForget_silent {n : Nat} (hk : (s.stlSender n).known = true)
    (ht : (s.stlSender n).lastValid + 3000000 ≤ s.dt) :
    senderForget n s = s.setSender n { s.stlSender n with
      known := false, windows := [], invalid := [], history := [] } := by
  simp [senderForget, hk, ht]

/-! ## Rates of the links -/

section
variable {y : Dev} {up full : Bool} {speed : Nat} (hy : y = s.portStatus b up full speed)
include hy

theorem portLinkChange_sameRate (hr : y.portRate b = s.portRate b) : portLinkChange b up full speed s = y := by
  simp only [portLinkChange, ← hy, if_pos hr]

section
variable (hr : y.portRate b ≠ s.portRate b)
include hr

/-- A changed rate that carries the duties admitted on the port ends the loss of its bandwidth (14 R321). -/
theorem portLinkChange_fits (hf : y.portFails y.tlg.duties b = false) :
    portLinkChange b up full speed s = y.setTlg (fun x => { x with bwLost := putBit x.bwLost (b2n b) false }) := by
  simp only [portLinkChange, ← hy, if_neg hr, hf, Bool.false_eq_true, if_false]

/-- One that does not carry them is recorded and reported, once. -/
theorem portLinkChange_short (hf : y.portFails y.tlg.duties b = true) (hb : tbit y.tlg.bwLost (b2n b) = false) :
    portLinkChange b up full speed s =
      (y.setTlg (fun x => { x with bwLost := putBit x.bwLost (b2n b) true })).event 2 6 6 0xFFFF y.dt
        [1 + (b2n b : Int), y.portRate b, y.portMbps b] := by
  simp only [portLinkChange, ← hy, if_neg hr, if_pos hf, hb, Bool.false_eq_true, if_false]

end

end

/-! ## Frames sent for the host -/

/-- A port whose bandwidth test has not failed keeps no account of its rate. -/
theorem Dev.payPort_unpaced (x : StlTx) (hb : s.tlg.bwLost = 0) : Dev.payPort x s b = s := by
  simp [Dev.payPort, Dev.portShort, tbit, hb]

section
variable {x : StlTx} (hp : x.ports &&& s.stlPorts ≠ 0)
include hp

/-- The frame whose turn it is goes out on those of its ports that may transmit, and completes its STL_TX. -/
theorem hostFrameStart_next {y : Dev} (hx : s.nextFrame = some x)
    (hy : y = [false, true].foldl (Dev.payPort x) (s.setStl (fun t => { t with tx := t.tx.erase x }))) :
    hostFrameStart s = (y.emit (.hostFrame (x.ports &&& s.stlPorts) x.bytes)).complete x.desc .done y.dt
      [lo64 y.dt, hi64 y.dt] := by
  simp only [hostFrameStart, hx, if_neg hp, ← hy]

/-- While no bandwidth test has failed, the oldest frame goes out (R264). -/
theorem hostFrameStart_oldest {rest : List StlTx} (htx : s.stl.tx = x :: rest) (hb : s.tlg.bwLost = 0) :
    hostFrameStart s = ((s.setStl (fun t => { t with tx := rest })).emit
      (.hostFrame (x.ports &&& s.stlPorts) x.bytes)).complete x.desc .done s.dt [lo64 s.dt, hi64 s.dt] := by
  have head : s.nextFrame = some x := by simp [Dev.nextFrame, hb, htx]
  have taken : s.setStl (fun t => { t with tx := t.tx.erase x }) = s.setStl (fun t => { t with tx := rest }) := by
    simp [Dev.setStl, htx]
  have unpaced : ∀ p, Dev.payPort x (s.setStl (fun t => { t with tx := rest })) p =
      s.setStl (fun t => { t with tx := rest }) := fun p => Dev.payPort_unpaced x hb
  rw [hostFrameStart_next hp head rfl]
  simp only [taken, List.foldl_cons, List.foldl_nil, unpaced, Dev.setStl_fields]

end

/-! ## Group time -/

/-- A grandmaster whose interval has passed sends Sync and Follow_Up on both ports (R262). -/
theorem ptpSyncSend_due (hg : s.stl.gm = true) (hd : s.syncDue = true) :
    ptpSyncSend s = ((s.setStl (fun t => { t with
      syncAt := some s.dt, ptpSeq := (s.stl.ptpSeq + 1) % 2 ^ 16 })).sendSync false s.stl.ptpSeq).sendSync true
        s.stl.ptpSeq := by
  simp [ptpSyncSend, hg, hd]

section
variable {seq sfd t : Nat} (hu : s.portUse b = true) (ht : t = sfd / 8 * 8 - s.rxLat b)
include hu

theorem ptpMessage_heard : ¬(!s.portUse b || (0 : Nat) != 0) = true := by
  simp [hu]

/-- The clock of another station, not too far away, is noted with its instant. -/
theorem ptpMessageReceived_announce {two : Bool} {v : PtpVector} (hv : v.source ≠ s.clockId) (hst : v.steps < 255) :
    ptpMessageReceived b 0 seq two (.announce v) sfd s =
      (s.modPtp b (fun p => { p with announced := some (v, s.time) })).ptpSelect := by
  have other : ¬(v.source = s.clockId ∨ 255 ≤ v.steps) := not_or.mpr ⟨hv, Nat.not_le.mpr hst⟩
  simp only [ptpMessageReceived, if_neg (ptpMessage_heard hu), if_neg other]

/-- A delay measurement ends: half of what the round trip took beyond the responder's stay (R262). -/
theorem ptpMessageReceived_delay {two : Bool} {src origin t1 t2 t4 : Nat} (hq : (s.ptp b).reqAt = some t1)
    (hr : (s.ptp b).resp = some (t2, t4)) (hs : (s.ptp b).reqSeq = seq) :
    ptpMessageReceived b 0 seq two (.pdelayRespFollowUp src origin) sfd s =
      (s.modPtp b (fun p => { p with
        reqAt := none, resp := none, delay := some ((((t4 : Int) - t1) - ((origin : Int) - t2)) / 2) })).ptpSelect := by
  simp only [ptpMessageReceived, if_neg (ptpMessage_heard hu), hq, hr, if_pos hs]

/-- The Follow_Up of an open synchronisation ends it with the offset from the grandmaster. -/
theorem ptpMessageReceived_followUp {two : Bool} {src origin r : Nat} {corr delay : Int}
    (hy : (s.ptp b).sync = some (src, seq, r)) (hd : (s.ptp b).delay = some delay) (hsl : s.stl.slave = some b) :
    ptpMessageReceived b 0 seq two (.followUp src origin corr) sfd s =
      (s.modPtp b (fun p => { p with sync := none })).synchronise ((r : Int) - (origin + corr + delay)) := by
  simp only [ptpMessageReceived, if_neg (ptpMessage_heard hu), hy, hd, true_and,
    if_pos hsl]

include ht

/-- A Sync in two steps of the clock that the selected port has announced opens a synchronisation. -/
theorem ptpMessageReceived_sync {src : Nat} (hsl : s.stl.slave = some b)
    (ha : (s.ptp b).announced.map (·.1.source) = some src) :
    ptpMessageReceived b 0 seq true (.sync src) sfd s = s.modPtp b (fun p => { p with sync := some (src, seq, t) }) := by
  have selected : (true && s.stl.slave == some b && ((s.ptp b).announced.map (·.1.source)) == some src) = true := by
    simp [hsl, ha]
  simp only [ptpMessageReceived, if_neg (ptpMessage_heard hu), if_pos selected, ← ht]

/-- A delay request is answered with its instant of reception, then with that of the answer. -/
theorem ptpMessageReceived_pdelayReq {two : Bool} {src : Nat} :
    ptpMessageReceived b 0 seq two (.pdelayReq src) sfd s =
      (s.ptpSend b (.pdelayResp s.clockId t) seq).ptpSend b (.pdelayRespFollowUp s.clockId (s.egress b)) seq := by
  simp only [ptpMessageReceived, if_neg (ptpMessage_heard hu), ← ht]

end

end

/-! ## The rows together -/

/-- Settles O22: the rows of the ports, of the senders, of the frames sent and of group time, row by row. -/
theorem portRowsComplete : Obligations.PortRowsComplete := by
  intro s h8
  have act := State.upd_on h8
  refine ⟨?_, ?_, ?_, ?_, ?_, ?_, ?_⟩
  · intro b hl hf ho ht
    exact (act _).trans (by rw [portRecovery_due hl hf ho ht])
  · intro x rest htx hp hb
    exact (act _).trans (by rw [hostFrameStart_oldest hp htx hb])
  · intro x y hx hp hy
    exact (act _).trans (by rw [hostFrameStart_next hp hx hy])
  · intro n hk ht
    exact (act _).trans (by rw [senderForget_silent hk ht])
  · intro hg hd
    exact (act _).trans (by rw [ptpSyncSend_due hg hd])
  · intro b seq sfd t hu ht
    refine ⟨?_, ?_, ?_, ?_, ?_⟩
    · intro two v hv hst
      exact (act _).trans (by rw [ptpMessageReceived_announce hu hv hst])
    · intro src hsl ha
      exact (act _).trans (by rw [ptpMessageReceived_sync hu ht hsl ha])
    · intro two src origin corr r delay hy hd hsl
      exact (act _).trans (by rw [ptpMessageReceived_followUp hu hy hd hsl])
    · intro two src
      exact (act _).trans (by rw [ptpMessageReceived_pdelayReq hu ht])
    · intro two src origin t1 t2 t4 hq hr hs
      exact (act _).trans (by rw [ptpMessageReceived_delay hu hq hr hs])
  · intro b up full speed y hy
    refine ⟨fun hr => ?_, fun hr hf => ?_, fun hr hf hb => ?_⟩
    · exact (act _).trans (by rw [portLinkChange_sameRate hy hr])
    · exact (act _).trans (by rw [portLinkChange_fits hy hr hf])
    · exact (act _).trans (by rw [portLinkChange_short hy hr hf hb])

end Sys2Proof.Machine
end

section
/-! PROOFS. Host frames (11 R264, R270): a frame received into the FIFO of its port, or dropped when that is full, the
commands that wait, the status, and a write of the configuration while Swallowtail is disabled. -/
namespace Sys2Proof.Machine

section
variable {s : Dev}

/-! ## Frames received -/

section
variable {b : Bool} {bytes : List Byte} {sfd : Nat} (hu : s.portUse b = true) (hh : s.hostTakes bytes = true)
include hu hh

theorem hostFrame_taken : ¬(!s.portUse b || !s.hostTakes bytes) = true := by
  simp [hu, hh]

theorem hostFrameReceived_room (hl : (if b then s.stl.fifoB else s.stl.fifoA).length < 32) :
    hostFrameReceived b bytes sfd s = (s.setStl (fun t => if b
      then { t with fifoB := t.fifoB ++ [⟨bytes, sfd⟩] } else { t with fifoA := t.fifoA ++ [⟨bytes, sfd⟩] })).feedRx := by
  simp only [hostFrameReceived, if_neg (hostFrame_taken hu hh), if_neg (Nat.not_le.mpr hl)]

/-- A frame that finds the FIFO full is counted; the first since the bit was cleared is reported. -/
theorem hostFrameReceived_full (hl : 32 ≤ (if b then s.stl.fifoB else s.stl.fifoA).length) {y : Dev}
    (hy : y = s.setStl (fun t =>
      if b then { t with dropsB := t.dropsB + 1 } else { t with dropsA := t.dropsA + 1 })) :
    hostFrameReceived b bytes sfd s = if s.bit Reg.stlStat 2 then y
      else (y.setBit Reg.stlStat 2 true).event 10 4 0x0109 0 s.dt
        [(b2n b : Int), if b then y.stl.dropsB else y.stl.dropsA] := by
  subst hy
  simp only [hostFrameReceived, if_neg (hostFrame_taken hu hh), if_pos hl]
  rfl

end

/-! ## Commands -/

/-- In D0 a command reads the memory its descriptor names (15 R330). -/
theorem Dev.reads_of_d0 {d : Desc} (h3 : s.hiu.d3hot = false) : s.reads d = true := by
  simp [Dev.reads, h3]

section
variable {d : Desc} (ho : d.object = 0)
include ho

/-- STL_TX of a frame that breaks no rule waits with the bytes it has fetched. -/
theorem stlTx_passed {frame : HostBytes} {bytes : List Byte} (hmin : 60 ≤ bitsOf (d.w 5) 10 0)
    (hmax : bitsOf (d.w 5) 10 0 ≤ 1518) (hp : bitsOf (d.w 5) 17 16 ≠ 0)
    (hb : bytes = (s.fetch d (d.w64 3) frame).take (bitsOf (d.w 5) 10 0)) (hr : reservedType bytes = false)
    (ha : s.addrOk d (d.w64 3) (bitsOf (d.w 5) 10 0) = true) :
    stlTx d frame s = s.setStl (fun t => { t with tx := t.tx ++ [⟨d, bytes, bitsOf (d.w 5) 17 16⟩] }) := by
  subst hb
  exact if_neg (by simp [ho, hmin, hmax, hp, hr, ha])

theorem stlRx_passed (ha : s.addrOk d (d.w64 3) 1536 = true) :
    stlRx d s = (s.setStl (fun t => { t with rxWait := t.rxWait ++ [d] })).feedRx :=
  if_neg (by simp [ho, ha])

theorem stlStatus_passed :
    stlStatus d s = s.complete d .done s.dt [s.stlStatWord, s.pathFailWord, wordI s.stl.offset, lo64 s.stl.gmId] :=
  if_neg (not_not_intro ho)

end

/-! ## Configuration -/

/-- While EN = 0 no field is held, and what is written stands; nothing waits to be flushed (R270). -/
theorem stlCfgWrite_disabled {v w : Word} {y : Dev} (he : bitOf (s.reg Reg.stlCfg) 0 = false)
    (hw : w = writeBits (s.reg Reg.stlCfg) v 0xF31 0)
    (hy : y = (s.setReg Reg.stlCfg w).portEnable false (bitOf (s.reg Reg.stlCfg) 4) (bitOf w 4)) :
    stlCfgWrite v s = y.portEnable true (bitOf (s.reg Reg.stlCfg) 5) (bitOf w 5) := by
  subst hw hy
  simp [stlCfgWrite, he]

end

/-! ## The rows together -/

/-- Settles O24: the frames received, the commands, then the configuration. -/
theorem hostFramesComplete : Obligations.HostFramesComplete := by
  intro s h8
  have act := State.upd_on h8
  refine ⟨?_, ?_, ?_, ?_, ?_, ?_⟩
  · intro b bytes sfd hu hh hl
    exact (act _).trans (by rw [hostFrameReceived_room hu hh hl])
  · intro b bytes sfd y hu hh hl hy
    refine ⟨fun hf => ?_, fun hf => ?_⟩
    · exact (act _).trans (by rw [hostFrameReceived_full hu hh hl hy, if_pos hf])
    · exact (act _).trans (by rw [hostFrameReceived_full hu hh hl hy, if_neg (Bool.eq_false_iff.mp hf)])
  · rintro d frame y bytes hs h3 ho rfl hmin hmax hp hb hr ha
    exact (State.updIn_on h8 hs (Dev.reads_of_d0 h3) frame _).trans (by rw [stlTx_passed ho hmin hmax hp hb hr ha])
  · intro d hs ho ha
    exact (State.cmd_on h8 hs _).trans (by rw [stlRx_passed ho ha])
  · intro d hs ho
    exact (State.cmd_on h8 hs _).trans (by rw [stlStatus_passed ho])
  · intro v w y h7 h3 he hw hy
    exact (State.upd_bar h7 h3 _).trans (by rw [stlCfgWrite_disabled he hw hy])

end Sys2Proof.Machine
end

section
/-! PROOFS. The CAN FD controllers (11 R265-R268, R270): a frame received, the end of an attempt, the recovery from
bus-off, the commands, and a write of the configuration while a controller is disabled. -/
namespace Sys2Proof.Machine

section
variable {s y : Dev} {n : Nat}

/-! ## Frames received -/

section
variable {f : CanFrame} {t r : Nat} {z : Dev} (hon : s.canOn n = true) (hst : (s.can n).state < 2)
  (hfd : f.fdf = true → s.bit (Reg.canCfg n) 1 = true)
  (hy : y = s.modCan n (fun c => { c with rec_ := min 255 r }))
  (hz : z = y.canState n (canErrState (y.can n).tec r))
include hon hst hfd

/-- A controller that is on and short of bus-off hears classic frames, and FD frames with FDEN. -/
theorem canFrame_heard :
    ¬(!s.canOn n || decide (2 ≤ (s.can n).state) || (f.fdf && !s.bit (Reg.canCfg n) 1)) = true := by
  have fd : (f.fdf && !s.bit (Reg.canCfg n) 1) = false := by
    cases h : f.fdf
    · rfl
    · simp [hfd h]
  simp [hon, hst, fd]

include hy hz

/-- A frame that no filter accepts leaves the error count and state (R265, R266). -/
theorem canFrameReceived_unmatched (hk : (List.range 32).find? (fun k => z.canMatch n k f) = none) :
    canFrameReceived n f t r s = z := by
  simp only [canFrameReceived, if_neg (canFrame_heard hon hst hfd), ← hy, ← hz, hk]

section
variable {k : Nat} (hk : (List.range 32).find? (fun k => z.canMatch n k f) = some k)
include hk

/-- One that a filter accepts enters the FIFO for the filter's queue pair (R266). -/
theorem canFrameReceived_kept {q : Nat}
    (hq : q = if bitOf (z.reg (Reg.canFid n k)) 31 then z.fld (Reg.canCfg n) 30 24 else z.fld (Reg.canCfg n) 22 16)
    (hl : (z.can n).rx.length < 64) :
    canFrameReceived n f t r s =
      ((z.modCan n (fun c => { c with rx := c.rx ++ [⟨f, k, q, t / 10 * 10⟩] })).fixtureFrame q f.id f.flags f.data
        (t / 10 * 10)).canFeed n := by
  simp only [canFrameReceived, if_neg (canFrame_heard hon hst hfd), ← hy, ← hz, hk, if_neg (Nat.not_le.mpr hl), ← hq]

/-- One that finds the FIFO full is dropped and counted; the first is reported. -/
theorem canFrameReceived_dropped (hl : 64 ≤ (z.can n).rx.length) {w : Dev}
    (hw : w = z.modCan n (fun c => { c with dropped := satInc 16 c.dropped })) :
    canFrameReceived n f t r s = if w.bit (Reg.canStat n) 20 then w
      else (w.setBit (Reg.canStat n) 20 true).event 10 4 0x0202 n w.dt [((w.can n).dropped : Int)] := by
  simp only [canFrameReceived, if_neg (canFrame_heard hon hst hfd), ← hy, ← hz, hk, if_pos hl, ← hw]

end

end

/-! ## Attempts -/

/-- The end of an attempt that no abort awaits: the error counts, then what becomes of the frame, then the state of the
error counters or bus-off (R267, R268). -/
theorem canTxAttemptEnd_noAbort {ok : Bool} {x : CanTx} {tec r : Nat} {g z : Dev}
    (hx : (s.can n).tx.find? (·.attempt.isSome) = some x) (ha : x.abort = none)
    (hy : y = s.modCan n (fun c => { c with tec := min 255 tec, rec_ := min 255 r }))
    (hg : g = y.modCan n (fun c => { c with tx := c.tx.filter (fun y => y.order != x.order) }))
    (hz : z = if ok then
        (g.hostWrite x.desc (x.desc.w64 3 + 8) (leBytes 8 y.dt)).complete x.desc .done (x.attempt.getD y.dt)
          [lo64 y.dt, hi64 y.dt]
      else if !y.canOn n then g.fail x.desc .flushed else if y.bit (Reg.canCfg n) 5 then g.fail x.desc .timeout
      else y.modCan n (fun c => { c with tx := c.tx.map (fun y => { y with attempt := none }) })) :
    canTxAttemptEnd n ok tec r s =
      if 255 < tec then z.canBusOff n else (z.canState n (canErrState tec r)).canStart n := by
  simp only [canTxAttemptEnd, hx, ha, ← hy, ← hg, Dev.completeOpt, Option.isSome_none, Bool.false_eq_true, if_false,
    ← hz]

/-- Bus-off recovery clears the counts and lets the controller transmit again (R268). -/
theorem canBusoffRecovery_waiting (hst : (s.can n).state = 3) :
    canBusoffRecovery n s = ((s.modCan n (fun c => { c with tec := 0, rec_ := 0 })).canState n 0).canStart n :=
  if_pos hst

/-! ## Commands -/

section
variable {d : Desc} (hc : s.canCheck d = none)
include hc

/-- CAN_TX of a frame the controller may send joins those that wait. -/
theorem canTx_passed {img : HostBytes} {f : CanFrame} (hn : n = bitsOf d.object 7 0)
    (hf : f = CanFrame.ofBytes (s.fetch d (d.w64 3) img)) (ha : s.addrOk d (d.w64 3) 80 = true)
    (hl : canLenOk f.fdf (leAt (s.fetch d (d.w64 3) img) 5 1) = true)
    (hfd : f.fdf = true → s.bit (Reg.canCfg n) 1 = true) (hbr : f.brs = true → s.bit (Reg.canCfg n) 2 = true)
    (hlisten : s.bit (Reg.canCfg n) 4 = false) :
    canTx d img s = (s.modCan n (fun c => { c with
      order := c.order + 1, tx := c.tx ++ [⟨d, f, c.order, none, none⟩] })).canStart n := by
  have fits : ¬((!s.addrOk d (d.w64 3) 80) = true ∨
      (!canLenOk f.fdf (leAt (s.fetch d (d.w64 3) img) 5 1)) = true ∨
      (f.fdf && !s.bit (Reg.canCfg n) 1) = true ∨ (f.brs && !s.bit (Reg.canCfg n) 2) = true) := by
    simpa [ha, hl] using And.intro hfd hbr
  simp only [canTx, hc, ← hf, ← hn, if_neg fits, hlisten, Bool.false_eq_true, if_false]

/-- CAN_RX joins the commands that wait for a frame of their queue pair, and is given one that has come. -/
theorem canRx_passed (hn : n = bitsOf d.object 7 0) (ha : s.addrOk d (d.w64 3) 80 = true) :
    canRx d s = (s.modCan n (fun c => { c with rxWait := c.rxWait ++ [d] })).canFeed n := by
  simp only [canRx, hc, ha, ← hn, Bool.not_true, Bool.false_eq_true, if_false]

/-- CAN_RECOVER starts the recovery of a controller that is bus-off, and answers with the error counts. -/
theorem canRecover_passed (hn : n = bitsOf d.object 7 0)
    (hy : y = if (s.can n).state = 2 then s.canState n 3 else s) :
    canRecover d s = y.complete d .done s.dt [wordN (min 255 (s.can n).tec), wordN (s.can n).rec_] := by
  simp only [canRecover, hc, ← hn, ← hy]

end

/-! ## Configuration -/

/-- While EN = 0 no field is held; a controller that is not bus-off starts what waits once it is enabled (R270). -/
theorem canCfgWrite_disabled {v : Word} (hn : n < s.cans) (he : bitOf (s.reg (Reg.canCfg n)) 0 = false)
    (hst : (s.can n).state ≠ 2) :
    canCfgWrite n v s =
      (s.setReg (Reg.canCfg n) (writeBits (s.reg (Reg.canCfg n)) v 0x7F7FFF3F 0)).canStart n := by
  have kept : ∀ w, ((s.setReg (Reg.canCfg n) w).can n).state ≠ 2 := fun _ => hst
  simp [canCfgWrite, Nat.not_le.mpr hn, he, kept]

end

end Sys2Proof.Machine
end

section
/-! PROOFS. The SPI sensor ports (11 R269): a period and its transactions, the commands, and a write of the
configuration that starts a port. -/
namespace Sys2Proof.Machine

section
variable {s : Dev} {m : Nat}

/-! ## Periods -/

section
variable {y : Dev} (hr : (s.spi m).run = true) (hp : (s.spi m).period = none) (ha : (s.spi m).stopAsked = false)
  (hd : s.spiDue m = true)
  (hy : y = (s.modSpi m (fun x => { x with program := x.next, staged := none, period := some s.dt })).emit (.spiRun m
    (s.fld (Reg.spiCfg m) 2 1) (((s.spi m).next.take (s.fld (Reg.spiCfg m) 27 24)).map (fun t => (t.cs, t.bytes)))))
include hr hp ha hd

theorem spiPeriod_due :
    ¬(!(s.spi m).run || (s.spi m).period.isSome || (s.spi m).stopAsked || !s.spiDue m) = true := by
  simp [hr, hp, ha, hd]

include hy

theorem spiPeriod_unstaged (hs : (s.spi m).staged = none) : spiPeriod m s = y := by
  simp only [spiPeriod, if_neg (spiPeriod_due hr hp ha hd), hs]
  exact hy.symm

/-- The period that begins with a staged program completes its SPI_PROG. -/
theorem spiPeriod_staged {p : List SpiTxn} {d : Desc} (hs : (s.spi m).staged = some (p, d)) :
    spiPeriod m s = y.complete d .done y.dt [] := by
  subst hy
  simp only [spiPeriod, if_neg (spiPeriod_due hr hp ha hd), hs]
  rfl

end

theorem spiTransactionsComplete_due {bytes : List Byte} {t : Nat} {l : List SpiTxn} (hp : (s.spi m).period = some t)
    (hl : l = (s.spi m).program.take (s.fld (Reg.spiCfg m) 27 24))
    (ht : t + spiTime (s.fld (Reg.spiCfg m) 15 8) l ≤ s.dt) :
    spiTransactionsComplete m bytes s = s.modSpi m (fun x => { x with
      result := bytes.take (l.foldl (fun a x => a + x.bytes.length) 0), sampleAt := t + 100, period := none,
      run := x.run && !x.stopAsked, stopAsked := false }) := by
  simp only [spiTransactionsComplete, hp, ← hl, if_neg (Nat.not_lt.mpr ht)]

/-! ## Commands -/

section
variable {d : Desc} (hm : m = d.object.toNat) (h2 : m < 2)
include hm h2

/-- SPI_PROG of a program that is well formed and fits its period is staged, where none is. -/
theorem spiProg_passed {img : HostBytes} {p : List SpiTxn}
    (hp : spiParse (bitsOf (s.reg (Reg.spiCfg m)) 27 24) (s.fetch d (d.w64 3) img) = some p)
    (ha : s.addrOk d (d.w64 3) (36 * bitsOf (s.reg (Reg.spiCfg m)) 27 24) = true)
    (hf : spiFits (s.reg (Reg.spiCfg m)) p = true) (hs : (s.spi m).staged = none) :
    spiProg d img s = s.modSpi m (fun x => { x with staged := some (p, d) }) := by
  simp only [spiProg, ← hm, if_neg (Nat.not_le.mpr h2), hp, ha, hf, hs, Bool.not_true, Option.isSome_none,
    Bool.false_eq_true, if_false]

/-- SPI_READ writes the bytes of the last period out and answers with their sample instant. -/
theorem spiRead_passed {x : Spi} (hx : x = s.spi m) (ha : s.addrOk d (d.w64 3) x.result.length = true) :
    spiRead d s = (s.hostWrite d (d.w64 3) x.result).complete d .done s.dt
      [lo64 x.sampleAt, hi64 x.sampleAt, wordN x.result.length] := by
  subst hm hx
  exact if_neg (by simp [h2, ha])

end

/-! ## Configuration -/

/-- A write that sets EN starts the port where the program it will run fits. -/
theorem spiCfgWrite_starts {v w : Word} (he : bitOf (s.reg (Reg.spiCfg m)) 0 = false)
    (hw : w = writeBits (s.reg (Reg.spiCfg m)) v 0xF3FFF07 0) (hen : bitOf w 0 = true)
    (hf : spiFits w (s.spi m).next = true) :
    spiCfgWrite m v s =
      (s.setReg (Reg.spiCfg m) w).modSpi m (fun x => { x with run := true, stopAsked := false }) := by
  simp [spiCfgWrite, ← hw, he, hen, hf]

end

/-! ## The rows together -/

/-- Settles O25: the rows of the CAN controllers, then those of the SPI ports, row by row. -/
theorem canSpiRowsComplete : Obligations.CanSpiRowsComplete := by
  refine ⟨fun s h8 => ⟨?_, ?_, ?_, ?_, ?_, ?_⟩, fun s h8 => ⟨?_, ?_, ?_, ?_, ?_⟩⟩
  · intro n f t r y z hon hst hfd hy hz
    have act := State.upd_on h8 (canFrameReceived n f t r)
    refine ⟨fun hk => ?_, fun k q hk hq => ⟨fun hl => ?_, fun hl w hw => ?_⟩⟩
    · exact act.trans (by rw [canFrameReceived_unmatched hon hst hfd hy hz hk])
    · exact act.trans (by rw [canFrameReceived_kept hon hst hfd hy hz hk hq hl])
    · exact act.trans (by rw [canFrameReceived_dropped hon hst hfd hy hz hk hl hw])
  · intro n ok x tec r y g z hx ha hy hg hz
    exact (State.upd_on h8 _).trans (by rw [canTxAttemptEnd_noAbort hx ha hy hg hz])
  · intro n hst
    exact (State.upd_on h8 _).trans (by rw [canBusoffRecovery_waiting hst])
  · rintro d img y f hs h3 rfl hc hf ha hl hfd hbr hlisten
    exact (State.updIn_on h8 hs (Dev.reads_of_d0 h3) img _).trans (by rw [canTx_passed hc rfl hf ha hl hfd hbr hlisten])
  · intro d hs hc
    refine ⟨fun ha => ?_, fun y hy => ?_⟩
    · exact (State.cmd_on h8 hs _).trans (by rw [canRx_passed hc rfl ha])
    · exact (State.cmd_on h8 hs _).trans (by rw [canRecover_passed hc rfl hy])
  · intro n v h7 h3 hn he hst
    exact (State.upd_bar h7 h3 _).trans (by rw [canCfgWrite_disabled hn he hst])
  · intro m hr hp ha hd y hy
    have act := State.upd_on h8 (spiPeriod m)
    refine ⟨fun hs => ?_, fun p d hs => ?_⟩
    · exact act.trans (by rw [spiPeriod_unstaged hr hp ha hd hy hs])
    · exact act.trans (by rw [spiPeriod_staged hr hp ha hd hy hs])
  · intro m bytes t hp ht
    exact (State.upd_on h8 _).trans (by rw [spiTransactionsComplete_due hp rfl ht])
  · rintro d img y p m hs h3 hm h2 rfl hp ha hf hst
    exact (State.updIn_on h8 hs (Dev.reads_of_d0 h3) img _).trans (by rw [spiProg_passed hm h2 hp ha hf hst])
  · intro d x hs h2 hx ha
    exact (State.cmd_on h8 hs _).trans (by rw [spiRead_passed rfl h2 hx ha])
  · intro m v w h7 h3 he hw hen hf
    exact (State.upd_bar h7 h3 _).trans (by rw [spiCfgWrite_starts he hw hen hf])

end Sys2Proof.Machine
end

section
/-! PROOFS. The Voler arithmetic (12 R284, R285, R287; 13 Table 13-3). An ALU result goes to one data register and may
set S; a sum goes to one accumulator and may set its V. A sticky flag is set by its condition and kept otherwise, and
setting one leaves every register. -/
namespace Sys2Proof.Machine

/-! ## Flags of ESR -/

/-- A bit that is set reads 1: its weight is added where it was 0, and taken away and added where it was 1. -/
theorem bitOf_setBitsOf_one (w : Word) {i : Nat} (hi : i < 32) : bitOf (setBitsOf w i i 1) i = true := by
  have width : i + 1 - i = 1 := by omega
  have odd : (w.toNat - w.toNat / 2 ^ i % 2 * 2 ^ i + 2 ^ i) / 2 ^ i % 2 = 1 := by
    obtain clear | held := Nat.mod_two_eq_zero_or_one (w.toNat / 2 ^ i)
    · rw [clear, Nat.zero_mul, Nat.sub_zero, Nat.add_div_right _ (Nat.two_pow_pos i), Nat.add_mod, clear]
    · have pos : 0 < w.toNat / 2 ^ i := Nat.pos_of_ne_zero fun zero => by simp [zero] at held
      have le : 2 ^ i ≤ w.toNat := (Nat.div_pos_iff.mp pos).2
      rw [held, Nat.one_mul, Nat.sub_add_cancel le, held]
  simp only [bitOf, setBitsOf, natBits, width, BitVec.getLsbD_ofNat, hi, Nat.testBit_eq_decide_div_mod_eq]
  simpa using odd

namespace Bank

variable (x : Bank) {i : Nat} (c : Bool)

/-- Setting a flag leaves every register of the bank. -/
@[simp] theorem stick_registers :
    (x.stick i c).d = x.d ∧ (x.stick i c).a = x.a ∧ (x.stick i c).p = x.p ∧ (x.stick i c).n = x.n ∧
    (x.stick i c).m = x.m ∧ (x.stick i c).b = x.b := by
  cases c <;> exact ⟨rfl, rfl, rfl, rfl, rfl, rfl⟩

/-- A sticky flag is never cleared by the condition that sets it. -/
theorem flag_stick_same (hi : i < 32) : (x.stick i c).flag i = (x.flag i || c) := by
  cases c with
  | false => exact (Bool.or_false _).symm
  | true => exact (bitOf_setBitsOf_one x.esr hi).trans (Bool.or_true _).symm

/-! ## Registers -/

@[simp] theorem dReg_stick (y : Fin 16) : (x.stick i c).dReg y = x.dReg y := by
  simp [dReg]

@[simp] theorem acc_stick (y : Fin 4) : (x.stick i c).acc y = x.acc y := by
  simp [acc]

@[simp] theorem dReg_setD_same (d : Fin 16) (v : BitVec 24) : (x.setD d v).dReg d = v := by
  simp [dReg, setD]

theorem dReg_setD_other {d y : Fin 16} (h : y ≠ d) (v : BitVec 24) : (x.setD d v).dReg y = x.dReg y :=
  kget_kput_other _ _ (Fin.val_ne_of_ne h) v

@[simp] theorem acc_setAcc_same (a : Fin 4) (v : BitVec 56) : (x.setAcc a v).acc a = v := by
  simp [acc, setAcc]

theorem acc_setAcc_other {a y : Fin 4} (h : y ≠ a) (v : BitVec 56) : (x.setAcc a v).acc y = x.acc y :=
  kget_kput_other _ _ (Fin.val_ne_of_ne h) v

/-! ## ALU results and sums -/

/-- An ALU result goes to its register, clamped or wrapped; a clamp sets S, and no other register changes
(R287). -/
theorem alu_spec (d : Fin 16) (sat : Bool) (v : Int) :
    (x.alu d sat v).dReg d = (if sat then BitVec.ofInt 24 (satS 24 v) else BitVec.ofInt 24 v) ∧
    (∀ y : Fin 16, y ≠ d → (x.alu d sat v).dReg y = x.dReg y) ∧
    (x.alu d sat v).flag 13 = (x.flag 13 || (sat && satS 24 v != v)) ∧
    (x.alu d sat v).a = x.a ∧ (x.alu d sat v).p = x.p ∧ (x.alu d sat v).n = x.n ∧ (x.alu d sat v).m = x.m ∧
    (x.alu d sat v).b = x.b := by
  cases sat with
  | false =>
    have other (y : Fin 16) (h : y ≠ d) := dReg_setD_other x h (BitVec.ofInt 24 v)
    exact ⟨dReg_setD_same .., other, (Bool.or_false _).symm, rfl, rfl, rfl, rfl, rfl⟩
  | true =>
    have other (y : Fin 16) (h : y ≠ d) := dReg_setD_other x h (BitVec.ofInt 24 (satS 24 v))
    obtain ⟨-, ha, hp, hn, hm, hb⟩ :=
      stick_registers (x.setD d (BitVec.ofInt 24 (satS 24 v))) (i := 13) (satS 24 v != v)
    refine ⟨by simp [alu], fun y h => (dReg_stick ..).trans (other y h), flag_stick_same _ _ (by decide), ?_⟩
    exact ⟨ha, hp, hn, hm, hb⟩

/-- A sum goes to its accumulator, clamped where saturation is on; one outside int56 sets V of that accumulator, and
every other accumulator and data register stays (R284, R285). -/
theorem accSum_spec (a : Fin 4) (v : Int) :
    (x.accSum a v).acc a = BitVec.ofInt 56 (if (v < -(2 ^ 55) ∨ 2 ^ 55 - 1 < v) ∧ x.flag 0 = true
      then clampI (-(2 ^ 55)) (2 ^ 55 - 1) v else v) ∧
    (x.accSum a v).flag (8 + a) = (x.flag (8 + a) || decide (v < -(2 ^ 55) ∨ 2 ^ 55 - 1 < v)) ∧
    (∀ y : Fin 4, y ≠ a → (x.accSum a v).acc y = x.acc y) ∧ (x.accSum a v).d = x.d := by
  refine ⟨?_, flag_stick_same _ _ (by omega), fun y h => (acc_stick ..).trans (acc_setAcc_other x h _), ?_⟩
  · simp [accSum]
  · exact (stick_registers ..).1

end Bank

/-- Settles O29: every one of the six instructions ends in the same ALU operation on its exact result. -/
theorem volerAluResults : Obligations.VolerAluResults := by
  intro c d x t sat k imm i v h
  have run : c.exec i = some { c with x := c.x.alu d sat v } := by
    rcases h with ⟨rfl, rfl⟩ | ⟨rfl, rfl⟩ | ⟨rfl, rfl⟩ | ⟨rfl, rfl⟩ | ⟨rfl, rfl⟩ | ⟨rfl, rfl⟩ <;> rfl
  obtain ⟨result, others, clamped, ha, hp, hn, hm, hb⟩ := c.x.alu_spec d sat v
  exact ⟨_, run, result, others, clamped, ha, hp, hn, hm, hb, rfl⟩

/-- Settles O30: every one of the three instructions ends in the same accumulation of its exact sum. -/
theorem volerAccumulates : Obligations.VolerAccumulates := by
  intro c a b sub clr x t p q i v h
  have run : c.exec i = some { c with x := c.x.accSum a v } := by
    rcases h with ⟨rfl, rfl⟩ | ⟨rfl, rfl⟩ | ⟨rfl, rfl⟩ <;> rfl
  obtain ⟨sum, overflow, others, data⟩ := c.x.accSum_spec a v
  exact ⟨_, run, sum, overflow, others, data, rfl⟩

end Sys2Proof.Machine
end

section
/-! PROOFS. The engine rows (12 R275, R277-R281, 14 R314, R326): the release of a duty, the arbiter's copies, deadlines
and re-executions, faults and overruns; and the engine and cluster commands (12 R292, R293). -/
namespace Sys2Proof.Machine

section
variable {s : Dev}

/-! ## Release -/

/-- At its release instant a duty's last period is closed, its inputs and the state of its first copy are read, and both
copies are released (R275, R278, 14 R314). -/
theorem dutyRelease_due {id : Nat} {d : Duty} {k : Kernel} {y : Dev} {input state : List Word} {src : Copy}
    (hd : s.duty id = some d) (hk : s.dutyKernel d.desc = some k) (hr : s.pmu.suspended = false)
    (hn : s.releasesNow d = true) (hs : (d.primary <|> d.standby) = some src) (hy : y = s.closePeriod id)
    (hi : input = y.inputWords d.desc.inAddr k.inLen)
    (ht : state = y.areaWords (src.moved.getD (src.engine, src.base)).1
      ((src.moved.getD (src.engine, src.base)).2 + k.stateOfs) k.stateLen) :
    dutyRelease id s = (((y.setPeriod id (some
      ⟨d.desc, y.dt, y.dt + d.desc.deadline, input, state, none, none, false, none⟩)).releaseCopy d k input
        false).releaseCopy d k input true).setTlg (fun x => { x with
          duties := kput none x.duties id (some d.settled) }) := by
  subst hy hi ht
  cases hp : d.primary with
  | none =>
    have hb : d.standby = some src := by simpa [hp] using hs
    simp only [dutyRelease, hd, hk, hr, hn, hp, hb]
    rfl
  | some c =>
    obtain rfl : c = src := by simpa [hp] using hs
    simp only [dutyRelease, hd, hk, hr, hn, hp]
    rfl

/-! ## The arbiter's copies -/

section
variable {c : CopyOut} {t : Dev} (hc : nextCopy s.eng.committed = some c)
  (ht : t = { s with eng := { s.eng with committed := s.eng.committed.erase c } })
include hc ht

/-- A copy of another period, or past its deadline, is dropped (R279). -/
theorem arbiterCopyCommit_invalid (hv : s.copyValid c = false) : arbiterCopyCommit s = t := by
  simp [arbiterCopyCommit, hc, hv, ht]

theorem arbiterCopyCommit_valid (hv : s.copyValid c = true) : arbiterCopyCommit s = t.takeCopy c := by
  simp [arbiterCopyCommit, hc, hv, ht]

end

section
variable {c : CopyOut} {p : Period} (hp : s.period c.job.desc.id = some p)
include hp

/-- The first valid copy of a period is forwarded (R279). -/
theorem Dev.takeCopy_first (hf : p.first = none) :
    s.takeCopy c = (s.setPeriod c.job.desc.id (some { p with first := some c })).forward c := by
  simp only [Dev.takeCopy, hp, hf]

variable {f : CopyOut} (hf : p.first = some f)
include hf

/-- An equal second copy changes nothing (R280). -/
theorem Dev.takeCopy_equal (ho : f.out = c.out) : s.takeCopy c = s := by
  simp only [Dev.takeCopy, hp, hf, if_pos ho]

/-- A different one counts a mismatch and waits for the re-execution (R280, R281). -/
theorem Dev.takeCopy_differs (ho : f.out ≠ c.out) :
    s.takeCopy c = Dev.setPeriod { s with eng := { s.eng with mismatches := satInc 16 s.eng.mismatches } }
      c.job.desc.id (some { p with differ := some c }) := by
  simp only [Dev.takeCopy, hp, hf, if_neg ho]

end

/-! ## Deadlines -/

section
variable {id : Nat} {p : Period} {y : Dev} (hp : s.period id = some p) (hc : p.closed = false) (ht : p.deadline ≤ s.dt)
  (hy : y = s.setPeriod id (some { p with closed := true }))
include hp hc ht hy

/-- A deadline closes its period; one without a valid copy, taken or yet to be taken, counts NO_OUT
(R279, Table 12-3). -/
theorem dutyDeadline_due :
    dutyDeadline id s =
      if p.first.isSome || y.eng.committed.any (fun c => c.job.desc.id == id && y.copyValid c) then y
      else (Dev.event { y with eng := { y.eng with noOut := satInc 32 y.eng.noOut } } 12 8 4 0xFF p.deadline
        [(id : Int), p.release % 2 ^ 32]).chrInc 9 84 := by
  simp [dutyDeadline, hp, hc, Nat.not_lt.mpr ht, ← hy]

end

/-! ## Re-execution -/

/-- The re-executed output decides: where it is equal to the standby's the primary is suspect, where to the primary's
the standby, and otherwise both (R281). -/
theorem reexecutionComplete_decides {id k : Nat} {out state : List Word} {p : Period} {f g a b : CopyOut} {r : Rerun}
    {y w z : Dev} (hp : s.period id = some p) (hf : p.first = some f) (hg : p.differ = some g)
    (hr : s.reexecute p f.job out state = some r) (ha : a = if f.job.standby then g else f)
    (hb : b = if f.job.standby then f else g) (hk : k = if r.out = b.out then 1 else if r.out = a.out then 2 else 3)
    (hy : y = (s.keepRerun f.job.desc.level1 r).setPeriod id (some { p with differ := none }))
    (hw : w = { y with eng := { y.eng with reexecs := satInc 16 y.eng.reexecs } })
    (hz : z = (w.event 12 6 2 0xFF y.dt [(id : Int), a.engine, b.engine, (k : Nat)]).chrInc 9 (79 + k)) :
    reexecutionComplete id out state s = if k = 1 then z.suspect a r true
      else (if k = 2 then z else z.suspect a r true).suspect b r (k == 2) := by
  subst hy hw hz
  simp only [reexecutionComplete, hp, hf, hg, hr, ← ha, ← hb, ← hk]
  by_cases h1 : k = 1
  · simp only [h1]
    rfl
  · simp only [if_neg h1]

/-! ## Faults -/

/-- An engine in service fail-stops on causes 1 to 4 (R277). -/
theorem engFault_inService {e cause addr : Nat} (h1 : 1 ≤ cause) (h4 : cause ≤ 4) (hs : s.inService e = true) :
    engFault e cause addr s = s.engFail e cause addr := by
  have known : ¬(cause < 1 ∨ 5 < cause) := by omega
  have single : cause ≠ 5 := by omega
  simp only [engFault, if_neg known, if_neg single, hs, if_true]

/-- Cause 5 stops every engine of the cluster that is in service (R277). -/
theorem engFault_cluster (e addr : Nat) :
    engFault e 5 addr s = (List.range 4).foldl (fun (t : Dev) i =>
      if t.inService (4 * (e / 4) + i) then t.engFail (4 * (e / 4) + i) 5 addr else t) s := rfl

/-! ## Overruns -/

/-- A job that has run its cost is counted, for its duty and in all, and reported; a critical one of the present period
leaves its state to the valid copy's; and it is stopped (14 R326). -/
theorem tlgOverrun_due {e n : Nat} {l : Bool} {j : Job} {t u : Dev} (hj : (s.engine e).run l = some j)
    (hc : j.cost ≤ (s.engine e).ranFor l j s.dt) (hn : n = satInc 32 (((s.duty j.desc.id).map (·.overruns)).getD 0))
    (ht : t = ((s.setTlg (fun x => { x with
      duties := (match s.duty j.desc.id with
        | some d => kput none x.duties j.desc.id (some { d with overruns := n })
        | none => x.duties)
      overruns := satInc 32 x.overruns })).event 2 6 3 j.desc.id s.dt
        [(e : Int), j.release % 2 ^ 32, (n : Nat)]).chrInc 9 96)
    (hu : u = (match t.period j.desc.id with
      | some p => if j.desc.critical && p.release == j.release
        then t.setPeriod j.desc.id (some { p with overran := some (e, j.base + j.kernel.stateOfs) }) else t
      | none => t)) :
    tlgOverrun e l s = u.endJob e l := by
  subst ht hu
  cases hd : s.duty j.desc.id with
  | none =>
    simp only [tlgOverrun, hj, if_neg (Nat.not_lt.mpr hc), hd, hn]
    rfl
  | some d =>
    simp only [tlgOverrun, hj, if_neg (Nat.not_lt.mpr hc), hd, hn]
    rfl

/-! ## Commands -/

theorem engStatus_passed {d : Desc} (h0 : d.object = 0) :
    engStatus d s = s.complete d .done s.dt [s.engStat, s.engClusterWord, s.engArb, s.engEcc] :=
  if_neg (not_not_intro h0)

section
variable {d : Desc} {c : Nat} (hc : c = bitsOf d.object 1 0) (hn : c < s.clusters) (h0 : bitsOf d.object 31 2 = 0)
include hc hn h0

/-- A cluster that is down is DOWN at once. -/
theorem engClusterDown_down (hu : s.clusterUp c = false) : engClusterDown d s = s.complete d .done s.dt [0] := by
  simp [engClusterDown, ← hc, Nat.not_le.mpr hn, h0, hu]

/-- The last one of clusters 0 and 1 stays up (R292, R61). -/
theorem engClusterDown_last (hu : s.clusterUp c = true) (h2 : c < 2) (ho : s.clusterUp (1 - c) = false) :
    engClusterDown d s = s.fail d .refusedLedger := by
  simp [engClusterDown, ← hc, Nat.not_le.mpr hn, h0, hu, h2, ho]

/-- A cluster that is up, and not the last of clusters 0 and 1, asks the ledger. -/
theorem engClusterDown_asks (hu : s.clusterUp c = true) (ho : c < 2 → s.clusterUp (1 - c) = true)
    (hb : s.tlgBusy = false) (hf : s.eng.falling = none) :
    engClusterDown d s = s.tlgAsk (.clusterDown c) d := by
  simp +contextual [engClusterDown, ← hc, Nat.not_le.mpr hn, h0, hu, ho, hb, hf]

variable (hr : kget none s.eng.rising c = none)
include hr

/-- A cluster that is up is UP at once. -/
theorem engClusterUp_up (hu : s.clusterUp c = true) :
    engClusterUp d s = s.complete d .done s.dt [wordN (s.inServiceOf c)] := by
  simp [engClusterUp, ← hc, Nat.not_le.mpr hn, h0, hr, hu]

/-- One that is down rises. -/
theorem engClusterUp_down (hu : s.clusterUp c = false) :
    engClusterUp d s = { s with eng := { s.eng with rising := kput none s.eng.rising c (some (some d)) } } := by
  simp [engClusterUp, ← hc, Nat.not_le.mpr hn, h0, hr, hu]

end

/-- CLUSTER_UP_COMPLETE brings the engines of a rising cluster into service, asks the ledger to place again what is lost,
and completes the command that the cluster rises for (R292). -/
theorem clusterUpComplete_rising {c : Nat} {d : Option Desc} {y : Dev} (hr : kget none s.eng.rising c = some d)
    (hy : y = { s with eng := { s.eng with rising := kput none s.eng.rising c none } }) :
    clusterUpComplete c s = (((y.clusterOn c).event 12 2 5 0xFF s.dt [(c : Int), 1, 0]).setTlg (fun x => { x with
      replace := true })).completeOpt d .done (y.clusterOn c).dt [wordN 4] := by
  simp only [clusterUpComplete, hr, ← hy, Dev.event_dt]

/-! ## Restart -/

section
variable {d : Desc} {test e : Nat} {x : Engine} (he : e = bitsOf d.object 3 0) (hn : e < s.engines)
  (h0 : bitsOf d.object 31 4 = 0) (hx : x = s.engine e)
include he hn h0 hx

theorem engRestart_inService (h1 : x.state = 1) : engRestart d test s = s.fail d .reconfigBusy := by
  simp [engRestart, ← he, Nat.not_le.mpr hn, h0, ← hx, h1]

variable (hs : x.state = 2 ∨ x.state = 3)
include hs

theorem engRestart_passed (ht : test = 0) :
    engRestart d test s =
      ((s.setEngine e x.cleared).setTlg (fun x => { x with replace := true })).complete d .done s.dt [0] := by
  obtain h | h := hs <;> simp [engRestart, ← he, Nat.not_le.mpr hn, h0, ← hx, h, ht]

theorem engRestart_failed (ht : test ≠ 0) :
    engRestart d test s =
      (s.setEngine e { x with mem := [], code0 := [], code1 := [] }).complete d .hwFault s.dt [wordN test] := by
  obtain h | h := hs <;> simp [engRestart, ← he, Nat.not_le.mpr hn, h0, ← hx, h, ht]

end

end

/-! ## The rows together -/

/-- Settles O26: the engine rows, then the engine and cluster commands, row by row. -/
theorem engineRowsComplete : Obligations.EngineRowsComplete := by
  refine ⟨fun s => ⟨?_, ?_, ?_, ?_, ?_, ?_⟩, fun s => ⟨?_, ?_, ?_⟩⟩
  · intro id d k y input src state h6 hd hk hr hn hs hy hi ht
    exact (State.upd_on h6 _).trans (by rw [dutyRelease_due hd hk hr hn hs hy hi ht])
  · intro c t hc ht
    have act := State.upd_eq s arbiterCopyCommit
    refine ⟨fun hv => ?_, fun p hv hp => ⟨fun hf => ?_, fun f hf ho => ?_, fun f hf ho => ?_⟩⟩
    · exact act.trans (by rw [arbiterCopyCommit_invalid hc ht hv])
    · exact act.trans (by rw [arbiterCopyCommit_valid hc ht hv, Dev.takeCopy_first hp hf])
    · exact act.trans (by rw [arbiterCopyCommit_valid hc ht hv, Dev.takeCopy_equal hp hf ho])
    · exact act.trans (by rw [arbiterCopyCommit_valid hc ht hv, Dev.takeCopy_differs hp hf ho])
  · intro id p y hp hc ht hy
    have act := (State.upd_eq s (dutyDeadline id)).trans (by rw [dutyDeadline_due hp hc ht hy])
    refine ⟨fun hf => ?_, fun hf hv => ?_, fun hf hv => ?_⟩
    · exact act.trans (by simp [hf])
    · exact act.trans (by simp [hf, hv])
    · exact act.trans (by simp [hf, hv])
  · intro id out state p f g r a b k y w z hp hf hg hr ha hb hk hy hw hz
    exact (State.upd_eq s _).trans (by rw [reexecutionComplete_decides hp hf hg hr ha hb hk hy hw hz])
  · intro e cause addr
    refine ⟨fun h1 h4 hs => ?_, ?_⟩
    · exact (State.upd_eq s _).trans (by rw [engFault_inService h1 h4 hs])
    · exact (State.upd_eq s _).trans (by rw [engFault_cluster])
  · intro e l j n t u hj hc hn ht hu
    exact (State.upd_eq s _).trans (by rw [tlgOverrun_due hj hc hn ht hu])
  · intro d hs h0
    exact (State.cmd_sent hs _).trans (by rw [State.upd_eq, engStatus_passed h0])
  · intro d c hs hc hn h0
    have down := State.cmd_sent hs (engClusterDown d)
    have up := State.cmd_sent hs (engClusterUp d)
    refine ⟨fun hu => ?_, fun hu ho hb hf => ?_, fun hu h2 ho => ?_, fun hr hu => ?_, fun hr hu => ?_⟩
    · exact down.trans (by rw [State.upd_eq, engClusterDown_down hc hn h0 hu])
    · exact down.trans (by rw [State.upd_eq, engClusterDown_asks hc hn h0 hu ho hb hf])
    · exact down.trans (by rw [State.upd_eq, engClusterDown_last hc hn h0 hu h2 ho])
    · exact up.trans (by rw [State.upd_eq, engClusterUp_up hc hn h0 hr hu])
    · exact up.trans (by rw [State.upd_eq, engClusterUp_down hc hn h0 hr hu])
  · intro c d y hr hy
    exact (State.upd_eq s _).trans (by rw [clusterUpComplete_rising hr hy])

/-- Settles O27: the restart that passes its test, the one that fails it, and that of an engine in service. -/
theorem engineRestartRule : Obligations.EngineRestartRule := by
  intro s d test e x hs he hn h0 hx
  have act := State.cmd_sent hs (engRestart d test)
  refine ⟨fun ho ht => ?_, fun ho ht => ?_, fun h1 => ?_⟩
  · exact act.trans (by rw [State.upd_eq, engRestart_passed he hn h0 hx ho ht, Engine.cleared])
  · exact act.trans (by rw [State.upd_eq, engRestart_failed he hn h0 hx ho ht])
  · exact act.trans (by rw [State.upd_eq, engRestart_inService he hn h0 hx h1])

end Sys2Proof.Machine
end


section
/-! PROOFS. The Voler words (13 R301, R308, Tables 13-2 to 13-4). A code word is the sum of its operation code and its
fields, which leave room for one another: what is read at a field's place is the field, and a word is the code word of the
operation code and the fields read from it. -/
namespace Sys2Proof.Machine

/-! ## Fields and their codes -/

theorem b2n_lt (b : Bool) : b2n b < 2 := by cases b <;> decide
theorem encodeAm_lt (m : Am) : encodeAm m < 40 := by unfold encodeAm; omega
theorem encodeClass_lt (c : PtrClass) : encodeClass c < 4 := by cases c <;> decide
theorem encodeCond_lt (c : SelCond) : encodeCond c < 6 := by cases c <;> decide
theorem encodeView_lt (v : AccView) : encodeView v < 4 := by cases v <;> decide

@[simp] theorem fin16_val (d : Fin 16) : fin16 d = d := Fin.ext (Nat.mod_eq_of_lt d.isLt)
@[simp] theorem fin8_val (d : Fin 8) : fin8 d = d := Fin.ext (Nat.mod_eq_of_lt d.isLt)
@[simp] theorem fin4_val (d : Fin 4) : fin4 d = d := Fin.ext (Nat.mod_eq_of_lt d.isLt)
@[simp] theorem toFin_val {b : Nat} (d : Fin b) : toFin b d = some d := dif_pos d.isLt

theorem val_of_toFin {b n : Nat} {x : Fin b} (h : toFin b n = some x) : (x : Nat) = n := by
  unfold toFin at h
  split at h
  · cases h
    rfl
  · cases h

@[simp] theorem decodeAm_encodeAm (m : Am) : decodeAm (encodeAm m) = some m := by
  obtain ⟨mode, p⟩ := m
  have quot : (8 * (mode : Nat) + p) / 8 = mode := by omega
  have rem : fin8 (8 * (mode : Nat) + p) = p := Fin.ext (show (8 * (mode : Nat) + p) % 8 = p by omega)
  simp [decodeAm, encodeAm, quot, rem]

theorem encodeAm_of_decode {n : Nat} {m : Am} (h : decodeAm n = some m) : encodeAm m = n := by
  obtain ⟨x, hx, rfl⟩ := Option.map_eq_some_iff.mp h
  have mode := val_of_toFin hx
  have p : (fin8 n : Nat) = n % 8 := rfl
  simp only [encodeAm, mode, p]
  omega

@[simp] theorem decodeClass_encodeClass (c : PtrClass) : decodeClass (encodeClass c) = some c := by cases c <;> rfl

theorem encodeClass_of_decode {n : Nat} {c : PtrClass} (h : decodeClass n = some c) : encodeClass c = n := by
  unfold decodeClass at h
  split at h
  all_goals cases h
  all_goals rfl

@[simp] theorem decodeCond_encodeCond (c : SelCond) : decodeCond (encodeCond c) = some c := by cases c <;> rfl

theorem encodeCond_of_decode {n : Nat} {c : SelCond} (h : decodeCond n = some c) : encodeCond c = n := by
  unfold decodeCond at h
  split at h
  all_goals cases h
  all_goals rfl

@[simp] theorem decodeView_encodeView (v : AccView) : decodeView (encodeView v) = v := by cases v <;> rfl

theorem encodeView_decodeView {n : Nat} (h : n < 4) : encodeView (decodeView n) = n := by
  obtain rfl | rfl | rfl | rfl : n = 0 ∨ n = 1 ∨ n = 2 ∨ n = 3 := by omega
  all_goals rfl

theorem encodeView_eq_zero {v : AccView} : encodeView v = 0 ↔ v = .limited := by cases v <;> decide

/-! ## Bits of a word -/

theorem bitsOf_lt (w : Word) (hi lo : Nat) : bitsOf w hi lo < 2 ^ (hi + 1 - lo) := Nat.mod_lt _ (Nat.two_pow_pos _)

theorem bitsOf_single (w : Word) (i : Nat) : bitsOf w i i = b2n (bitOf w i) := by
  have bit : bitOf w i = decide (w.toNat / 2 ^ i % 2 = 1) := by
    rw [bitOf, BitVec.getLsbD, Nat.testBit_eq_decide_div_mod_eq]
  have width : i + 1 - i = 1 := by omega
  rw [bitsOf, natBits, width, Nat.pow_one, bit]
  obtain h | h := Nat.mod_two_eq_zero_or_one (w.toNat / 2 ^ i)
  · simp [h, b2n]
  · simp [h, b2n]

theorem bitOf_of_bitsOf {w : Word} {i : Nat} {b : Bool} (h : bitsOf w i i = b2n b) : bitOf w i = b := by
  rw [bitsOf_single] at h
  cases hw : bitOf w i <;> cases b <;> simp_all [b2n]

/-! ## The sum of the fields -/

/-- The sum takes the fields one by one. (Not by rfl: the kernel would compute the powers of two in unary.) -/
theorem foldl_field (a v k : Nat) (l : List (Nat × Nat)) :
    ((v, k) :: l).foldl (fun a x => a + x.1 * 2 ^ x.2) a = l.foldl (fun a x => a + x.1 * 2 ^ x.2) (a + v * 2 ^ k) := by
  rw [List.foldl_cons]

theorem foldl_fields_nil (a : Nat) : [].foldl (fun (a : Nat) (x : Nat × Nat) => a + x.1 * 2 ^ x.2) a = a := by
  rw [List.foldl_nil]

theorem codeWord_toNat (op : Nat) (l : List (Nat × Nat)) :
    (codeWord op l).toNat = l.foldl (fun a x => a + x.1 * 2 ^ x.2) (op * 2 ^ 24) % 2 ^ 32 := by
  rw [codeWord, BitVec.toNat_ofNat]

/-- The bits of `w` below a place are the fields `l` and zeros. -/
inductive Fields (w : Word) : Nat → List (Nat × Nat) → Prop where
  | nil : Fields w 0 []
  | zero {hi lo : Nat} {l : List (Nat × Nat)} (h : bitsOf w hi lo = 0) (rest : Fields w lo l)
      (le : lo ≤ hi := by decide) : Fields w (hi + 1) l
  | field {hi lo v : Nat} {l : List (Nat × Nat)} (h : bitsOf w hi lo = v) (rest : Fields w lo l)
      (le : lo ≤ hi := by decide) : Fields w (hi + 1) ((v, lo) :: l)

/-- The bits below a place are those from a lower place on and those below that. -/
theorem mod_eq_bitsOf (w : Word) {hi lo : Nat} (le : lo ≤ hi) :
    w.toNat % 2 ^ (hi + 1) = bitsOf w hi lo * 2 ^ lo + w.toNat % 2 ^ lo := by
  have width : 2 ^ (hi + 1) = 2 ^ lo * 2 ^ (hi + 1 - lo) := by
    rw [← Nat.pow_add]
    congr 1
    omega
  rw [width, Nat.mod_mul, bitsOf, natBits, Nat.add_comm, Nat.mul_comm (2 ^ lo)]

theorem Fields.sum {w : Word} {top : Nat} {l : List (Nat × Nat)} (h : Fields w top l) :
    ∀ a, l.foldl (fun a x => a + x.1 * 2 ^ x.2) a = a + w.toNat % 2 ^ top := by
  induction h with
  | nil =>
    intro a
    rw [foldl_fields_nil, Nat.pow_zero, Nat.mod_one, Nat.add_zero]
  | zero h _ le ih =>
    intro a
    rw [ih, mod_eq_bitsOf w le, h, Nat.zero_mul, Nat.zero_add]
  | field h _ le ih =>
    intro a
    rw [foldl_field, ih, mod_eq_bitsOf w le, h, Nat.add_assoc]

/-- A word is the code word of its operation code and of the fields below it. -/
theorem codeWord_of_fields {w : Word} {op : Nat} {l : List (Nat × Nat)} (hop : bitsOf w 31 24 = op)
    (h : Fields w 24 l) : codeWord op l = w := by
  apply BitVec.eq_of_toNat_eq
  have whole := mod_eq_bitsOf w (show 24 ≤ 31 by decide)
  rw [Nat.mod_eq_of_lt w.isLt, hop] at whole
  rw [codeWord_toNat, h.sum, ← whole, Nat.mod_eq_of_lt w.isLt]

section
variable {w : Word} {hi lo : Nat}

theorem fin16_bits (h : hi + 1 - lo ≤ 4 := by decide) : bitsOf w hi lo = (fin16 (bitsOf w hi lo) : Nat) :=
  (Nat.mod_eq_of_lt (Nat.lt_of_lt_of_le (bitsOf_lt w hi lo) (Nat.pow_le_pow_right (by decide) h))).symm

theorem fin8_bits (h : hi + 1 - lo ≤ 3 := by decide) : bitsOf w hi lo = (fin8 (bitsOf w hi lo) : Nat) :=
  (Nat.mod_eq_of_lt (Nat.lt_of_lt_of_le (bitsOf_lt w hi lo) (Nat.pow_le_pow_right (by decide) h))).symm

theorem fin4_bits (h : hi + 1 - lo ≤ 2 := by decide) : bitsOf w hi lo = (fin4 (bitsOf w hi lo) : Nat) :=
  (Nat.mod_eq_of_lt (Nat.lt_of_lt_of_le (bitsOf_lt w hi lo) (Nat.pow_le_pow_right (by decide) h))).symm

theorem ofNat_bits {n : Nat} (h : hi + 1 - lo ≤ n := by decide) :
    bitsOf w hi lo = (BitVec.ofNat n (bitsOf w hi lo)).toNat := by
  rw [BitVec.toNat_ofNat]
  exact (Nat.mod_eq_of_lt (Nat.lt_of_lt_of_le (bitsOf_lt w hi lo) (Nat.pow_le_pow_right (by decide) h))).symm

theorem view_bits (h : hi + 1 - lo ≤ 2 := by decide) : bitsOf w hi lo = encodeView (decodeView (bitsOf w hi lo)) :=
  (encodeView_decodeView (Nat.lt_of_lt_of_le (bitsOf_lt w hi lo) (Nat.pow_le_pow_right (by decide) h))).symm

end

/-! ## Decoding and encoding -/

/-- Settles O31: the word is the sum of the operation code and the fields, so that each of them is read at its own place,
instruction by instruction. -/
theorem volerDecodeEncode : Obligations.VolerDecodeEncode := by
  intro i he
  generalize hw : encodeVoler i = w
  have sum := (congrArg BitVec.toNat hw).symm
  clear hw
  cases i
  all_goals simp only [encodeVoler, codeWord_toNat, foldl_field, foldl_fields_nil] at sum
  case nop =>
    obtain ⟨op, h23⟩ :
        bitsOf w 31 24 = 0x00 ∧ bitsOf w 23 0 = 0 := by
      simp only [bitsOf, natBits]
      omega
    simp [decodeVoler, op, h23]
  case loop k len n =>
    have := b2n_lt k
    obtain ⟨op, h23, h22, h15⟩ :
        bitsOf w 31 24 = 0x01 ∧ bitsOf w 23 23 = b2n k ∧ bitsOf w 22 16 = len ∧ bitsOf w 15 0 = n.toNat := by
      simp only [bitsOf, natBits]
      omega
    simp [Voler.encodable, BitVec.toNat_eq] at he
    simp [decodeVoler, op, bitOf_of_bitsOf h23, h22, h15, he]
  case end_ =>
    obtain ⟨op, h23⟩ :
        bitsOf w 31 24 = 0x02 ∧ bitsOf w 23 0 = 0 := by
      simp only [bitsOf, natBits]
      omega
    simp [decodeVoler, op, h23]
  case ldi d imm =>
    obtain ⟨op, h23, h19⟩ :
        bitsOf w 31 24 = 0x10 ∧ bitsOf w 23 20 = d ∧ bitsOf w 19 0 = imm.toNat := by
      simp only [bitsOf, natBits]
      omega
    simp [decodeVoler, op, h23, h19]
  case ldih d imm =>
    obtain ⟨op, h23, h19, h11⟩ :
        bitsOf w 31 24 = 0x11 ∧ bitsOf w 23 20 = d ∧ bitsOf w 19 12 = 0 ∧ bitsOf w 11 0 = imm.toNat := by
      simp only [bitsOf, natBits]
      omega
    simp [decodeVoler, op, h23, h19, h11]
  case lda c i rel imm =>
    have := encodeClass_lt c
    have := b2n_lt rel
    obtain ⟨op, h23, h20, h17, h16, h15⟩ :
        bitsOf w 31 24 = 0x12 ∧ bitsOf w 23 21 = encodeClass c ∧ bitsOf w 20 18 = i ∧ bitsOf w 17 17 = b2n rel ∧
        bitsOf w 16 16 = 0 ∧ bitsOf w 15 0 = imm.toNat := by
      simp only [bitsOf, natBits]
      omega
    simp [decodeVoler, op, h23, h20, bitOf_of_bitsOf h17, h16, h15]
  case mva c i toD d =>
    have := encodeClass_lt c
    have := b2n_lt toD
    obtain ⟨op, h23, h20, h17, h16, h15, h11⟩ :
        bitsOf w 31 24 = 0x13 ∧ bitsOf w 23 21 = encodeClass c ∧ bitsOf w 20 18 = i ∧ bitsOf w 17 17 = b2n toD ∧
        bitsOf w 16 16 = 0 ∧ bitsOf w 15 12 = d ∧ bitsOf w 11 0 = 0 := by
      simp only [bitsOf, natBits]
      omega
    simp [decodeVoler, op, h23, h20, bitOf_of_bitsOf h17, h16, h15, h11]
  case mov d s =>
    obtain ⟨op, h23, h19, h15⟩ :
        bitsOf w 31 24 = 0x14 ∧ bitsOf w 23 20 = d ∧ bitsOf w 19 16 = s ∧ bitsOf w 15 0 = 0 := by
      simp only [bitsOf, natBits]
      omega
    simp [decodeVoler, op, h23, h19, h15]
  case sel d s t c =>
    have := encodeCond_lt c
    obtain ⟨op, h23, h19, h15, h11, h7⟩ :
        bitsOf w 31 24 = 0x15 ∧ bitsOf w 23 20 = d ∧ bitsOf w 19 16 = s ∧ bitsOf w 15 12 = t ∧
        bitsOf w 11 8 = encodeCond c ∧ bitsOf w 7 0 = 0 := by
      simp only [bitsOf, natBits]
      omega
    simp [decodeVoler, op, h23, h19, h15, h11, h7]
  case ld d m =>
    have := encodeAm_lt m
    obtain ⟨op, h23, h19, h5⟩ :
        bitsOf w 31 24 = 0x20 ∧ bitsOf w 23 20 = d ∧ bitsOf w 19 6 = 0 ∧ bitsOf w 5 0 = encodeAm m := by
      simp only [bitsOf, natBits]
      omega
    simp [decodeVoler, op, h23, h19, h5]
  case st d m =>
    have := encodeAm_lt m
    obtain ⟨op, h23, h19, h5⟩ :
        bitsOf w 31 24 = 0x21 ∧ bitsOf w 23 20 = d ∧ bitsOf w 19 6 = 0 ∧ bitsOf w 5 0 = encodeAm m := by
      simp only [bitsOf, natBits]
      omega
    simp [decodeVoler, op, h23, h19, h5]
  case ld2 d e x y =>
    have := encodeAm_lt y
    have := encodeAm_lt x
    obtain ⟨op, h23, h19, h15, h11, h5⟩ :
        bitsOf w 31 24 = 0x22 ∧ bitsOf w 23 20 = d ∧ bitsOf w 19 16 = e ∧ bitsOf w 15 12 = 0 ∧
        bitsOf w 11 6 = encodeAm y ∧ bitsOf w 5 0 = encodeAm x := by
      simp only [bitsOf, natBits]
      omega
    simp [Voler.encodable] at he
    simp [decodeVoler, op, h23, h19, h15, h11, h5, he]
  case sta a r m =>
    have := b2n_lt r
    have := encodeAm_lt m
    obtain ⟨op, h23, h21, h20, h5⟩ :
        bitsOf w 31 24 = 0x23 ∧ bitsOf w 23 22 = a ∧ bitsOf w 21 21 = b2n r ∧ bitsOf w 20 6 = 0 ∧
        bitsOf w 5 0 = encodeAm m := by
      simp only [bitsOf, natBits]
      omega
    simp [decodeVoler, op, h23, bitOf_of_bitsOf h21, h20, h5]
  case add d s t sat =>
    have := b2n_lt sat
    obtain ⟨op, h23, h19, h15, h11, h10⟩ :
        bitsOf w 31 24 = 0x30 ∧ bitsOf w 23 20 = d ∧ bitsOf w 19 16 = s ∧ bitsOf w 15 12 = t ∧
        bitsOf w 11 11 = b2n sat ∧ bitsOf w 10 0 = 0 := by
      simp only [bitsOf, natBits]
      omega
    simp [decodeVoler, op, h23, h19, h15, bitOf_of_bitsOf h11, h10]
  case sub d s t sat =>
    have := b2n_lt sat
    obtain ⟨op, h23, h19, h15, h11, h10⟩ :
        bitsOf w 31 24 = 0x31 ∧ bitsOf w 23 20 = d ∧ bitsOf w 19 16 = s ∧ bitsOf w 15 12 = t ∧
        bitsOf w 11 11 = b2n sat ∧ bitsOf w 10 0 = 0 := by
      simp only [bitsOf, natBits]
      omega
    simp [decodeVoler, op, h23, h19, h15, bitOf_of_bitsOf h11, h10]
  case neg d s sat =>
    have := b2n_lt sat
    obtain ⟨op, h23, h19, h15, h11, h10⟩ :
        bitsOf w 31 24 = 0x32 ∧ bitsOf w 23 20 = d ∧ bitsOf w 19 16 = s ∧ bitsOf w 15 12 = 0 ∧
        bitsOf w 11 11 = b2n sat ∧ bitsOf w 10 0 = 0 := by
      simp only [bitsOf, natBits]
      omega
    simp [decodeVoler, op, h23, h19, h15, bitOf_of_bitsOf h11, h10]
  case abs d s sat =>
    have := b2n_lt sat
    obtain ⟨op, h23, h19, h15, h11, h10⟩ :
        bitsOf w 31 24 = 0x33 ∧ bitsOf w 23 20 = d ∧ bitsOf w 19 16 = s ∧ bitsOf w 15 12 = 0 ∧
        bitsOf w 11 11 = b2n sat ∧ bitsOf w 10 0 = 0 := by
      simp only [bitsOf, natBits]
      omega
    simp [decodeVoler, op, h23, h19, h15, bitOf_of_bitsOf h11, h10]
  case and d s t =>
    obtain ⟨op, h23, h19, h15, h11⟩ :
        bitsOf w 31 24 = 0x34 ∧ bitsOf w 23 20 = d ∧ bitsOf w 19 16 = s ∧ bitsOf w 15 12 = t ∧ bitsOf w 11 0 = 0 := by
      simp only [bitsOf, natBits]
      omega
    simp [decodeVoler, op, h23, h19, h15, h11]
  case or d s t =>
    obtain ⟨op, h23, h19, h15, h11⟩ :
        bitsOf w 31 24 = 0x35 ∧ bitsOf w 23 20 = d ∧ bitsOf w 19 16 = s ∧ bitsOf w 15 12 = t ∧ bitsOf w 11 0 = 0 := by
      simp only [bitsOf, natBits]
      omega
    simp [decodeVoler, op, h23, h19, h15, h11]
  case xor d s t =>
    obtain ⟨op, h23, h19, h15, h11⟩ :
        bitsOf w 31 24 = 0x36 ∧ bitsOf w 23 20 = d ∧ bitsOf w 19 16 = s ∧ bitsOf w 15 12 = t ∧ bitsOf w 11 0 = 0 := by
      simp only [bitsOf, natBits]
      omega
    simp [decodeVoler, op, h23, h19, h15, h11]
  case shl d s sat k =>
    have := b2n_lt sat
    obtain ⟨op, h23, h19, h15, h11, h10, h5⟩ :
        bitsOf w 31 24 = 0x37 ∧ bitsOf w 23 20 = d ∧ bitsOf w 19 16 = s ∧ bitsOf w 15 12 = 0 ∧
        bitsOf w 11 11 = b2n sat ∧ bitsOf w 10 6 = k ∧ bitsOf w 5 0 = 0 := by
      simp only [bitsOf, natBits]
      omega
    simp [decodeVoler, op, h23, h19, h15, bitOf_of_bitsOf h11, h10, h5]
  case shr d s k =>
    obtain ⟨op, h23, h19, h15, h10, h5⟩ :
        bitsOf w 31 24 = 0x38 ∧ bitsOf w 23 20 = d ∧ bitsOf w 19 16 = s ∧ bitsOf w 15 11 = 0 ∧ bitsOf w 10 6 = k ∧
        bitsOf w 5 0 = 0 := by
      simp only [bitsOf, natBits]
      omega
    simp [decodeVoler, op, h23, h19, h15, h10, h5]
  case cmp s t =>
    obtain ⟨op, h23, h19, h15, h11⟩ :
        bitsOf w 31 24 = 0x39 ∧ bitsOf w 23 20 = 0 ∧ bitsOf w 19 16 = s ∧ bitsOf w 15 12 = t ∧ bitsOf w 11 0 = 0 := by
      simp only [bitsOf, natBits]
      omega
    simp [decodeVoler, op, h23, h19, h15, h11]
  case min d s t =>
    obtain ⟨op, h23, h19, h15, h11⟩ :
        bitsOf w 31 24 = 0x3A ∧ bitsOf w 23 20 = d ∧ bitsOf w 19 16 = s ∧ bitsOf w 15 12 = t ∧ bitsOf w 11 0 = 0 := by
      simp only [bitsOf, natBits]
      omega
    simp [decodeVoler, op, h23, h19, h15, h11]
  case max d s t =>
    obtain ⟨op, h23, h19, h15, h11⟩ :
        bitsOf w 31 24 = 0x3B ∧ bitsOf w 23 20 = d ∧ bitsOf w 19 16 = s ∧ bitsOf w 15 12 = t ∧ bitsOf w 11 0 = 0 := by
      simp only [bitsOf, natBits]
      omega
    simp [decodeVoler, op, h23, h19, h15, h11]
  case addi d s sat imm =>
    have := b2n_lt sat
    obtain ⟨op, h23, h19, h15, h12, h11⟩ :
        bitsOf w 31 24 = 0x3C ∧ bitsOf w 23 20 = d ∧ bitsOf w 19 16 = s ∧ bitsOf w 15 13 = 0 ∧
        bitsOf w 12 12 = b2n sat ∧ bitsOf w 11 0 = imm.toNat := by
      simp only [bitsOf, natBits]
      omega
    simp [decodeVoler, op, h23, h19, h15, bitOf_of_bitsOf h12, h11]
  case mac a sub clr s t =>
    have := b2n_lt sub
    have := b2n_lt clr
    obtain ⟨op, h23, h21, h20, h19, h15, h11⟩ :
        bitsOf w 31 24 = 0x40 ∧ bitsOf w 23 22 = a ∧ bitsOf w 21 21 = b2n sub ∧ bitsOf w 20 20 = b2n clr ∧
        bitsOf w 19 16 = s ∧ bitsOf w 15 12 = t ∧ bitsOf w 11 0 = 0 := by
      simp only [bitsOf, natBits]
      omega
    simp [decodeVoler, op, h23, bitOf_of_bitsOf h21, bitOf_of_bitsOf h20, h19, h15, h11]
  case mac2 a sub clr s t u v =>
    have := b2n_lt sub
    have := b2n_lt clr
    obtain ⟨op, h23, h21, h20, h19, h15, h11, h7, h3⟩ :
        bitsOf w 31 24 = 0x41 ∧ bitsOf w 23 22 = a ∧ bitsOf w 21 21 = b2n sub ∧ bitsOf w 20 20 = b2n clr ∧
        bitsOf w 19 16 = s ∧ bitsOf w 15 12 = t ∧ bitsOf w 11 8 = u ∧ bitsOf w 7 4 = v ∧ bitsOf w 3 0 = 0 := by
      simp only [bitsOf, natBits]
      omega
    simp [decodeVoler, op, h23, bitOf_of_bitsOf h21, bitOf_of_bitsOf h20, h19, h15, h11, h7, h3]
  case dmac a b s t u v x y =>
    have := b2n_lt x
    have := b2n_lt y
    obtain ⟨op, h23, h21, h19, h15, h11, h7, h3, h2, h1⟩ :
        bitsOf w 31 24 = 0x42 ∧ bitsOf w 23 22 = a ∧ bitsOf w 21 20 = b ∧ bitsOf w 19 16 = s ∧ bitsOf w 15 12 = t ∧
        bitsOf w 11 8 = u ∧ bitsOf w 7 4 = v ∧ bitsOf w 3 3 = b2n x ∧ bitsOf w 2 2 = b2n y ∧ bitsOf w 1 0 = 0 := by
      simp only [bitsOf, natBits]
      omega
    simp [Voler.encodable] at he
    simp [decodeVoler, op, h23, h21, h19, h15, h11, h7, bitOf_of_bitsOf h3, bitOf_of_bitsOf h2, h1, he]
  case macm a sub clr s m =>
    have := b2n_lt sub
    have := b2n_lt clr
    have := encodeAm_lt m
    obtain ⟨op, h23, h21, h20, h19, h15, h5⟩ :
        bitsOf w 31 24 = 0x43 ∧ bitsOf w 23 22 = a ∧ bitsOf w 21 21 = b2n sub ∧ bitsOf w 20 20 = b2n clr ∧
        bitsOf w 19 16 = s ∧ bitsOf w 15 6 = 0 ∧ bitsOf w 5 0 = encodeAm m := by
      simp only [bitsOf, natBits]
      omega
    simp [decodeVoler, op, h23, bitOf_of_bitsOf h21, bitOf_of_bitsOf h20, h19, h15, h5]
  case tapx a sub mv pc pd dm dk xm dir =>
    have := b2n_lt sub
    have := b2n_lt mv
    have := b2n_lt dir
    obtain ⟨op, h23, h21, h20, h19, h16, h13, h9, h5, h3, h2⟩ :
        bitsOf w 31 24 = 0x44 ∧ bitsOf w 23 22 = a ∧ bitsOf w 21 21 = b2n sub ∧ bitsOf w 20 20 = b2n mv ∧
        bitsOf w 19 17 = pc ∧ bitsOf w 16 14 = pd ∧ bitsOf w 13 10 = dm ∧ bitsOf w 9 6 = dk ∧ bitsOf w 5 4 = xm ∧
        bitsOf w 3 3 = b2n dir ∧ bitsOf w 2 0 = 0 := by
      simp only [bitsOf, natBits]
      omega
    simp [Voler.encodable, Fin.ext_iff, show ((3 : Fin 4) : Nat) = 3 from rfl, Decidable.or_iff_not_imp_left] at he
    simpa [decodeVoler, op, h23, bitOf_of_bitsOf h21, bitOf_of_bitsOf h20, h19, h16, h13, h9, h5, bitOf_of_bitsOf h3, h2, he.1, Fin.ext_iff] using he.2
  case adda a b sub =>
    have := b2n_lt sub
    obtain ⟨op, h23, h21, h19, h18⟩ :
        bitsOf w 31 24 = 0x48 ∧ bitsOf w 23 22 = a ∧ bitsOf w 21 20 = b ∧ bitsOf w 19 19 = b2n sub ∧
        bitsOf w 18 0 = 0 := by
      simp only [bitsOf, natBits]
      omega
    simp [decodeVoler, op, h23, h21, bitOf_of_bitsOf h19, h18]
  case accld a s pos =>
    obtain ⟨op, h23, h21, h19, h15, h12⟩ :
        bitsOf w 31 24 = 0x49 ∧ bitsOf w 23 22 = a ∧ bitsOf w 21 20 = 0 ∧ bitsOf w 19 16 = s ∧ bitsOf w 15 13 = pos ∧
        bitsOf w 12 0 = 0 := by
      simp only [bitsOf, natBits]
      omega
    simp [decodeVoler, op, h23, h21, h19, h15, h12]
  case ash a k =>
    obtain ⟨op, h23, h21, h12, h7⟩ :
        bitsOf w 31 24 = 0x4A ∧ bitsOf w 23 22 = a ∧ bitsOf w 21 13 = 0 ∧ bitsOf w 12 8 = k.toNat ∧
        bitsOf w 7 0 = 0 := by
      simp only [bitsOf, natBits]
      omega
    simp [Voler.encodable] at he
    simp [decodeVoler, op, h23, h21, h12, h7, ashCount, he]
  case rda a r v d =>
    have := b2n_lt r
    have := encodeView_lt v
    obtain ⟨op, h23, h21, h20, h18, h15, h11⟩ :
        bitsOf w 31 24 = 0x4B ∧ bitsOf w 23 22 = a ∧ bitsOf w 21 21 = b2n r ∧ bitsOf w 20 19 = encodeView v ∧
        bitsOf w 18 16 = 0 ∧ bitsOf w 15 12 = d ∧ bitsOf w 11 0 = 0 := by
      simp only [bitsOf, natBits]
      omega
    simp [Voler.encodable, ← Bool.not_eq_true, ← Decidable.imp_iff_not_or] at he
    simpa [decodeVoler, op, h23, bitOf_of_bitsOf h21, h20, h18, h15, h11, encodeView_eq_zero] using he
  case rdesr d =>
    obtain ⟨op, h23, h19⟩ :
        bitsOf w 31 24 = 0x50 ∧ bitsOf w 23 20 = d ∧ bitsOf w 19 0 = 0 := by
      simp only [bitsOf, natBits]
      omega
    simp [decodeVoler, op, h23, h19]
  case wresr clear mask val =>
    obtain ⟨op, h23, h13, h7, h6, h3, h2⟩ :
        bitsOf w 31 24 = 0x51 ∧ bitsOf w 23 14 = 0 ∧ bitsOf w 13 8 = clear.toNat ∧ bitsOf w 7 7 = 0 ∧
        bitsOf w 6 4 = mask.toNat ∧ bitsOf w 3 3 = 0 ∧ bitsOf w 2 0 = val.toNat := by
      simp only [bitsOf, natBits]
      omega
    simp [decodeVoler, op, h23, h13, h7, h6, h3, h2]

/-- Settles O32: each operation code decodes to one instruction, whose fields are what the word's bits below it are read
as, with zeros between them. -/
theorem volerEncodeDecode : Obligations.VolerEncodeDecode := by
  intro w i h
  unfold decodeVoler at h
  dsimp only at h
  split at h
  case h_38 => cases h
  case h_12 op =>
    split at h
    case h_2 => cases h
    case h_1 x y hx hy =>
      simp only [Option.ite_none_right_eq_some, Option.ite_none_left_eq_some, Option.some.injEq] at h
      obtain ⟨he, h15, rfl⟩ := h
      exact ⟨codeWord_of_fields op <| .field fin16_bits <| .field fin16_bits <| .zero h15 <|
        .field (encodeAm_of_decode hy).symm <| .field (encodeAm_of_decode hx).symm .nil,
        by simpa [Voler.encodable] using he⟩
  all_goals rename_i op
  case h_4 =>
    cases h
    exact ⟨codeWord_of_fields op <| .field fin16_bits <| .field ofNat_bits .nil, rfl⟩
  all_goals simp only [Option.ite_none_right_eq_some, Option.ite_none_left_eq_some, Option.map_eq_some_iff,
    Option.some.injEq] at h
  case h_1 =>
    obtain ⟨h23, rfl⟩ := h
    exact ⟨codeWord_of_fields op <| .zero h23 .nil, rfl⟩
  case h_2 =>
    obtain ⟨he, x, hm, rfl⟩ := h
    exact ⟨codeWord_of_fields op <| .field (bitsOf_single ..) <| .field (val_of_toFin hm).symm <|
      .field ofNat_bits .nil, by
      have small := bitsOf_lt w 15 0
      have count : bitsOf w 15 0 % 65536 = bitsOf w 15 0 := Nat.mod_eq_of_lt small
      simpa [Voler.encodable, BitVec.toNat_eq, count, val_of_toFin hm] using he⟩
  case h_3 =>
    obtain ⟨h23, rfl⟩ := h
    exact ⟨codeWord_of_fields op <| .zero h23 .nil, rfl⟩
  case h_5 =>
    obtain ⟨h19, rfl⟩ := h
    exact ⟨codeWord_of_fields op <| .field fin16_bits <| .zero h19 <| .field ofNat_bits .nil, rfl⟩
  case h_6 =>
    obtain ⟨h16, x, hm, rfl⟩ := h
    exact ⟨codeWord_of_fields op <| .field (encodeClass_of_decode hm).symm <| .field fin8_bits <|
      .field (bitsOf_single ..) <| .zero h16 <| .field ofNat_bits .nil, rfl⟩
  case h_7 =>
    obtain ⟨h16, h11, x, hm, rfl⟩ := h
    exact ⟨codeWord_of_fields op <| .field (encodeClass_of_decode hm).symm <| .field fin8_bits <|
      .field (bitsOf_single ..) <| .zero h16 <| .field fin16_bits <| .zero h11 .nil, rfl⟩
  case h_8 =>
    obtain ⟨h15, rfl⟩ := h
    exact ⟨codeWord_of_fields op <| .field fin16_bits <| .field fin16_bits <| .zero h15 .nil, rfl⟩
  case h_9 =>
    obtain ⟨h7, x, hm, rfl⟩ := h
    exact ⟨codeWord_of_fields op <| .field fin16_bits <| .field fin16_bits <| .field fin16_bits <|
      .field (encodeCond_of_decode hm).symm <| .zero h7 .nil, rfl⟩
  case h_10 =>
    obtain ⟨h19, x, hm, rfl⟩ := h
    exact ⟨codeWord_of_fields op <| .field fin16_bits <| .zero h19 <| .field (encodeAm_of_decode hm).symm .nil, rfl⟩
  case h_11 =>
    obtain ⟨h19, x, hm, rfl⟩ := h
    exact ⟨codeWord_of_fields op <| .field fin16_bits <| .zero h19 <| .field (encodeAm_of_decode hm).symm .nil, rfl⟩
  case h_13 =>
    obtain ⟨h20, x, hm, rfl⟩ := h
    exact ⟨codeWord_of_fields op <| .field fin4_bits <| .field (bitsOf_single ..) <| .zero h20 <|
      .field (encodeAm_of_decode hm).symm .nil, rfl⟩
  case h_14 =>
    obtain ⟨h10, rfl⟩ := h
    exact ⟨codeWord_of_fields op <| .field fin16_bits <| .field fin16_bits <| .field fin16_bits <|
      .field (bitsOf_single ..) <| .zero h10 .nil, rfl⟩
  case h_15 =>
    obtain ⟨h10, rfl⟩ := h
    exact ⟨codeWord_of_fields op <| .field fin16_bits <| .field fin16_bits <| .field fin16_bits <|
      .field (bitsOf_single ..) <| .zero h10 .nil, rfl⟩
  case h_16 =>
    obtain ⟨h15, h10, rfl⟩ := h
    exact ⟨codeWord_of_fields op <| .field fin16_bits <| .field fin16_bits <| .zero h15 <|
      .field (bitsOf_single ..) <| .zero h10 .nil, rfl⟩
  case h_17 =>
    obtain ⟨h15, h10, rfl⟩ := h
    exact ⟨codeWord_of_fields op <| .field fin16_bits <| .field fin16_bits <| .zero h15 <|
      .field (bitsOf_single ..) <| .zero h10 .nil, rfl⟩
  case h_18 =>
    obtain ⟨h11, rfl⟩ := h
    exact ⟨codeWord_of_fields op <| .field fin16_bits <| .field fin16_bits <| .field fin16_bits <| .zero h11 .nil,
      rfl⟩
  case h_19 =>
    obtain ⟨h11, rfl⟩ := h
    exact ⟨codeWord_of_fields op <| .field fin16_bits <| .field fin16_bits <| .field fin16_bits <| .zero h11 .nil,
      rfl⟩
  case h_20 =>
    obtain ⟨h11, rfl⟩ := h
    exact ⟨codeWord_of_fields op <| .field fin16_bits <| .field fin16_bits <| .field fin16_bits <| .zero h11 .nil,
      rfl⟩
  case h_21 =>
    obtain ⟨h15, h5, x, hm, rfl⟩ := h
    exact ⟨codeWord_of_fields op <| .field fin16_bits <| .field fin16_bits <| .zero h15 <|
      .field (bitsOf_single ..) <| .field (val_of_toFin hm).symm <| .zero h5 .nil, rfl⟩
  case h_22 =>
    obtain ⟨h15, h5, x, hm, rfl⟩ := h
    exact ⟨codeWord_of_fields op <| .field fin16_bits <| .field fin16_bits <| .zero h15 <|
      .field (val_of_toFin hm).symm <| .zero h5 .nil, rfl⟩
  case h_23 =>
    obtain ⟨h23, h11, rfl⟩ := h
    exact ⟨codeWord_of_fields op <| .zero h23 <| .field fin16_bits <| .field fin16_bits <| .zero h11 .nil, rfl⟩
  case h_24 =>
    obtain ⟨h11, rfl⟩ := h
    exact ⟨codeWord_of_fields op <| .field fin16_bits <| .field fin16_bits <| .field fin16_bits <| .zero h11 .nil,
      rfl⟩
  case h_25 =>
    obtain ⟨h11, rfl⟩ := h
    exact ⟨codeWord_of_fields op <| .field fin16_bits <| .field fin16_bits <| .field fin16_bits <| .zero h11 .nil,
      rfl⟩
  case h_26 =>
    obtain ⟨h15, rfl⟩ := h
    exact ⟨codeWord_of_fields op <| .field fin16_bits <| .field fin16_bits <| .zero h15 <|
      .field (bitsOf_single ..) <| .field ofNat_bits .nil, rfl⟩
  case h_27 =>
    obtain ⟨h11, rfl⟩ := h
    exact ⟨codeWord_of_fields op <| .field fin4_bits <| .field (bitsOf_single ..) <| .field (bitsOf_single ..) <|
      .field fin16_bits <| .field fin16_bits <| .zero h11 .nil, rfl⟩
  case h_28 =>
    obtain ⟨h3, rfl⟩ := h
    exact ⟨codeWord_of_fields op <| .field fin4_bits <| .field (bitsOf_single ..) <| .field (bitsOf_single ..) <|
      .field fin16_bits <| .field fin16_bits <| .field fin16_bits <| .field fin16_bits <| .zero h3 .nil, rfl⟩
  case h_29 =>
    obtain ⟨he, h1, rfl⟩ := h
    exact ⟨codeWord_of_fields op <| .field fin4_bits <| .field fin4_bits <| .field fin16_bits <| .field fin16_bits <|
      .field fin16_bits <| .field fin16_bits <| .field (bitsOf_single ..) <| .field (bitsOf_single ..) <|
      .zero h1 .nil, by simpa [Voler.encodable] using he⟩
  case h_30 =>
    obtain ⟨h15, x, hm, rfl⟩ := h
    exact ⟨codeWord_of_fields op <| .field fin4_bits <| .field (bitsOf_single ..) <| .field (bitsOf_single ..) <|
      .field fin16_bits <| .zero h15 <| .field (encodeAm_of_decode hm).symm .nil, rfl⟩
  case h_31 =>
    obtain ⟨he, h2, rfl⟩ := h
    exact ⟨codeWord_of_fields op <| .field fin4_bits <| .field (bitsOf_single ..) <| .field (bitsOf_single ..) <|
      .field fin8_bits <| .field fin8_bits <| .field fin16_bits <| .field fin16_bits <| .field fin4_bits <|
      .field (bitsOf_single ..) <| .zero h2 .nil, by
      have xm : (fin4 (bitsOf w 5 4) : Nat) = bitsOf w 5 4 := Eq.symm fin4_bits
      simpa [Voler.encodable, Fin.ext_iff, xm, show ((3 : Fin 4) : Nat) = 3 from rfl, Decidable.or_iff_not_imp_left] using he⟩
  case h_32 =>
    obtain ⟨h18, rfl⟩ := h
    exact ⟨codeWord_of_fields op <| .field fin4_bits <| .field fin4_bits <| .field (bitsOf_single ..) <|
      .zero h18 .nil, rfl⟩
  case h_33 =>
    obtain ⟨h21, h12, x, hm, rfl⟩ := h
    exact ⟨codeWord_of_fields op <| .field fin4_bits <| .zero h21 <| .field fin16_bits <|
      .field (val_of_toFin hm).symm <| .zero h12 .nil, rfl⟩
  case h_34 =>
    obtain ⟨he, h21, h7, rfl⟩ := h
    exact ⟨codeWord_of_fields op <| .field fin4_bits <| .zero h21 <| .field ofNat_bits <| .zero h7 .nil,
      by simpa [Voler.encodable, ashCount] using he⟩
  case h_35 =>
    obtain ⟨he, h18, h11, rfl⟩ := h
    exact ⟨codeWord_of_fields op <| .field fin4_bits <| .field (bitsOf_single ..) <| .field view_bits <| .zero h18 <|
      .field fin16_bits <| .zero h11 .nil, by
      simpa [Voler.encodable, ← encodeView_eq_zero, ← view_bits, Decidable.or_iff_not_imp_left] using he⟩
  case h_36 =>
    obtain ⟨h19, rfl⟩ := h
    exact ⟨codeWord_of_fields op <| .field fin16_bits <| .zero h19 .nil, rfl⟩
  case h_37 =>
    obtain ⟨h23, h7, h3, rfl⟩ := h
    exact ⟨codeWord_of_fields op <| .zero h23 <| .field ofNat_bits <| .zero h7 <| .field ofNat_bits <| .zero h3 <|
      .field ofNat_bits .nil, rfl⟩

end Sys2Proof.Machine
end


section
/-! PROOFS. The Voler rows and the kernel commands (13 R299, R300, R302, R305-R307, R312): the row of an instruction is the
engine's step by it, and KRN_LOAD, KRN_UNLOAD and KRN_READ answer by what the store holds and the duties name. -/
namespace Sys2Proof.Machine

/-! ## One instruction -/

/-- Every row of the Voler set is the engine's step by its instruction. -/
theorem exec_volerRow (e : Fin 16) (i : Voler) (s : State) : exec (volerRow e i) s = s.upd (volerStep e i) := by
  cases i <;> rfl

section
variable {s : Dev} {e : Nat} {j : Job} {l : Bool} {i : Voler} (hn : s.nextVoler e = some (j, l, i))
include hn

theorem volerStep_works (he : i ≠ .end_) : volerStep e i s = s.volerWork e j l i := by
  simp only [volerStep, hn, if_true, if_neg he]

theorem volerStep_ends (he : i = .end_) : volerStep e i s = s.jobEnds e j l := by
  simp only [volerStep, hn, if_pos he, if_true]

end

/-- Only the instructions that access data memory through a pointer can reach outside the region (R302). -/
theorem accesses_of_exec_none {c : Ctx} {i : Voler} (h : c.exec i = none) :
    (∃ d a, i = .ld d a) ∨ (∃ d a, i = .st d a) ∨ (∃ d f a b, i = .ld2 d f a b) ∨ (∃ a r m, i = .sta a r m) ∨
      (∃ a sub clr x m, i = .macm a sub clr x m) ∨
      (∃ a sub mv pc pd dm dk xm dir, i = .tapx a sub mv pc pd dm dk xm dir) := by
  cases i
  case ld d am => exact .inl ⟨d, am, rfl⟩
  case st d am => exact .inr (.inl ⟨d, am, rfl⟩)
  case ld2 d f a b => exact .inr (.inr (.inl ⟨d, f, a, b, rfl⟩))
  case sta a r m => exact .inr (.inr (.inr (.inl ⟨a, r, m, rfl⟩)))
  case macm a sub clr x m => exact .inr (.inr (.inr (.inr (.inl ⟨a, sub, clr, x, m, rfl⟩))))
  case tapx a sub mv pc pd dm dk xm dir =>
    exact .inr (.inr (.inr (.inr (.inr ⟨a, sub, mv, pc, pd, dm, dk, xm, dir, rfl⟩))))
  case rda a r view d => cases view <;> simp [Ctx.exec] at h
  all_goals simp [Ctx.exec] at h

/-- Settles O28: what the next instruction of a job does, then the row of each instruction. -/
theorem volerRowsRun : Obligations.VolerRowsRun := by
  intro s e
  constructor
  · intro j l i hn
    refine ⟨fun c he hx => ?_, fun he hx => ?_, accesses_of_exec_none, fun he => ?_⟩
    · rw [exec_volerRow, State.upd_eq, volerStep_works hn he, Dev.volerWork]
      dsimp only
      rw [hx]
    · rw [exec_volerRow, State.upd_eq, volerStep_works hn he, Dev.volerWork]
      dsimp only
      rw [hx]
    · subst he
      exact (State.upd_eq s _).trans (by rw [volerStep_ends hn rfl])
  · and_intros
    all_goals intros
    all_goals rfl

/-! ## The kernel store -/

section
variable {s : Dev} {d : Desc}

theorem krnLoad_good {img : HostBytes} {b : List Byte} {h : Nat} {k : Kernel} (ho : d.object = 0)
    (ha : s.addrOk d (d.w64 3) (d.w 5).toNat = true) (hb : b = (s.fetch d (d.w64 3) img).take (d.w 5).toNat)
    (hf : s.freeHandle = some h) (hk : analyse b (d.w 5).toNat = .inr k) :
    krnLoad d img s = ((s.setKrn (fun x => { x with store := kput none x.store h (some k) })).event 12 1 0x0101 h s.dt
      [k.tag.toNat, k.cycles, k.code.length]).complete d .done s.dt [0, 0xFFFFFFFF, wordN h, wordN k.cycles] := by
  subst hb
  simp [krnLoad, ho, ha, hf, hk]

theorem krnRead_loaded {k : Kernel} (h0 : bitsOf d.object 31 6 = 0) (hk : s.kernel (bitsOf d.object 5 0) = some k) :
    krnRead d s = s.complete d .done s.dt
      [k.tag, wordN k.cycles, wordN (k.code.length + 65536 * k.region), wordN k.modes] := by
  simp [krnRead, h0, hk]

/-- What a table lists under a key is listed. -/
theorem mem_of_kget {α : Type} {d v : α} (hv : v ≠ d) {k : Nat} : ∀ {m : KMap α}, kget d m k = v → (k, v) ∈ m
  | [], h => absurd h.symm hv
  | (i, w) :: t, h => by
    by_cases e : i = k
    · subst e
      simp only [kget, if_true] at h
      simp [h]
    · simp only [kget, if_neg e] at h
      exact List.mem_cons_of_mem _ (mem_of_kget hv h)

/-- A handle that an admitted duty of class 1 names is in use (R300). -/
theorem Dev.handleUsed_of_duty {id h : Nat} {x : Duty} (hx : kget none s.tlg.duties id = some x) (hc : x.desc.cls = 1)
    (hh : x.desc.handle = h) : s.handleUsed h = true := by
  have listed : x ∈ dutyList s.tlg.duties :=
    List.mem_filterMap.mpr ⟨(id, some x), mem_of_kget (Option.some_ne_none x) hx, rfl⟩
  have named : (dutyList s.tlg.duties).any (fun x => x.desc.cls == 1 && x.desc.handle == h) = true :=
    List.any_eq_true.mpr ⟨x, listed, by simp [hc, hh]⟩
  simp only [Dev.handleUsed, named, Bool.true_or]

theorem krnUnload_unloaded (hk : s.kernel (bitsOf d.object 5 0) = none) : krnUnload d s = s.fail d .badDescriptor := by
  simp [krnUnload, hk]

section
variable {h : Nat} (hh : h = bitsOf d.object 5 0) (h0 : bitsOf d.object 31 6 = 0)
include hh h0

theorem krnUnload_unused {k : Kernel} (hk : s.kernel h = some k) (hu : s.handleUsed h = false) :
    krnUnload d s = (s.setKrn (fun k => { k with store := kput none k.store h none })).complete d .done s.dt [] := by
  simp [krnUnload, ← hh, h0, hk, hu]

theorem krnUnload_used {k : Kernel} (hk : s.kernel h = some k) (hu : s.handleUsed h = true) :
    krnUnload d s = s.fail d .reconfigBusy := by
  simp [krnUnload, ← hh, h0, hk, hu]

end

end

/-- Settles O33: KRN_LOAD of a good image, then KRN_READ. -/
theorem kernelCommandsComplete : Obligations.KernelCommandsComplete := by
  intro s d hs
  refine ⟨fun img y b h k h3 ho hy ha hb hf hk => ?_, fun k h0 hk => ?_⟩
  · subst hy
    exact (State.updIn_sent hs (Dev.reads_of_d0 h3) img _).trans (by rw [krnLoad_good ho ha hb hf hk])
  · exact (State.cmd_sent hs _).trans (by rw [State.upd_eq, krnRead_loaded h0 hk])

/-- Settles O34: a handle not in use, one that a duty names, and one that is not loaded. -/
theorem kernelUnloadRule : Obligations.KernelUnloadRule := by
  intro s d h hs hh h0
  have act := State.cmd_sent hs (krnUnload d)
  refine ⟨fun k y hk hu hy => ⟨?_, ?_⟩, fun k id x hk hx hc hn => ?_, fun hk => ?_⟩
  · subst hy
    exact act.trans (by rw [State.upd_eq, krnUnload_unused hh h0 hk hu])
  · subst hy
    exact kget_kput_same none s.dev.krn.store h none
  · exact act.trans (by rw [State.upd_eq, krnUnload_used hh h0 hk (Dev.handleUsed_of_duty hx hc hn)])
  · exact act.trans (by rw [State.upd_eq, krnUnload_unloaded (hh ▸ hk)])

end Sys2Proof.Machine
end


section
/-! PROOFS. The Timing Ledger (14 R322-R325, R328, 17 R387): the ends of its analyses, the commit that is due, and its
commands. What an analysis comes to reaches its command by the verdict alone. -/
namespace Sys2Proof.Machine

theorem Dev.HostSide.tlg {s t : Dev} (a : s.HostSide t) : t.tlg = s.tlg := by
  obtain ⟨_, _, _, rfl⟩ := a
  rfl

/-- Completing a command that may have no descriptor (15 R336). -/
theorem Dev.completeOpt_frame (s : Dev) (d : Option Desc) (st : Status) (c : Nat) (res : List Word) :
    s.HostSide (s.completeOpt d st c res) := by
  cases d with
  | none => exact .refl s
  | some d => exact s.complete_frame d st c res

section
variable {s : Dev} {t : LedgerTask} {d : Option Desc}

/-! ## Verdicts -/

/-- A plan for a commit is pending from now on (R323). -/
theorem Dev.tlgJudge_plan {p : LedgerPlan} {r : Option LedgerPlan} (hv : s.analyseTask t = .plan p r)
    (hc : ∀ b, t ≠ .check b) (hr : t ≠ .replace) : s.tlgJudge t d = s.tlgPend t d p r := by
  cases t with
  | check b => exact absurd rfl (hc b)
  | replace => exact absurd rfl hr
  | config _ | migrate _ _ _ | clusterDown _ | update _ => simp only [Dev.tlgJudge, hv]

/-- With no cluster in retention that it needs, the commit is ready at once (17 R387). -/
theorem Dev.tlgPend_unretained {p : LedgerPlan} {r : Option LedgerPlan}
    (h : (List.range 4).any (fun c => s.retained c && LedgerCommit.needs ⟨t, d, s.dt, p, r, s.dt⟩ c) = false) :
    s.tlgPend t d p r = s.setTlg (fun x => { x with pending := some ⟨t, d, s.dt, p, r, s.dt⟩ }) := by
  simp only [Dev.tlgPend, h]
  rfl

theorem Dev.tlgJudge_config_refuse {b : List Byte} {m : Misfit} (hv : s.analyseTask (.config b) = .refuse m) :
    s.tlgJudge (.config b) d = s.tlgRefuse d m := by
  simp only [Dev.tlgJudge, hv]

/-- A refusal changes the ledger's counts and no duty (R322). The word of the last refusal is a variable here, so that
the kernel does not compute it. -/
theorem Dev.refusal_duties (w : Word) (n sev code obj time i : Nat) (p : List Int) (st : Status) (c : Nat)
    (res : List Word) :
    (((Dev.event { s with tlg := { s.tlg with lastRef := w, refused := n } } 2 sev code obj time p).chrInc 9 i).completeOpt
      d st c res).tlg.duties = s.tlg.duties := by
  have counted : ∀ y : Dev, (y.chrInc 9 i).tlg = y.tlg := fun _ => rfl
  rw [(Dev.completeOpt_frame ..).tlg, counted, (Dev.event_frame ..).tlg]

theorem Dev.tlgRefuse_duties (m : Misfit) : (s.tlgRefuse d m).tlg.duties = s.tlg.duties :=
  Dev.refusal_duties ..

theorem Dev.tlgJudge_check_plan {b : List Byte} {p : LedgerPlan} {r : Option LedgerPlan}
    (hv : s.analyseTask (.check b) = .plan p r) : s.tlgJudge (.check b) d = s.completeOpt d .done s.dt [] := by
  simp only [Dev.tlgJudge, hv]

theorem Dev.tlgJudge_check_refuse {b : List Byte} {m : Misfit} (hv : s.analyseTask (.check b) = .refuse m) :
    s.tlgJudge (.check b) d =
      s.completeOpt d (if m.reason ≤ 2 then .badDescriptor else .refusedLedger) (s.acceptedAt d) m.words := by
  simp only [Dev.tlgJudge, hv]

/-- An image of another part (02 R23). -/
theorem Dev.tlgJudge_fused {b : List Byte} (ht : t = .check b ∨ t = .config b) (hv : s.analyseTask t = .fused) :
    s.tlgJudge t d = s.completeOpt d .notInVariant (s.acceptedAt d) [] := by
  obtain rfl | rfl := ht
  all_goals simp only [Dev.tlgJudge, hv]

/-! ## Analyses and commits -/

section
variable {rest : List (LedgerTask × Option Desc)} (ht : s.tlg.tasks = (t, d) :: rest)
include ht

theorem ledgerAnalysisComplete_oldest (hp : t.isCheck = true ∨ s.tlg.pending = none) :
    ledgerAnalysisComplete s = (s.setTlg (fun x => { x with tasks := rest })).tlgJudge t d := by
  have go : (s.tlg.pending.isSome && !t.isCheck) = false := by
    obtain h | h := hp <;> simp [h]
  simp only [ledgerAnalysisComplete, ht, go, if_neg Bool.false_ne_true]

/-- An analysis for a commit waits while another commit is pending (R323). -/
theorem ledgerAnalysisComplete_waits (hc : t.isCheck = false) (hp : s.tlg.pending.isSome = true) :
    ledgerAnalysisComplete s = s := by
  simp [ledgerAnalysisComplete, ht, hc, hp]

end

theorem ledgerAnalysisComplete_replaces (ht : s.tlg.tasks = []) (hr : s.tlg.replace = true) (hp : s.tlg.pending = none) :
    ledgerAnalysisComplete s = (s.setTlg (fun x => { x with replace := false })).tlgJudge .replace none := by
  simp [ledgerAnalysisComplete, ht, hr, hp]

section
variable {c : LedgerCommit} (hp : s.tlg.pending = some c) (hd : s.commitDue c = true)
include hp hd

theorem tlgCommit_last (h2 : c.second = none) :
    tlgCommit s = (((s.applyPlan c.plan).setTlg (fun (x : Tlg) => { x with pending := none })).commitDone c).retryRollback := by
  simp only [tlgCommit, hp, hd, if_true, h2]

/-- The second part of a commit is pending after the first (R324). -/
theorem tlgCommit_first {p : LedgerPlan} (h2 : c.second = some p) :
    tlgCommit s = (s.applyPlan c.plan).setTlg (fun x => { x with
      pending := some { c with ready := (s.applyPlan c.plan).dt, plan := p, second := none } }) := by
  simp only [tlgCommit, hp, hd, if_true, h2]

end

end

/-! ## Commands -/

section
variable {s : Dev} {d : Desc}

section
variable {img : HostBytes} (ho : d.object = 0) (ha : s.addrOk d (d.w64 3) (d.w 5).toNat = true)
include ho ha

theorem tlgConfig_passed (hb : s.tlgBusy = false) :
    tlgConfig d img s = s.tlgAsk (.config ((s.fetch d (d.w64 3) img).take (d.w 5).toNat)) d := by
  simp [tlgConfig, ho, ha, hb]

theorem tlgCheck_passed : tlgCheck d img s = s.tlgAsk (.check ((s.fetch d (d.w64 3) img).take (d.w 5).toNat)) d := by
  simp [tlgCheck, ho, ha]

end

theorem tlgMigrate_passed {x : Duty} (hx : s.duty (bitsOf d.object 15 0) = some x) (h0 : bitsOf d.object 31 16 = 0)
    (hid : 256 ≤ bitsOf d.object 15 0) (h1 : 1 ≤ (d.w 3).toNat) (h3 : (d.w 3).toNat ≤ 3) (h4 : bitsOf (d.w 4) 31 16 = 0)
    (hp : tbit (d.w 3).toNat 0 = true → x.primary.isSome = true)
    (hq : tbit (d.w 3).toNat 1 = true → x.standby.isSome = true) (hb : s.tlgBusy = false) :
    tlgMigrate d s = s.tlgAsk (.migrate (bitsOf d.object 15 0) (d.w 3).toNat (d.w 4).toNat) d := by
  have copies : ((!tbit (d.w 3).toNat 0 || x.primary.isSome) && (!tbit (d.w 3).toNat 1 || x.standby.isSome)) = true := by
    simp only [Bool.and_eq_true, Bool.or_eq_true, Bool.not_eq_true', ← Bool.not_eq_true, ← Decidable.imp_iff_not_or]
    exact ⟨hp, hq⟩
  simp [tlgMigrate, hx, h0, hid, Nat.not_lt.mpr h1, Nat.not_lt.mpr h3, h4, copies, hb]

theorem tlgRead_passed {x : Duty} (hx : s.dutyNamed (bitsOf d.object 15 0) = some x) (h0 : bitsOf d.object 31 16 = 0)
    (ha : s.addrOk d (d.w64 3) 64 = true) :
    tlgRead d s = (s.hostWrite d (d.w64 3) x.desc.bytes64).complete d .done s.dt
      [wordN (engineWord x), wordN x.overruns, wordN (s.jobCost x.desc false)] := by
  simp [tlgRead, hx, h0, ha]

theorem tlgList_passed (ho : d.object = 0) (ha : s.addrOk d (d.w64 3) (8 * s.allDuties.length) = true) :
    tlgList d s = (s.hostWrite d (d.w64 3) (s.allDuties.flatMap s.listEntry)).complete d .done s.dt
      [wordN s.allDuties.length] := by
  simp [tlgList, ho, ha]

end

/-! ## The rows together -/

/-- Settles O35: the ends of the analyses and the commit, then the commands, row by row. -/
theorem ledgerRowsComplete : Obligations.LedgerRowsComplete := by
  refine ⟨fun s => ⟨?_, ?_, ?_, ?_⟩, fun s d hs => ⟨?_, ?_, ?_, ?_⟩⟩
  · intro t d rest y ht hp hy
    subst hy
    have act := State.upd_eq s ledgerAnalysisComplete
    rw [ledgerAnalysisComplete_oldest ht hp] at act
    refine ⟨fun p r hv hc hr => ?_, fun p r h => Dev.tlgPend_unretained h, fun b m hb hv => ⟨?_, ?_⟩,
      fun b hb => ⟨fun p r hv => ?_, fun m hv => ?_⟩, fun b hb hv => ?_⟩
    · exact act.trans (by rw [Dev.tlgJudge_plan hv hc hr])
    · subst hb
      exact act.trans (by rw [Dev.tlgJudge_config_refuse hv])
    · exact Dev.tlgRefuse_duties m
    · subst hb
      exact act.trans (by rw [Dev.tlgJudge_check_plan hv])
    · subst hb
      exact act.trans (by rw [Dev.tlgJudge_check_refuse hv])
    · exact act.trans (by rw [Dev.tlgJudge_fused hb hv])
  · intro t d rest ht hc hp
    exact State.upd_of_fixed (ledgerAnalysisComplete_waits ht hc hp)
  · intro y ht hr hp hy
    subst hy
    exact (State.upd_eq s _).trans (by rw [ledgerAnalysisComplete_replaces ht hr hp])
  · intro c y hp hd hy
    subst hy
    refine ⟨fun h2 => ?_, fun p h2 => ?_⟩
    · exact (State.upd_eq s _).trans (by rw [tlgCommit_last hp hd h2])
    · exact (State.upd_eq s _).trans (by rw [tlgCommit_first hp hd h2])
  · intro img y h3 ho hy ha
    subst hy
    have act := State.updIn_sent hs (Dev.reads_of_d0 h3) img
    refine ⟨fun hb => ?_, ?_⟩
    · exact (act _).trans (by rw [tlgConfig_passed ho ha hb])
    · exact (act _).trans (by rw [tlgCheck_passed ho ha])
  · intro x hx h0 hid h1 h3 h4 hp hq hb
    exact (State.cmd_sent hs _).trans (by rw [State.upd_eq, tlgMigrate_passed hx h0 hid h1 h3 h4 hp hq hb])
  · intro x hx h0 ha
    exact (State.cmd_sent hs _).trans (by rw [State.upd_eq, tlgRead_passed hx h0 ha])
  · intro l hl ho ha
    subst hl
    exact (State.cmd_sent hs _).trans (by rw [State.upd_eq, tlgList_passed ho ha])

end Sys2Proof.Machine
end


section
/-! PROOFS. Dispatch and doorbells (15 R334, R335, R337, R339): what the descriptor whose turn it is comes to, that what
may not be dispatched changes nothing, and where a doorbell moves its ring's tail or head. -/
namespace Sys2Proof.Machine

section
variable {s : Dev}

/-! ## Dispatch -/

theorem Dev.charge_dt (s : Dev) (q n : Nat) : (s.charge q n).dt = s.dt := by
  obtain ⟨h, e⟩ := s.charge_frame q n
  rw [e]

section
variable {heads : List Desc} {d : Desc} {y : Dev} (he : s.dispatchEdge = true) (hn : s.nextDescriptor heads = some d)
  (hy : y = ((s.setQp d.qp { s.qp d.qp with sqHead := ((s.qp d.qp).sqHead + 1) % (s.qp d.qp).sqSize }).charge d.qp
    64).setHiu (fun h => { h with
      lastDispatch := some s.dt, turn := if (s.dispatchRank d.qp).1 = 2 then d.qp else h.turn }))
include he hn hy

/-- The descriptor whose turn it is is taken from its queue pair and charged; then an early abort, a check that fails, or
its place in flight decides (R334, R335). -/
theorem descriptorDispatch_next :
    descriptorDispatch heads s = match y.hiu.earlyAborts.find? (fun a => a.qp == d.qp && a.tag == d.tag) with
      | some a => (y.setHiu (fun h => { h with earlyAborts := h.earlyAborts.erase a })).writeCompletion d .aborted a.at_ []
      | none =>
        match y.dispatchCheck d with
        | some st => y.writeCompletion d st s.dt []
        | none => (y.setQp d.qp { y.qp d.qp with reserved := (y.qp d.qp).reserved + 2 }).setHiu (fun h => { h with
            inFlight := h.inFlight ++ [⟨d, s.dt⟩] }) := by
  have time : y.dt = s.dt := by
    rw [hy]
    exact Dev.charge_dt ..
  have found : descriptorDispatch heads s = s.dispatch d := by
    simp only [descriptorDispatch, he, hn, if_true]
  rw [found, Dev.dispatch]
  simp only [Dev.charge_dt, Dev.setQp_fields, beq_iff_eq]
  simp only [← hy, time] <;> rfl

end
end

/-- Settles O36: the descriptor whose turn it is (`descriptorDispatch_next`), by the outcome of its look-ups. -/
theorem dispatchRuns : Obligations.DispatchRuns := by
  unfold Obligations.DispatchRuns
  intro s heads d p y he hn hp hy
  subst hp
  have act := State.upd_eq s (descriptorDispatch heads)
  rw [descriptorDispatch_next he hn hy] at act
  refine ⟨fun a ha => ?_, fun ha => ⟨fun st hst => ?_, fun hst => ?_⟩⟩
  · simp only [ha] at act
    exact act
  · simp only [ha, hst] at act
    exact act
  · simp only [ha, hst] at act
    exact act

/-- No head of a ring may be dispatched, so none is next. -/
theorem Dev.nextDescriptor_of_held {s : Dev} {heads : List Desc} (h : ∀ d ∈ heads, s.canDispatch d = false) :
    s.nextDescriptor heads = none := by
  have held : heads.filter s.canDispatch = [] :=
    List.filter_eq_nil_iff.2 fun d hd => by simp [h d hd]
  rw [Dev.nextDescriptor, held]
  rfl

/-- Settles O37: without an edge nothing is dispatched, and without a descriptor that may be dispatched none is next. -/
theorem dispatchHeld : Obligations.DispatchHeld := by
  unfold Obligations.DispatchHeld
  intro s heads h
  refine State.upd_of_fixed ?_
  rcases h with h | h
  · simp [descriptorDispatch, h]
  · simp [descriptorDispatch, Dev.nextDescriptor_of_held h]

/-! ## Doorbells -/

section
variable {s : Dev} {q : Nat} {v : Word}

/-- A doorbell rings while its block is on, and while a host queue pair's is not stopped with the BAR (R330, R341). -/
theorem whenDoorbell_open (hp : s.powered 7 = true) (h : s.hiu.d3hot = false ∨ (s.qp q).isLocal = true) (f : Dev → Dev) :
    whenDoorbell q f s = f s := by
  rcases h with h | h
  · simp [whenDoorbell, whenOn, whenBar, hp, h]
  · simp [whenDoorbell, whenOn, hp, h]

theorem sqTail_within (he : (s.qp q).enabled = true) (hs : s.stopped q = false) (hv : v.toNat < (s.qp q).sqSize)
    (hr : (v.toNat + (s.qp q).sqSize - (s.qp q).sqTail) % (s.qp q).sqSize ≤
      (s.qp q).sqSize - 1 - ((s.qp q).sqTail + (s.qp q).sqSize - (s.qp q).sqHead) % (s.qp q).sqSize) :
    sqTail q v s = s.setQp q { s.qp q with sqTail := v.toNat } := by
  simp [sqTail, he, hs, Nat.not_le.mpr hv, Nat.not_lt.mpr hr]

theorem sqTail_outside (h : (s.qp q).enabled = false ∨ s.stopped q = true ∨ (s.qp q).sqSize ≤ v.toNat ∨
    (s.qp q).sqSize - 1 - ((s.qp q).sqTail + (s.qp q).sqSize - (s.qp q).sqHead) % (s.qp q).sqSize <
      (v.toNat + (s.qp q).sqSize - (s.qp q).sqTail) % (s.qp q).sqSize) : sqTail q v s = s.doorbellIgnored := by
  refine if_pos ?_
  simpa [or_assoc] using h

theorem cqHead_within (ha : (s.qp q).active = true) (hv : v.toNat < (s.qp q).cqSize)
    (hr : (v.toNat + (s.qp q).cqSize - (s.qp q).cqHead) % (s.qp q).cqSize ≤ (s.qp q).cqUsed) :
    cqHead q v s = (s.setQp q { s.qp q with cqHead := v.toNat }).flushRest q := by
  simp [cqHead, ha, Nat.not_le.mpr hv, Nat.not_lt.mpr hr]

theorem cqHead_outside (h : (s.qp q).active = false ∨ (s.qp q).cqSize ≤ v.toNat ∨
    (s.qp q).cqUsed < (v.toNat + (s.qp q).cqSize - (s.qp q).cqHead) % (s.qp q).cqSize) :
    cqHead q v s = s.doorbellIgnored := by
  refine if_pos ?_
  simpa [or_assoc] using h

theorem eqHead_within (ha : (s.qp q).active = true) (he : (s.qp q).hasEq = true) (hv : v.toNat < (s.qp q).eqSize)
    (hr : (v.toNat + (s.qp q).eqSize - (s.qp q).eqHead) % (s.qp q).eqSize ≤
      ((s.qp q).eqTail + (s.qp q).eqSize - (s.qp q).eqHead) % (s.qp q).eqSize) :
    eqHead q v s = s.setQp q { s.qp q with eqHead := v.toNat } := by
  simp [eqHead, ha, he, Nat.not_le.mpr hv, Nat.not_lt.mpr hr]

theorem eqHead_outside (h : (s.qp q).active = false ∨ (s.qp q).hasEq = false ∨ (s.qp q).eqSize ≤ v.toNat ∨
    ((s.qp q).eqTail + (s.qp q).eqSize - (s.qp q).eqHead) % (s.qp q).eqSize <
      (v.toNat + (s.qp q).eqSize - (s.qp q).eqHead) % (s.qp q).eqSize) : eqHead q v s = s.doorbellIgnored := by
  refine if_pos ?_
  simpa [or_assoc] using h

end

/-- Settles O38: each doorbell within the room of its ring, and each outside it. -/
theorem doorbellsComplete : Obligations.DoorbellsComplete := by
  unfold Obligations.DoorbellsComplete
  intro s q v p y hp hd hq hy
  subst hq hy
  have ring : ∀ f : Dev → Dev, s.upd (whenDoorbell q f) = .next (s.withDev (f s.dev)) := fun f => by
    rw [State.upd_eq, whenDoorbell_open hp hd]
  refine ⟨fun he hs hv hr => ?_, fun ha hv hr => ?_, fun ha he hv hr => ?_, fun h => ?_, fun h => ?_, fun h => ?_⟩
  · exact (ring _).trans (by rw [sqTail_within he hs hv hr])
  · exact (ring _).trans (by rw [cqHead_within ha hv hr])
  · exact (ring _).trans (by rw [eqHead_within ha he hv hr])
  · exact (ring _).trans (by rw [sqTail_outside h]; rfl)
  · exact (ring _).trans (by rw [cqHead_outside h]; rfl)
  · exact (ring _).trans (by rw [eqHead_outside h]; rfl)

end Sys2Proof.Machine
end


section
/-! PROOFS. The Host Interface Unit's events, its commands and the host-side reset (15 R330, R333, R335, R340, R342-R347). -/
namespace Sys2Proof.Machine

/-! ## Events -/

section
variable {s : Dev}

theorem msixModerationTimeout_reached {v a : Nat} (ho : (s.vec v).oldest = some a) (hm : s.fld (Reg.hiuMod v) 31 16 ≠ 0)
    (ht : a + 1000 * s.fld (Reg.hiuMod v) 31 16 ≤ s.dt) : msixModerationTimeout v s = s.msixSend v := by
  simp [msixModerationTimeout, ho, hm, ht]

section
variable {q : Nat} {d : Duty} (hd : s.creditDuty q = some d)
include hd

/-- The credit is used up, or nothing waits for it: no miss (R335). -/
theorem hiuCreditRelease_kept
    (h : d.desc.bytes ≤ kget 0 s.hiu.spent q ∨ (s.qp q).enabled = false ∨ (s.qp q).sqHead = (s.qp q).sqTail) :
    hiuCreditRelease q s = s.setHiu (fun h => { h with
      spent := kput 0 h.spent q 0, dueAt := kput none h.dueAt q (some (s.dt + d.desc.deadline)) }) := by
  have unmissed : ¬(kget 0 s.hiu.spent q < d.desc.bytes ∧ (s.qp q).enabled = true ∧ (s.qp q).sqHead ≠ (s.qp q).sqTail) := by
    rintro ⟨hlt, he, hne⟩
    rcases h with h | h | h
    · omega
    · simp [he] at h
    · exact hne h
  simp only [hiuCreditRelease, hd, if_neg unmissed]

/-- Credit is left while descriptors wait: a miss (R335). -/
theorem hiuCreditRelease_missed {y : Dev} (hlt : kget 0 s.hiu.spent q < d.desc.bytes) (he : (s.qp q).enabled = true)
    (hne : (s.qp q).sqHead ≠ (s.qp q).sqTail)
    (hy : y = (s.setHiu (fun h => { h with dlMiss := satInc 32 h.dlMiss })).event 1 6 3 q s.dt
      [d.desc.id, d.desc.bytes - kget 0 s.hiu.spent q]) (ht : y.dt = s.dt) :
    hiuCreditRelease q s = y.setHiu (fun h => { h with
      spent := kput 0 h.spent q 0, dueAt := kput none h.dueAt q (some (s.dt + d.desc.deadline)) }) := by
  simp only [hiuCreditRelease, hd]
  rw [if_pos ⟨hlt, he, hne⟩, ← hy, ht]

end

theorem qpDrainComplete_empty {q : Nat} {r : Drain} (hr : (s.qp q).draining = some r) (hw : (s.qp q).flushWait = [])
    (hf : s.hiu.inFlight.any (fun e => e.desc.qp == q) = false) :
    qpDrainComplete q s =
      (s.setQp q { s.qp q with draining := none }).completeOpt r.desc .done r.tx [wordN r.flushed, wordN r.inFlight] := by
  simp [qpDrainComplete, hr, hw, hf]

/-! The link (R330, R347). -/

theorem hiuLink_up {w width rate : Nat} {y : Dev} (hw : width = min w s.lanes)
    (hy : y = s.setHiu (fun h => { h with linkUp := true, linkWidth := width, linkRate := rate }))
    (hp : s.pmu.peWake = false) :
    hiuLink true w rate s = (y.event 1 4 1 0xFF s.dt [1, width, rate, s.hiu.discarded]).setHiu
      (fun h => { h with discarded := 0 }) := by
  subst hw hy
  simp [hiuLink, hp]

theorem hiuLink_wake {w width rate : Nat} {y : Dev} (hw : width = min w s.lanes)
    (hy : y = s.setHiu (fun h => { h with linkUp := true, linkWidth := width, linkRate := rate }))
    (hp : s.pmu.peWake = true) :
    hiuLink true w rate s = (((({ y with pmu := { y.pmu with peWake := false } } : Dev).emit (.pin .peWakeN true)).event
      1 4 1 0xFF s.dt [1, width, rate, s.hiu.discarded]).setHiu (fun h => { h with discarded := 0 })) := by
  subst hw hy
  simp [hiuLink, hp]

theorem hiuLink_down {width rate : Nat} {y : Dev}
    (hy : y = s.setHiu (fun h => { h with linkUp := false, linkWidth := 0, linkRate := 0 })) :
    hiuLink false width rate s = if s.hiu.linkUp = true then hostSideReset y else y := by
  subst hy
  simp [hiuLink]

/-! Queue pair 0 (R333). -/

section
variable {v : Word} {queued : List Desc} {w : Word} (hw : w = writeBits (s.reg Reg.hiuAqCtrl) v 0x1F1F3F 0)
include hw

section
variable (h0 : bitOf (s.reg Reg.hiuAqCtrl) 0 = false) {y : Dev} (hy : y = s.setReg Reg.hiuAqCtrl (setBitsOf w 0 0 0))
include h0 hy

theorem hiuAqCtrlWrite_start (h1 : bitOf w 0 = true) (hr : y.adminPair.ringsOk = true) (ha : (y.qp 0).active = false) :
    hiuAqCtrlWrite v queued s = (y.setReg Reg.hiuAqCtrl w).setQp 0 y.adminPair.started := by
  subst hy
  simp only [hiuAqCtrlWrite, ← hw, h0, h1, hr, ha, Bool.not_false, Bool.and_self, if_true, Bool.false_eq_true, if_false]

theorem hiuAqCtrlWrite_badRings (h1 : bitOf w 0 = true) (h : y.adminPair.ringsOk = false ∨ (y.qp 0).active = true) :
    hiuAqCtrlWrite v queued s = y.configIgnored := by
  have bad : (y.adminPair.ringsOk && !(y.qp 0).active) = false := by
    rcases h with h | h <;> simp [h]
  subst hy
  simp only [hiuAqCtrlWrite, ← hw, h0, h1, bad, if_true, Bool.false_eq_true, if_false]

theorem hiuAqCtrlWrite_setUp (h1 : bitOf w 0 = false) : hiuAqCtrlWrite v queued s = y := by
  subst hy
  simp only [hiuAqCtrlWrite, ← hw, h0, h1, Bool.false_eq_true, if_false]

end

section
variable (h0 : bitOf (s.reg Reg.hiuAqCtrl) 0 = true) {y : Dev}
  (hy : y = if Nat.land (s.reg Reg.hiuAqCtrl ^^^ w).toNat 0x1F1F3E ≠ 0 then s.configIgnored else s)
include h0 hy

theorem hiuAqCtrlWrite_kept (h1 : bitOf w 0 = true) : hiuAqCtrlWrite v queued s = y := by
  simp only [hiuAqCtrlWrite, ← hw, h0, h1, if_true, ← hy]

theorem hiuAqCtrlWrite_busy (h1 : bitOf w 0 = false) (ho : y.othersActive = true) :
    hiuAqCtrlWrite v queued s = y.configIgnored := by
  simp only [hiuAqCtrlWrite, ← hw, h0, h1, if_true, ← hy, ho, Bool.false_eq_true, if_false]

theorem hiuAqCtrlWrite_disable (h1 : bitOf w 0 = false) (ho : y.othersActive = false) :
    hiuAqCtrlWrite v queued s =
      (y.setReg Reg.hiuAqCtrl (setBitsOf (s.reg Reg.hiuAqCtrl) 0 0 0)).startDrain 0 y.dt queued none := by
  simp only [hiuAqCtrlWrite, ← hw, h0, h1, if_true, ← hy, ho, Bool.false_eq_true, if_false]

end
end
end

/-- Settles O39: each event by the lemma about its meaning. -/
theorem hiuEventsComplete : Obligations.HiuEventsComplete := by
  unfold Obligations.HiuEventsComplete
  intro s hp
  have bar : s.dev.hiu.d3hot = false → ∀ f : Dev → Dev, s.upd (whenBar f) = .next (s.withDev (f s.dev)) :=
    fun hd f => State.upd_bar hp hd f
  refine ⟨fun v a ho hm ht => ?_, fun v addr data y hd hy => ?_, fun q d f hc hf => ⟨fun h => ?_, fun y hlt he hne hy ht => ?_⟩,
    fun q r p hq hr hw hi => ?_, fun w width rate y hw hy => ⟨fun hk => ?_, fun hk => ?_⟩, fun width rate y hy => ?_, ?_, ?_,
    fun v queued w y hd h0 hw hy => ⟨fun h1 hr ha => ?_, fun h1 h => ?_, fun h1 => ?_⟩,
    fun v queued w y hd h0 hw hy => ⟨fun h1 => ?_, fun h1 ho => ?_, fun h1 ho => ?_⟩⟩
  · exact (State.upd_on hp _).trans (by rw [msixModerationTimeout_reached ho hm ht])
  · subst hy
    exact bar hd _
  · subst hf
    exact (State.upd_on hp _).trans (by rw [hiuCreditRelease_kept hc h])
  · subst hf
    exact (State.upd_on hp _).trans (by rw [hiuCreditRelease_missed hc hlt he hne hy ht])
  · subst hq
    exact (State.upd_on hp _).trans (by rw [qpDrainComplete_empty hr hw hi])
  · exact (State.upd_on hp _).trans (by rw [hiuLink_up hw hy hk])
  · exact (State.upd_on hp _).trans (by rw [hiuLink_wake hw hy hk])
  · exact (State.upd_on hp _).trans (by rw [hiuLink_down hy])
  · exact State.upd_on hp _
  · exact State.upd_on hp _
  · exact (bar hd _).trans (by rw [hiuAqCtrlWrite_start hw h0 hy h1 hr ha])
  · exact (bar hd _).trans (by rw [hiuAqCtrlWrite_badRings hw h0 hy h1 h]; rfl)
  · exact (bar hd _).trans (by rw [hiuAqCtrlWrite_setUp hw h0 hy h1])
  · exact (bar hd _).trans (by rw [hiuAqCtrlWrite_kept hw h0 hy h1])
  · exact (bar hd _).trans (by rw [hiuAqCtrlWrite_busy hw h0 hy h1 ho]; rfl)
  · exact (bar hd _).trans (by rw [hiuAqCtrlWrite_disable hw h0 hy h1 ho])

/-! ## The host-side reset (R347) -/

section
variable {α : Type} [DecidableEq α] (d : α) (g : α → α)

/-- Entries from key `lo` up, written again in another table, leave the keys below. -/
theorem kget_foldl_kput_below : ∀ (m : KMap α) (lo : Nat) (acc : KMap α) (k : Nat), kwfFrom d lo m = true → k < lo →
    kget d (m.foldl (fun a x => kput d a x.1 (g x.2)) acc) k = kget d acc k
  | [], _, _, _, _, _ => rfl
  | (i, v) :: t, lo, acc, k, hw, hk => by
    simp only [kwfFrom, Bool.and_eq_true, decide_eq_true_eq] at hw
    obtain ⟨⟨hlo, -⟩, ht⟩ := hw
    rw [List.foldl_cons, kget_foldl_kput_below t (i + 1) _ k ht (by omega), kget_kput_other d _ (by omega)]

/-- The entries of a table, changed by `g` and written in another: a key reads its changed value, or it was not listed
and reads as before. -/
theorem kget_foldl_kput : ∀ (m : KMap α) (lo : Nat) (acc : KMap α) (k : Nat), kwfFrom d lo m = true →
    kget d (m.foldl (fun a x => kput d a x.1 (g x.2)) acc) k = g (kget d m k) ∨
      kget d m k = d ∧ kget d (m.foldl (fun a x => kput d a x.1 (g x.2)) acc) k = kget d acc k
  | [], _, _, _, _ => .inr ⟨rfl, rfl⟩
  | (i, v) :: t, lo, acc, k, hw => by
    simp only [kwfFrom, Bool.and_eq_true, decide_eq_true_eq] at hw
    rw [List.foldl_cons]
    by_cases hi : i = k
    · subst hi
      left
      rw [kget_foldl_kput_below d g t (i + 1) _ i hw.2 (by omega), kget_kput_same, kget, if_pos rfl]
    · rw [kget, if_neg hi]
      have rest := kget_foldl_kput t (i + 1) (kput d acc i (g v)) k hw.2
      rwa [kget_kput_other d _ (Ne.symm hi)] at rest

end

/-- A queue pair after a host-side reset. -/
def QPair.afterReset (p : QPair) : QPair := if p.isLocal then p else p.hostReset

/-- A queue pair after a host-side reset is the one before it, reset unless it is LOCAL; one not listed stays unlisted. -/
theorem Dev.qp_resetPairs {s : Dev} (h : kwf QPair.reset s.hiu.qps = true) (q : Nat) :
    kget .reset s.resetPairs q = (s.qp q).afterReset ∨ s.qp q = .reset ∧ kget .reset s.resetPairs q = .reset :=
  kget_foldl_kput QPair.reset QPair.afterReset s.hiu.qps 0 [] q h

theorem Dev.qp_resetPairs_host {s : Dev} (h : kwf QPair.reset s.hiu.qps = true) {q : Nat} (hl : (s.qp q).isLocal = false) :
    (kget .reset s.resetPairs q).enabled = false ∧ (kget .reset s.resetPairs q).draining = none := by
  rcases Dev.qp_resetPairs h q with e | ⟨-, e⟩
  · rw [e, QPair.afterReset, hl]
    exact ⟨rfl, rfl⟩
  · rw [e]
    exact ⟨rfl, rfl⟩

theorem Dev.qp_resetPairs_local {s : Dev} (h : kwf QPair.reset s.hiu.qps = true) {q : Nat} (hl : (s.qp q).isLocal = true) :
    kget .reset s.resetPairs q = s.qp q := by
  rcases Dev.qp_resetPairs h q with e | ⟨hr, e⟩
  · rw [e, QPair.afterReset, if_pos hl]
  · rw [e, hr]

/-- Registers set to their reset values are the configuration's, and nothing else changes. -/
theorem Dev.foldl_setReg_frame (l : List Nat) :
    ∀ s : Dev, ∃ m, l.foldl (fun s r => s.setReg r (regReset r)) s = { s with cfg := m } := by
  induction l with
  | nil => exact fun s => ⟨_, rfl⟩
  | cons r l ih =>
    intro s
    obtain ⟨m, e⟩ := ih (s.setReg r (regReset r))
    exact ⟨m, e⟩

/-- What a host-side reset leaves: the host interface and registers change, and nothing else. -/
theorem hostSideReset_frame (s : Dev) : ∃ m n k l f e, hostSideReset s = { s with
    cfg := m
    hiu := { s.hiu with
      lostCpl := n, discarded := k, evDrop := satAdd 16 s.hiu.evDrop (s.hiu.held.filter Output.isEvent).length,
      qps := s.resetPairs, held := [], fates := f, inFlight := s.hiu.inFlight.filter (fun e => (s.qp e.desc.qp).isLocal),
      orphans := s.hiu.orphans ++ s.hiu.inFlight.filter
        (fun e => !(s.qp e.desc.qp).isLocal && !s.endedDisables.any (·.same e.desc)),
      earlyAborts := e, vectors := [], dropRuns := l, ifver := 0, d3hot := false, ltrOn := false, ltrSnoop := 0,
      ltrNoSnoop := 0 } } := by
  unfold hostSideReset
  dsimp only
  generalize [Reg.hiuAqCtrl, Reg.hiuAqSqbaseLo, Reg.hiuAqSqbaseHi, Reg.hiuAqCqbaseLo, Reg.hiuAqCqbaseHi,
    Reg.hiuAqEqbaseLo, Reg.hiuAqEqbaseHi, Reg.hiuAqVec, Reg.hiuEvroute0, Reg.hiuEvroute1, Reg.hiuEvroute2,
    Reg.hiuEvroute3] = regs
  obtain ⟨m, e⟩ := Dev.foldl_setReg_frame regs _
  rw [e]
  exact ⟨m, _, _, _, _, _, rfl⟩

/-- Settles O40: the queue pairs by `Dev.qp_resetPairs`, what is in flight by its queue pair; the rest is as written. -/
theorem hostSideResetDisables : Obligations.HostSideResetDisables := by
  unfold Obligations.HostSideResetDisables
  intro s hp
  obtain ⟨m, n, k, l, f, e, reset⟩ := hostSideReset_frame s.dev
  have act := State.upd_on hp hostSideReset
  rw [reset] at act
  refine ⟨_, act, rfl, rfl, rfl, fun hk => ⟨fun q hl => ?_, fun q hl => ?_⟩, fun e => ?_,
    fun e he hl hd => ?_, rfl, rfl, rfl, rfl, rfl, rfl⟩
  · exact Dev.qp_resetPairs_host hk hl
  · exact Dev.qp_resetPairs_local hk hl
  · exact List.mem_filter
  · refine List.mem_append_right _ (List.mem_filter.2 ⟨he, ?_⟩)
    rw [hl, hd]
    rfl

/-! ## Commands -/

section
variable {s : Dev} {d : Desc}

/-- The version HIU_HELLO answers is the highest in both ranges, or the one in force (R342). -/
theorem hiuHello_agreed {v : Nat} {y : Dev} (ho : d.object = 0) (hq : d.qp = 0)
    (hv : s.hiu.ifver = 0 ∧ v = 3 ∧ bitsOf (d.w 3) 7 0 ≤ 3 ∧ 3 ≤ bitsOf (d.w 3) 15 8 ∨
      s.hiu.ifver = 0 ∧ v = 2 ∧ bitsOf (d.w 3) 7 0 ≤ 2 ∧ bitsOf (d.w 3) 15 8 = 2 ∨
      s.hiu.ifver = v ∧ v ≠ 0 ∧ bitsOf (d.w 3) 7 0 ≤ v ∧ v ≤ bitsOf (d.w 3) 15 8)
    (hy : y = (s.setHiu (fun h => { h with ifver := v })).event 1 2 4 0 (s.dispatchedAt d) [v, bitsOf (d.w 3) 15 0]) :
    hiuHello d s = y.complete d .done (y.dispatchedAt d) [wordN v, 2, 3] := by
  have agreed : v = (if s.hiu.ifver ≠ 0 then
      (if bitsOf (d.w 3) 7 0 ≤ s.hiu.ifver ∧ s.hiu.ifver ≤ bitsOf (d.w 3) 15 8 then s.hiu.ifver else 0)
      else if bitsOf (d.w 3) 7 0 ≤ 3 ∧ 3 ≤ bitsOf (d.w 3) 15 8 then 3
      else if bitsOf (d.w 3) 7 0 ≤ 2 ∧ 2 ≤ bitsOf (d.w 3) 15 8 then 2 else 0) := by
    rcases hv with ⟨h0, rfl, hlo, hhi⟩ | ⟨h0, rfl, hlo, hhi⟩ | ⟨rfl, h0, hlo, hhi⟩
    · simp [h0, hlo, hhi]
    · simp [h0, hlo, hhi]
    · simp [h0, hlo, hhi]
  have valid : v ≠ 0 := by
    rcases hv with ⟨-, rfl, -⟩ | ⟨-, rfl, -⟩ | ⟨-, h, -⟩
    · decide
    · decide
    · exact h
  have fresh : ¬(d.object ≠ 0 ∨ d.qp ≠ 0) := by simp [ho, hq]
  unfold hiuHello
  simp only [if_neg fresh]
  rw [← agreed, if_pos valid, if_neg valid]
  subst hy
  rfl

section
variable {q : Nat} (hq : qpObject d = some q)
include hq

theorem hiuQpConfig_passed (ha : (s.qp q).active = false) (hr : (configPair d).ringsOk = true)
    (he : (configPair d).eqBase ≠ 0 → sizeOk (configPair d).eqLog = true) (hl : (configPair d).localOk = true)
    (hz : Nat.land (d.w 9).toNat 0xFEE0E0E0 = 0) (hv : bitsOf (d.w 10) 31 16 = 0) :
    hiuQpConfig d s = (s.setQp q { configPair d with era := (s.qp q).era }).complete d .done (s.dispatchedAt d) [] := by
  have size : ((configPair d).eqBase != 0 && !sizeOk (configPair d).eqLog) = false := by
    by_cases h : (configPair d).eqBase = 0
    · simp [h]
    · simp [he h]
  have clear : (d.w 9).toNat &&& 0xFEE0E0E0 = 0 := hz
  simp [hiuQpConfig, hq, ha, hr, size, hl, clear, hv]

theorem hiuQpEnable_passed (hc : (s.qp q).configured = true) (ha : (s.qp q).active = false) :
    hiuQpEnable d s = (s.setQp q (s.qp q).started).complete d .done (s.dispatchedAt d) [] := by
  simp [hiuQpEnable, hq, hc, ha]

theorem hiuQpDisable_idle {queued : List Desc} (hd : (s.qp q).draining = none) (he : (s.qp q).enabled = false) :
    hiuQpDisable d queued s = s.complete d .done (s.dispatchedAt d) [0, 0] := by
  simp [hiuQpDisable, hq, hd, he]

theorem hiuQpDisable_enabled {queued : List Desc} (hd : (s.qp q).draining = none) (he : (s.qp q).enabled = true) :
    hiuQpDisable d queued s = s.startDrain q (s.dispatchedAt d) queued (some d) := by
  simp [hiuQpDisable, hq, hd, he]

theorem hiuQpStatus_named : hiuQpStatus d s = s.complete d .done (s.dispatchedAt d)
    [wordN (b2n (s.qp q).enabled + 2 * b2n (s.qp q).draining.isSome), wordN (s.qp q).sqHead, wordN (s.qp q).sqTail,
     wordN (s.qp q).cqTail, wordN (s.qp q).eqTail, wordN (s.qp q).reserved] := by
  simp only [hiuQpStatus, hq]

end

/-! HIU_ABORT past its checks, from the instant after its dispatch on (R345, R346). -/

section
variable {q t : Nat} {tag : Word} {y : Dev} {queued : List Desc} (ho : d.object = 0) (hz : bitsOf (d.w 3) 31 7 = 0)
  (hq : q = bitsOf (d.w 3) 6 0) (hq95 : q ≤ 95) (htag : tag = d.w 4) (ht : t = s.dispatchedAt d) (hlate : t < s.dt)
  (hy : y = s.dropFate d)
include ho hz hq hq95 htag ht hlate hy

/-- The target is in flight: `abortDispatched` decides. -/
theorem hiuAbort_dispatched {e : InFlight} (he : y.hiu.inFlight.find? (fun e => e.desc.qp == q && e.desc.tag == tag) = some e)
    (hop : e.desc.opcode ≠ 0x0106) : hiuAbort d queued s = (y.abortDispatched e.desc d t).dropFate d := by
  subst hq htag ht hy
  have named : ¬(d.object ≠ 0 ∨ bitsOf (d.w 3) 31 7 ≠ 0 ∨ 95 < bitsOf (d.w 3) 6 0) := by
    simp [ho, hz, hq95]
  unfold hiuAbort
  simp only [if_neg (Nat.not_le.2 hlate), if_neg named, he, if_neg hop]

/-- The target completed since the abort was accepted. -/
theorem hiuAbort_completed {st : Status}
    (he : y.hiu.inFlight.find? (fun e => e.desc.qp == q && e.desc.tag == tag) = none) (hf : s.fateOf d = some st) :
    hiuAbort d queued s = y.complete d .abortTooLate t [0, wordN st.code] := by
  subst hq htag ht hy
  have named : ¬(d.object ≠ 0 ∨ bitsOf (d.w 3) 31 7 ≠ 0 ∨ 95 < bitsOf (d.w 3) 6 0) := by
    simp [ho, hz, hq95]
  unfold hiuAbort
  simp only [if_neg (Nat.not_le.2 hlate), if_neg named, he, hf]

section
variable {n : Nat} (he : y.hiu.inFlight.find? (fun e => e.desc.qp == q && e.desc.tag == tag) = none)
  (hf : s.fateOf d = none)
  (hn : n = if (y.qp q).enabled = true then ((y.qp q).sqTail + (y.qp q).sqSize - (y.qp q).sqHead) % (y.qp q).sqSize else 0)
include he hf hn

/-- The target is neither in flight nor completed: it waits in its ring, was flushed, or is unknown. -/
theorem hiuAbort_undispatched :
    hiuAbort d queued s = match ((y.queuedOf q queued).take n).find? (fun e => e.tag == tag),
        (y.qp q).flushedTags.find? (fun f => f.1 == tag && decide (f.2 ≤ t)) with
      | some e, _ =>
        if e.opcode = 0x0106 then y.fail d .badDescriptor
        else (y.keepAbort ⟨q, tag, t⟩).complete d .abortApplied t [0, 8]
      | none, some _ => y.complete d .abortTooLate t [0, 0x0B]
      | none, none => y.complete d .abortTooLate t [1, 0xFFFFFFFF] := by
  subst hq htag ht hy
  have named : ¬(d.object ≠ 0 ∨ bitsOf (d.w 3) 31 7 ≠ 0 ∨ 95 < bitsOf (d.w 3) 6 0) := by
    simp [ho, hz, hq95]
  subst hn
  unfold hiuAbort
  simp only [if_neg (Nat.not_le.2 hlate), if_neg named, he, hf] <;> rfl

end
end
end

/-- Settles O41: each command by the lemma about its meaning; an abort by where its target stands. -/
theorem hiuCommandsComplete : Obligations.HiuCommandsComplete := by
  unfold Obligations.HiuCommandsComplete
  intro s d hp hs
  have sent : ∀ f : Dev → Dev, s.cmd d (whenOn 7 f) = .next (s.withDev (f s.dev)) := fun f => State.cmd_on hp hs f
  refine ⟨fun v y ho hq hv hy => ?_, fun q p hq hp => ?_, fun q tag t y queued ho hz hq hq95 htag ht hlate hy => ?_⟩
  · exact (sent _).trans (by rw [hiuHello_agreed ho hq hv hy])
  · subst hp
    refine ⟨fun n hn ha hr he hl hz hv => ?_, fun hc ha => ?_, fun queued hd he => ?_, fun queued hd he => ?_, ?_⟩
    · subst hn
      exact (sent _).trans (by rw [hiuQpConfig_passed hq ha hr he hl hz hv])
    · exact (sent _).trans (by rw [hiuQpEnable_passed hq hc ha])
    · exact (sent _).trans (by rw [hiuQpDisable_idle hq hd he])
    · exact (sent _).trans (by rw [hiuQpDisable_enabled hq hd he])
    · exact (sent _).trans (by rw [hiuQpStatus_named hq])
  · have time : y.dt = s.dev.dt := by
      rw [hy]
      rfl
    refine ⟨fun e he hop => ?_, fun he => ⟨fun st hf => ?_, fun p n f hf hpq hn hfind => ?_⟩⟩
    · have act := (sent (hiuAbort d queued)).trans
        (by rw [hiuAbort_dispatched ho hz hq hq95 htag ht hlate hy he hop, Dev.abortDispatched])
      refine ⟨fun z h => act.trans ?_, fun z h => act.trans ?_, fun h => act.trans ?_⟩
      · rw [h, time]
      · rw [h, time]
      · rw [h]
    · exact (sent _).trans (by rw [hiuAbort_completed ho hz hq hq95 htag ht hlate hy he hf])
    · subst hpq
      have act := (sent (hiuAbort d queued)).trans
        (by rw [hiuAbort_undispatched ho hz hq hq95 htag ht hlate hy he hf hn, ← hfind])
      refine ⟨fun e hf' hop => act.trans ?_, fun hf' hflush => act.trans ?_, fun hf' hflush => act.trans ?_⟩
      · simp only [hf', if_neg hop]
      · obtain ⟨e, hmem, htag', hle⟩ := hflush
        have found : ((y.qp q).flushedTags.find? (fun f => f.1 == tag && decide (f.2 ≤ t))).isSome = true := by
          rw [List.find?_isSome]
          exact ⟨e, hmem, by simp [htag', hle]⟩
        obtain ⟨g, hg⟩ := Option.isSome_iff_exists.1 found
        simp only [hf', hg]
      · have unflushed : (y.qp q).flushedTags.find? (fun f => f.1 == tag && decide (f.2 ≤ t)) = none := by
          rw [List.find?_eq_none]
          intro e hmem
          simpa using hflush e hmem
        simp only [hf', unflushed]

end Sys2Proof.Machine
end


section
/-! PROOFS. The block as a whole: its queue of commands, the state after reset, what a command writes for its submitter
and the registers of fused-off resources (00, 15 R341, 19 R418, R423). -/
namespace Sys2Proof.Machine

/-! ## The queue of commands -/

/-- Every command is answered with a next state, and leaves the queue. -/
theorem exec_next (c : Instr) (s : State) : ∃ y, exec c s = .next (s.withDev y) := by
  cases c <;> exact ⟨_, rfl⟩

theorem step_cons (c : Instr) (s : State) : step { s with pending := c :: s.pending } = exec c s := rfl

theorem step_of_empty {s : State} (h : s.pending = []) : step s = .next (s.withDev s.dev.nanosecond) := by
  rw [step, h, State.upd_eq]

/-- Settles O53: a step looks at the front of the queue alone. -/
theorem stepRunsTheFrontCommand : Obligations.StepRunsTheFrontCommand := by
  unfold Obligations.StepRunsTheFrontCommand
  exact ⟨step_cons, fun s h => step_of_empty h⟩

/-- A step goes on, and takes the first command from the queue, when one waits. -/
theorem step_drops (s : State) : ∃ t, step s = .next t ∧ t.pending = s.pending.drop 1 := by
  obtain ⟨dev, pending⟩ := s
  cases pending with
  | nil => exact ⟨_, rfl, rfl⟩
  | cons c rest =>
    obtain ⟨y, e⟩ := exec_next c ⟨dev, rest⟩
    exact ⟨_, e, rfl⟩

/-- A run whose first step goes on is that step and the rest of the run. -/
theorem run_succ_of_step {M : Host.Core} {s t : M.State} (h : M.step s = .next t) (k : Nat) :
    M.run (k + 1) s = M.run k t := by
  rw [Host.Core.run, h]

/-- Settles O54, by induction on the number of steps. -/
theorem queueDrainsInOrder : Obligations.QueueDrainsInOrder := by
  unfold Obligations.QueueDrainsInOrder
  intro s k
  induction k generalizing s with
  | zero => exact ⟨s, rfl, rfl⟩
  | succ k ih =>
    obtain ⟨t, stepped, ht⟩ := step_drops s
    obtain ⟨u, run, hu⟩ := ih t
    exact ⟨u, (run_succ_of_step (M := core) stepped k).trans run, by rw [hu, ht, List.drop_drop, Nat.add_comm]⟩

/-! ## The state after reset (19 R423) -/

/-- Settles O56: each part of the reset state as it is written. -/
theorem resetState : Obligations.ResetState := by
  unfold Obligations.ResetState
  exact ⟨rfl, rfl, rfl, rfl, fun _ => rfl, rfl, rfl, fun _ => rfl, rfl, rfl, fun _ => ⟨rfl, rfl⟩, rfl, rfl, rfl, rfl, rfl,
    fun _ => rfl, fun _ => rfl⟩

/-! ## What a command writes for its submitter (15 R341) -/

/-- A store of bytes reads back. -/
theorem Dev.sramByte_setSramBytes_inside (l : List Byte) :
    ∀ (s : Dev) (a k : Nat), a ≤ k → k < a + l.length → (s.setSramBytes a l).sramByte k = l.getD (k - a) 0 := by
  induction l with
  | nil =>
    intro s a k hl hr
    simp only [List.length_nil] at hr
    omega
  | cons b t ih =>
    intro s a k hl hr
    simp only [List.length_cons] at hr
    rw [Dev.setSramBytes]
    by_cases h : k = a
    · subst h
      rw [Dev.sramByte_setSramBytes_outside t _ _ _ (by omega), Dev.sramByte_setSramByte_same, Nat.sub_self,
        List.getD_cons_zero]
    · rw [ih _ _ _ (by omega) (by omega), show k - a = (k - (a + 1)) + 1 by omega, List.getD_cons_succ]

/-- A charge to a queue pair's credit counts bytes and changes nothing else (15 R335). -/
theorem Dev.charge_spent (s : Dev) (q n : Nat) : ∃ m, s.charge q n = s.setHiu (fun h => { h with spent := m }) := by
  unfold Dev.charge
  split
  · exact ⟨_, rfl⟩
  · exact ⟨s.hiu.spent, rfl⟩

theorem Dev.hostWrite_local {s : Dev} {d : Desc} (h : s.isLocal d = true) (a : Nat) (b : List Byte) :
    ∃ m, s.hostWrite d a b = (s.setSramBytes a b).setHiu (fun h => { h with spent := m }) := by
  obtain ⟨m, e⟩ := (s.setSramBytes a b).charge_spent d.qp b.length
  exact ⟨m, by rw [Dev.hostWrite, if_pos h, e]⟩

theorem Dev.hostWrite_host {s : Dev} {d : Desc} (h : s.isLocal d = false) (a : Nat) (b : List Byte) :
    ∃ m, s.hostWrite d a b = (s.toHost (.hostWrite a b)).setHiu (fun h => { h with spent := m }) := by
  obtain ⟨m, e⟩ := (s.toHost (.hostWrite a b)).charge_spent d.qp b.length
  exact ⟨m, by rw [Dev.hostWrite, if_neg (by simp [h]), e]⟩

/-- Settles O58: the bytes go to the window of the SRAM (`Dev.hostWrite_local`) or toward the host (`Dev.hostWrite_host`). -/
theorem hostWriteBytes : Obligations.HostWriteBytes := by
  unfold Obligations.HostWriteBytes
  intro s d a b
  refine ⟨fun h => ?_, fun h => ?_⟩
  · obtain ⟨m, e⟩ := Dev.hostWrite_local h a b
    rw [e]
    refine ⟨fun k hl hr => ?_, fun k ho => ?_, ?_⟩
    · exact Dev.sramByte_setSramBytes_inside b s a k hl hr
    · exact Dev.sramByte_setSramBytes_outside b s a k ho
    · obtain ⟨n, f⟩ := Dev.setSramBytes_frame b s a
      rw [f]
      rfl
  · obtain ⟨m, e⟩ := Dev.hostWrite_host h a b
    rw [e]
    refine ⟨Dev.toHost_sram s _, fun hd => ?_, fun hd => ?_⟩
    · rw [Dev.toHost, hd]
      exact ⟨rfl, rfl⟩
    · rw [Dev.toHost, hd]
      exact ⟨rfl, rfl⟩

/-! ## Fused-off resources (19 R418) -/

section
variable {s : Dev} {off : Nat}

theorem Dev.readReg_absent (h : s.regAbsent off = true) : s.readReg off = 0 := by
  unfold Dev.readReg
  split
  · rfl
  · exact if_pos h

theorem Dev.writeReg_absent (h : s.regAbsent off = true) (v : Word) (queued : List Desc) : s.writeReg off v queued = s := by
  unfold Dev.writeReg
  split
  · rfl
  · exact if_pos h

/-- The registers that an aligned 32-bit or 64-bit access touches. -/
theorem Dev.regAbsent_of_all {size i : Nat} (hoff : off % 4 = 0) (hi : 4 * i < size) (h : s.allAbsent off size = true) :
    s.regAbsent (off + 4 * i) = true := by
  have word := List.all_eq_true.1 h i (List.mem_range.2 (by omega))
  rwa [show off / 4 * 4 + 4 * i = off + 4 * i by omega] at word

/-- A write that touches nothing but registers of fused-off resources, whole, in halves or neither. -/
theorem registerWrite_absent {size : Nat} (h : s.allAbsent off size = true) (v : BitVec 64) (queued : List Desc) :
    registerWrite off size v queued s = s := by
  have lower : off % 4 = 0 → 0 < size → s.regAbsent off = true := fun ho hs => Dev.regAbsent_of_all (i := 0) ho hs h
  have upper : off % 4 = 0 → 4 < size → s.regAbsent (off + 4) = true := fun ho hs => Dev.regAbsent_of_all (i := 1) ho hs h
  rw [registerWrite, if_pos h]
  split
  · next hw => exact Dev.writeReg_absent (lower hw.1 (by omega)) _ _
  · split
    · next hw => rw [Dev.writeReg_absent (lower hw.1 (by omega)), Dev.writeReg_absent (upper hw.1 (by omega))]
    · rfl

end

/-- Settles O52: a read and a write of an absent register, and every write that touches no other. -/
theorem absentRegisters : Obligations.AbsentRegisters := by
  unfold Obligations.AbsentRegisters
  refine ⟨fun s off v q h => ⟨Dev.readReg_absent h, Dev.writeReg_absent h v q⟩, fun s off size v q ho h => ?_⟩
  refine State.upd_of_fixed ?_
  rw [hostSpaceWrite, if_pos ho, whenBar, registerWrite_absent h]
  exact ite_self _

end Sys2Proof.Machine
end


section
/-! PROOFS. What the host writes and reads in BAR0, BAR2 and the configuration space (19 R416-R421, 15 R350). -/
namespace Sys2Proof.Machine

section
variable {s : Dev} {off : Nat}

/-! ## Writes -/

theorem hostSpaceWrite_bar0 (hp : s.powered 7 = true) (hd : s.hiu.d3hot = false) (ho : off < bar2At) (size : Nat)
    (v : BitVec 64) (queued : List Desc) : hostSpaceWrite off size v queued s = registerWrite off size v queued s := by
  simp [hostSpaceWrite, ho, whenBar, hp, hd]

theorem registerWrite_word (h : off % 4 = 0) (v : BitVec 64) (queued : List Desc) :
    registerWrite off 4 v queued s = s.writeReg off (lo64 v.toNat) queued := by
  simp [registerWrite, h]

theorem registerWrite_pair (h : off % 4 = 0) (v : BitVec 64) (queued : List Desc) :
    registerWrite off 8 v queued s =
      (s.writeReg off (lo64 v.toNat) queued).writeReg (off + 4) (hi64 v.toNat) queued := by
  simp [registerWrite, h]

theorem registerWrite_other {size : Nat} (h : off % 4 ≠ 0 ∨ (size ≠ 4 ∧ size ≠ 8)) (ha : s.allAbsent off size = false)
    (v : BitVec 64) (queued : List Desc) : registerWrite off size v queued s = s.configIgnored := by
  have whole : ¬(off % 4 = 0 ∧ size = 4) := by omega
  have halves : ¬(off % 4 = 0 ∧ size = 8) := by omega
  simp [registerWrite, whole, halves, ha]

/-- A register without a row of its own takes a plain write (R417). -/
theorem Dev.writeReg_plain {r : RegDef} (hr : regDef? off = some r) (ha : s.regAbsent off = false)
    (hb : r.base ∉ [0x48, 0x3000, 0x3200, 0x3800, 0x5010, 0x6000, 0x9000, 0xA000, 0xA600]) (hw : r.wl = 0)
    (hq : ¬(0x50 ≤ off ∧ off ≤ 0x68)) (v : Word) (queued : List Desc) : s.writeReg off v queued = s.plainWrite r off v := by
  simp only [List.mem_cons, List.not_mem_nil, or_false, not_or] at hb
  obtain ⟨aq, quad, ssi, cpf, -, hwk, stl, can, spi⟩ := hb
  unfold Dev.writeReg
  -- the rows with a rule of their own are those of the bases excluded
  simp only [hr, ha, Bool.false_eq_true, if_false]
  rw [if_neg (not_not_intro hw), if_neg hq]

/-! The plain write by what is locked (R417). -/

section
variable {r : RegDef} {live : Bool} {n : Nat} {v w : Word} (hl : live = s.powered (windowDomain off))
  (hb : r.base ≠ 0x5010) (hn : n = r.place off)
  (hw : w = clampWrite r.base (writeBits (s.reg off) v r.rw (if live = true then r.w1c else 0)))
include hl hb hn hw

theorem Dev.plainWrite_unlocked (h : s.lockOf r.base n w = none) :
    s.plainWrite r off v = ((s.beforeWrite r.base n).setReg off w).afterWrite r.base n s := by
  subst hl hn
  simp only [Dev.plainWrite, if_neg hb, ← hw, h]

theorem Dev.plainWrite_locked {mask : Nat} (h : s.lockOf r.base n w = some (mask, none)) :
    s.plainWrite r off v = s.setReg off (keepBits (s.reg off) w mask) := by
  subst hl hn
  simp only [Dev.plainWrite, if_neg hb, ← hw, h]

theorem Dev.plainWrite_flagged {mask reg bit : Nat} (h : s.lockOf r.base n w = some (mask, some (reg, bit))) :
    s.plainWrite r off v = (if (live && keepBits (s.reg off) w mask != w) = true then s.setBit reg bit true else s).setReg
      off (keepBits (s.reg off) w mask) := by
  subst hl hn
  simp only [Dev.plainWrite, if_neg hb, ← hw, h]

end

/-! ## Reads -/

theorem hostSpaceRead_bar0 (hp : s.powered 7 = true) (hd : s.hiu.d3hot = false) {a : BarAccess} (ho : a.off < bar2At) :
    hostSpaceRead a s = loRegisterCapture a s := by
  simp [hostSpaceRead, ho, whenBar, hp, hd]

/-- A read of all four bytes returns the word. -/
theorem lanesOf_word (h : off % 4 = 0) (w : Word) : lanesOf off 4 w = w := by
  have hw := w.isLt
  apply BitVec.eq_of_toNat_eq
  simp only [lanesOf, wordN, h, BitVec.toNat_ofNat]
  omega

/-- A read within one word. -/
theorem loRegisterCapture_lanes {lane size : Nat} (h : off % 4 = 0) (hl : lane < 4) (hs : lane + size ≤ 4) :
    loRegisterCapture ⟨off + lane, size⟩ s =
      (s.bar0Word off).2.emit (.barRead (off + lane) (lanesOf (off + lane) size (s.bar0Word off).1)) := by
  have narrow : ¬((off + lane) % 4 = 0 ∧ size = 8) := by omega
  have within : (off + lane) % 4 + size ≤ 4 := by omega
  have word : (off + lane) / 4 * 4 = off := by omega
  simp only [loRegisterCapture, if_neg narrow, if_pos within, word]

theorem loRegisterCapture_word (h : off % 4 = 0) :
    loRegisterCapture ⟨off, 4⟩ s = (s.bar0Word off).2.emit (.barRead off (s.bar0Word off).1) := by
  have read := loRegisterCapture_lanes (s := s) (lane := 0) (size := 4) h (by omega) (by omega)
  rwa [Nat.add_zero, lanesOf_word h] at read

theorem loRegisterCapture_misaligned {size : Nat} (h : 4 < off % 4 + size) (hn : ¬(off % 4 = 0 ∧ size = 8)) :
    loRegisterCapture ⟨off, size⟩ s = s.emit (.barRead off 0) := by
  simp only [loRegisterCapture, if_neg hn, if_neg (Nat.not_le.2 h)]

/-- The read of a _LO register keeps the upper half for its _HI register (R421). -/
theorem Dev.bar0Word_pair {x z : Nat} (hz : s.pairValue off = some z)
    (hx : x = if s.powered (windowDomain off) = true then z else 0) :
    s.bar0Word off = (lo64 x, { s with hiu := { s.hiu with capture := kput 0 s.hiu.capture (off + 4) (hi64 x) } }) := by
  simp only [Dev.bar0Word, hz, ← hx]

theorem Dev.bar0Word_plain (h : s.pairValue off = none) : s.bar0Word off = (s.readReg off, s) := by
  simp only [Dev.bar0Word, h]

/-! ## Beyond BAR0 -/

section
variable (hp : s.powered 7 = true)
include hp

theorem hostSpaceWrite_bar2 (hd : s.hiu.d3hot = false) (hl : bar2At ≤ off) (hu : off < configAt) (size : Nat)
    (v : BitVec 64) (queued : List Desc) : hostSpaceWrite off size v queued s = bar2Write (off - bar2At) size v s := by
  simp [hostSpaceWrite, Nat.not_lt.2 hl, hu, whenBar, hp, hd]

theorem hostSpaceRead_bar2 (hd : s.hiu.d3hot = false) (hl : bar2At ≤ off) (hu : off < configAt) (h : off % 4 = 0) :
    hostSpaceRead ⟨off, 4⟩ s = s.emit (.barRead off (s.readBar2 (off - bar2At))) := by
  simp [hostSpaceRead, Nat.not_lt.2 hl, hu, whenBar, hp, hd, h]

variable (hl : configAt ≤ off) (h : off % 4 = 0)
include hl h

theorem hostSpaceWrite_config (v : BitVec 64) (queued : List Desc) :
    hostSpaceWrite off 4 v queued s = configWrite (off - configAt) (lo64 v.toNat) s := by
  have beyond : ¬off < bar2At := by
    unfold bar2At configAt at *
    omega
  simp [hostSpaceWrite, beyond, Nat.not_lt.2 hl, whenOn, hp, h]

theorem hostSpaceRead_config : hostSpaceRead ⟨off, 4⟩ s = s.emit (.barRead off (s.configRead (off - configAt))) := by
  have beyond : ¬off < bar2At := by
    unfold bar2At configAt at *
    omega
  have word : (off - configAt) / 4 * 4 = off - configAt := by
    unfold configAt at *
    omega
  simp only [hostSpaceRead, if_neg beyond, if_neg (Nat.not_lt.2 hl), whenOn, hp, if_true, word, lanesOf_word h]

end

theorem hiuIdentify_passed {d : Desc} (ho : d.object = 0) (hq : d.qp = 0) :
    hiuIdentify d s = (s.hostWrite d (d.w64 3) s.identityBytes).complete d .done (s.dispatchedAt d) [100] := by
  simp [hiuIdentify, ho, hq]

end

/-- Settles O51: the accesses of each space by the lemma about them. -/
theorem registerRowsComplete : Obligations.RegisterRowsComplete := by
  unfold Obligations.RegisterRowsComplete
  intro s off v q hp hd
  have written : ∀ size, exec (.registerWrite off size v q) s = .next (s.withDev (hostSpaceWrite off size v q s.dev)) :=
    fun size => State.upd_eq s _
  have read : ∀ a, exec (.loRegisterCapture a) s = .next (s.withDev (hostSpaceRead a s.dev)) := fun a => State.upd_eq s _
  refine ⟨fun ho => ?_, fun hl hu => ⟨fun size => ?_, fun h => ?_⟩, fun hl => ⟨fun h => ?_, fun h => ?_⟩, fun d hs hobj hq => ?_⟩
  · have bar0 : ∀ size, exec (.registerWrite off size v q) s = .next (s.withDev (registerWrite off size v q s.dev)) :=
      fun size => (written size).trans (by rw [hostSpaceWrite_bar0 hp hd ho])
    have word : ∀ a : BarAccess, a.off < bar2At → exec (.loRegisterCapture a) s = .next (s.withDev (loRegisterCapture a s.dev)) :=
      fun a ha => (read a).trans (by rw [hostSpaceRead_bar0 hp hd ha])
    refine ⟨fun r live n w h hr ha hlive hb hwl hq hn hw => ?_, fun h => ?_, fun size h ha => ?_, fun x z hz hx h => ?_,
      fun hz h => ?_, fun lane size x hlane hsize h hz hx => ?_, fun size h hn => ?_⟩
    · have plain : ∀ y, s.dev.plainWrite r off (lo64 v.toNat) = y →
          exec (.registerWrite off 4 v q) s = .next (s.withDev y) := fun y hy =>
        (bar0 4).trans (by rw [registerWrite_word h, Dev.writeReg_plain hr ha hb hwl hq, hy])
      have row : r.base ≠ 0x5010 := fun e => hb (by simp [e])
      refine ⟨fun hlock => ?_, fun mask hlock => ?_, fun mask reg bit hlock => ?_⟩
      · exact plain _ (Dev.plainWrite_unlocked hlive row hn hw hlock)
      · exact plain _ (Dev.plainWrite_locked hlive row hn hw hlock)
      · exact plain _ (Dev.plainWrite_flagged hlive row hn hw hlock)
    · exact (bar0 8).trans (by rw [registerWrite_pair h])
    · exact (bar0 size).trans (by rw [registerWrite_other h ha]; rfl)
    · exact (word _ ho).trans (by rw [loRegisterCapture_word h, Dev.bar0Word_pair hz hx])
    · exact (word _ ho).trans (by rw [loRegisterCapture_word h, Dev.bar0Word_plain hz])
    · have inside : off + lane < bar2At := by
        unfold bar2At at *
        omega
      have place : (off + lane) % 4 = lane := by omega
      exact (word _ inside).trans (by
        rw [loRegisterCapture_lanes h hlane hsize, Dev.bar0Word_plain hz, lanesOf, place, hx])
    · exact (word _ ho).trans (by rw [loRegisterCapture_misaligned h hn])
  · exact (written size).trans (by rw [hostSpaceWrite_bar2 hp hd hl hu])
  · exact (read _).trans (by rw [hostSpaceRead_bar2 hp hd hl hu h])
  · exact (written 4).trans (by rw [hostSpaceWrite_config hp hl h])
  · exact (read _).trans (by rw [hostSpaceRead_config hp hl h])
  · exact (State.cmd_on hp hs _).trans (by rw [hiuIdentify_passed hobj hq])

end Sys2Proof.Machine
end


section
/-! PROOFS. The field channels of the Cocoon die (16 R352-R361): what a sample of an input or an output comes to, and the
channels' faults, groups and turning. -/
namespace Sys2Proof.Machine

section
variable {s : Dev} {n : Nat}

@[simp] theorem Dev.fio_modFio_same (s : Dev) (n : Nat) (f : FioChan → FioChan) : (s.modFio n f).fio n = f (s.fio n) :=
  kget_kmod_same ..

@[simp] theorem Dev.time_modFio (s : Dev) (n : Nat) (f : FioChan → FioChan) : (s.modFio n f).time = s.time := rfl

/-- Two changes that agree on the channel as it stands are one. -/
theorem Dev.modFio_congr {f g : FioChan → FioChan} (h : f (s.fio n) = g (s.fio n)) : s.modFio n f = s.modFio n g := by
  have same : f (kget .reset s.coc.field.chans n) = g (kget .reset s.coc.field.chans n) := h
  simp only [Dev.modFio, Dev.setField, kmod, same]

/-! ## Samples -/

section
variable (hn : n < s.fios) (hr : s.coc.field.running = true) (hd : s.sampleDue n = true)
include hn hr hd

theorem fieldInputSample_input (hdir : (s.fio n).cfg.dir = .input) (mv : Nat) (w : Option Nat) (il : Bool) :
    fieldInputSample n mv w il s = s.inputSample n (readSample mv (s.fio n).sample) w := by
  simp [fieldInputSample, Nat.not_le.2 hn, hr, hd, hdir]

theorem fieldInputSample_output (hdir : (s.fio n).cfg.dir = .output) (mv : Nat) (w : Option Nat) (il : Bool) :
    fieldInputSample n mv w il s = s.outputSample n mv (readSample mv (s.fio n).sample) il := by
  simp [fieldInputSample, Nat.not_le.2 hn, hr, hd, hdir]

end

/-! Inputs (R353-R356). -/

section
variable {smp : Bool} {w : Option Nat} (hcal : s.coc.field.calDone = true) (hmin : s.coc.field.min.below = false)
include hcal hmin

/-- The first sample after validity was lost is accepted without debounce (R356). -/
theorem Dev.inputSample_first (hl : s.coc.field.link.up = true) (hv : (s.fio n).valid = false) :
    s.inputSample n smp w = (if smp ≠ ((s.fio n).everValid && (s.fio n).level) then
      (s.modFio n (fun c => { c with sample := smp, level := smp, valid := true, everValid := true, row := 0 })).edgeUp
        n smp s.time
      else s.modFio n (fun c => { c with sample := smp, level := smp, valid := true, everValid := true, row := 0 })) := by
  have before : (if (s.fio n).everValid = true then (s.fio n).level else false) = ((s.fio n).everValid && (s.fio n).level) := by
    cases (s.fio n).everValid <;> rfl
  simp [Dev.inputSample, hcal, hmin, hl, hv, before]

theorem Dev.inputSample_unlinked (hl : s.coc.field.link.up = false) (he : (s.fio n).everValid = false) :
    s.inputSample n smp w = s.modFio n (fun c => { c with sample := smp }) := by
  simp [Dev.inputSample, hcal, hmin, hl, he]

theorem Dev.inputSample_valid (hv : (s.fio n).valid = true) (he : (s.fio n).everValid = true) :
    s.inputSample n smp w = s.debounce n smp w := by
  simp [Dev.inputSample, hcal, hmin, hv, he]

end

section
variable {smp : Bool} {w : Option Nat}

theorem Dev.debounce_repeats (h : smp = (s.fio n).level) :
    s.debounce n smp w = s.modFio n (fun c => { c with sample := smp, row := 0 }) := if_pos h

variable {t : Nat} (h : smp ≠ (s.fio n).level) (ht : t = if (s.fio n).row = 0 then w.getD s.time else (s.fio n).stamp)
include h ht

theorem Dev.debounce_counts (hrow : (s.fio n).row + 1 < (s.fio n).cfg.needed) :
    s.debounce n smp w = s.modFio n (fun c => { c with sample := smp, row := c.row + 1, stamp := t }) := by
  subst ht
  simp only [Dev.debounce, if_neg h, if_neg (Nat.not_le.2 hrow)]

theorem Dev.debounce_accepts (hrow : (s.fio n).cfg.needed ≤ (s.fio n).row + 1) :
    s.debounce n smp w = (s.modFio n (fun c => { c with sample := smp, level := smp, row := 0 })).edgeUp n smp t := by
  subst ht
  simp only [Dev.debounce, if_neg h, if_pos hrow]

end

/-! Outputs (R358-R361). -/

/-- A sample that agrees with the command (R358). -/
theorem Dev.outputSample_agrees {mv : Nat} {il : Bool} :
    s.outputSample n mv (s.fio n).cmd il = s.modFio n (fun c => { c with
      sample := c.cmd, level := c.cmd, ilim := il && c.cmd, mismatch := 0 }) := by
  have right : (decide ((s.fio n).cmdAt + 100000 ≤ s.time) &&
      (if (s.fio n).cmd = true then !(s.fio n).cmd && !il else (s.fio n).cmd)) = false := by
    cases (s.fio n).cmd <;> simp
  simp only [Dev.outputSample, right, Dev.fio_modFio_same, Bool.false_eq_true, if_false]
  exact Dev.modFio_congr rfl

/-- The second sample counted against the command (R358). -/
theorem Dev.outputSample_second {mv : Nat} {il : Bool} (hm : (s.fio n).mismatch = 1)
    (ht : (s.fio n).cmdAt + 100000 ≤ s.time) (hb : (s.fio n).backfeed = false) (hil : (s.fio n).cmd = true → il = false) :
    s.outputSample n mv (!(s.fio n).cmd) il = (s.modFio n (fun c => { c with
      sample := !c.cmd, level := !c.cmd, ilim := false, mismatch := 2 })).latchFault n
        (if (s.fio n).cmd then 3 else 1) 0 mv := by
  have wrong : (decide ((s.fio n).cmdAt + 100000 ≤ s.time) &&
      (if (s.fio n).cmd = true then !!(s.fio n).cmd && !il else !(s.fio n).cmd)) = true := by
    cases hc : (s.fio n).cmd with
    | false => simp [ht]
    | true => simp [ht, hil hc]
  have unlimited : (il && (s.fio n).cmd) = false := by
    cases hc : (s.fio n).cmd with
    | false => simp
    | true => simp [hil hc]
  have counted : s.modFio n (fun c => { c with
      sample := !(s.fio n).cmd, level := !(s.fio n).cmd, ilim := il && c.cmd, mismatch := c.mismatch + 1 }) =
      s.modFio n (fun c => { c with sample := !c.cmd, level := !c.cmd, ilim := false, mismatch := 2 }) :=
    Dev.modFio_congr (by simp only [unlimited, hm])
  simp only [Dev.outputSample, wrong, if_true, counted, Dev.fio_modFio_same, Nat.le_refl, hb]
  cases (s.fio n).cmd <;> rfl

/-! ## Faults, groups and turning -/

theorem Dev.latchFault_thermal {ma : Nat} (h : (s.fio n).cmd = true) :
    s.latchFault n 2 1 ma = (s.modFio n (fun c => { c with
      cmd := false, cmdAt := s.time, mismatch := 0, ilim := false, overload := true })).sendUp (.fault n 2 1 ma s.tick) := by
  have latched : s.modFio n (fun c => { c.command false s.time with
      mismatch := 0, backfeed := c.backfeed || 2 == 1, overload := c.overload || 2 == 2, rbfail := c.rbfail || 2 == 3 }) =
      s.modFio n (fun c => { c with cmd := false, cmdAt := s.time, mismatch := 0, ilim := false, overload := true }) :=
    Dev.modFio_congr (by simp [FioChan.command, h])
  rw [Dev.latchFault, latched]

theorem outputThermalShutdown_on {ma : Nat} (hr : s.coc.field.running = true) (h : (s.fio n).cmd = true) :
    outputThermalShutdown n ma s = s.latchFault n 2 1 ma := by
  simp [outputThermalShutdown, hr, h]

/-- The last of the numbers below `m` that satisfy a predicate. -/
theorem getLast?_filter_range {p : Nat → Bool} {i : Nat} (hp : p i = true) :
    ∀ m, i < m → (∀ j, i < j → j < m → p j = false) → ((List.range m).filter p).getLast? = some i
  | m + 1, hi, hj => by
    rw [List.range_succ, List.filter_append]
    rcases Nat.lt_succ_iff_lt_or_eq.1 hi with h | rfl
    · have last : p m = false := hj m h (Nat.lt_succ_self m)
      have kept : [m].filter p = [] := List.filter_eq_nil_iff.mpr (by simp [last])
      rw [kept, List.append_nil]
      exact getLast?_filter_range hp m h (fun j h1 h2 => hj j h1 (by omega))
    · simp [hp]

section
variable {g ma : Nat} (hr : s.coc.field.running = true)
include hr

theorem groupOvercurrent_within (h : ma ≤ 3000) : groupOvercurrent g ma s = s.setFioGroup g none := by
  simp [groupOvercurrent, hr, h]

theorem groupOvercurrent_begins (h : 3000 < ma) (hg : kget none s.coc.field.groups g = none) :
    groupOvercurrent g ma s = s.setFioGroup g (some (s.time + 10000000)) := by
  simp only [groupOvercurrent, hr, Bool.not_true, Bool.false_eq_true, if_false, if_neg (Nat.not_le.2 h), hg]

/-- Above its budget long enough, the highest-numbered channel that is on turns off (R359). -/
theorem groupOvercurrent_due {i t : Nat} (hi : i < 8) (h : 3000 < ma) (hg : kget none s.coc.field.groups g = some t)
    (ht : t ≤ s.time) (hon : (s.fio (8 * g + i)).cmd = true)
    (hoff : ∀ j, i < j → j < 8 → (s.fio (8 * g + j)).cmd = false) :
    groupOvercurrent g ma s = (s.setFioGroup g (some (t + 1000000))).latchFault (8 * g + i) 2 2 ma := by
  have highest : ((List.range 8).filter (fun i => ((s.setFioGroup g (some (t + 1000000))).fio (8 * g + i)).cmd)).getLast? =
      some i := getLast?_filter_range hon 8 hi hoff
  simp only [groupOvercurrent, hr, Bool.not_true, Bool.false_eq_true, if_false, if_neg (Nat.not_le.2 h), hg,
    if_neg (Nat.not_lt.2 ht), highest]

end

theorem channelTurningEnd_reached (hd : (s.fio n).cfg.dir = .turning) (ht : (s.fio n).turnEnd ≤ s.time) :
    channelTurningEnd n s =
      (s.turned n).modFio n (fun c => c.fresh { c.cfg with dir := .input } (s.turned n).time) := if_pos ⟨hd, ht⟩

end

/-- Settles O42: each sample by the lemma about its case, then the channels' other events. -/
theorem fieldChannelsComplete : Obligations.FieldChannelsComplete := by
  unfold Obligations.FieldChannelsComplete
  refine ⟨fun s n mv w il c smp t0 hc hdir hn hr hd hcal hmin hsmp ht => ?_, fun s hr => ?_⟩
  · subst hc hsmp
    have act : exec (.fieldInputSample n mv w il) s =
        .next (s.withDev (s.dev.inputSample n (readSample mv (s.dev.fio n).sample) w)) :=
      (State.upd_eq s _).trans (by rw [fieldInputSample_input hn hr hd hdir])
    refine ⟨fun hl hv h => ?_, fun hl hv h => ?_, fun hl _ he => ?_, fun hv he h => ?_, fun hv he h hrow => ?_,
      fun hv he h hrow => ?_⟩
    · exact act.trans (by rw [Dev.inputSample_first hcal hmin hl hv, if_neg (not_not_intro h)])
    · exact act.trans (by rw [Dev.inputSample_first hcal hmin hl hv, if_pos h])
    · exact act.trans (by rw [Dev.inputSample_unlinked hcal hmin hl he])
    · exact act.trans (by rw [Dev.inputSample_valid hcal hmin hv he, Dev.debounce_repeats h])
    · exact act.trans (by rw [Dev.inputSample_valid hcal hmin hv he, Dev.debounce_counts h ht hrow])
    · exact act.trans (by rw [Dev.inputSample_valid hcal hmin hv he, Dev.debounce_accepts h ht hrow])
  · refine ⟨fun n mv w il c hc hdir hn hd => ?_, fun n ma h => ?_, fun g ma h => ?_, fun g ma h hg => ?_,
      fun g i ma t h hg ht hon hoff => ?_, fun n hd ht => ?_⟩
    · subst hc
      have act : exec (.fieldInputSample n mv w il) s =
          .next (s.withDev (s.dev.outputSample n mv (readSample mv (s.dev.fio n).sample) il)) :=
        (State.upd_eq s _).trans (by rw [fieldInputSample_output hn hr hd hdir])
      refine ⟨fun h => ?_, fun hm ht hb h hil => ?_⟩
      · rw [h] at act
        exact act.trans (by rw [Dev.outputSample_agrees])
      · rw [h] at act
        exact act.trans (by rw [Dev.outputSample_second hm ht hb hil])
    · exact (State.upd_eq s _).trans (by rw [outputThermalShutdown_on hr h, Dev.latchFault_thermal h])
    · exact (State.upd_eq s _).trans (by rw [groupOvercurrent_within hr h])
    · exact (State.upd_eq s _).trans (by rw [groupOvercurrent_begins hr h hg])
    · exact (State.upd_eq s _).trans (by rw [groupOvercurrent_due hr i.isLt h hg ht hon hoff])
    · exact (State.upd_eq s _).trans (by rw [channelTurningEnd_reached hd ht])

end Sys2Proof.Machine
end


section
/-! PROOFS. The field supply, the watchdog, the start and the calibration of the Cocoon die, its taps and its current
cells (16 R363-R371, R373, R377, 07 R166). -/
namespace Sys2Proof.Machine

section
variable {s : Dev}

/-- Two changes that agree on the Cocoon die as it stands are one. -/
theorem Dev.setField_congr {f g : CocField → CocField} (h : f s.coc.field = g s.coc.field) : s.setField f = s.setField g := by
  simp only [Dev.setField, h]

@[simp] theorem Dev.tick_setField (s : Dev) (f : CocField → CocField) : (s.setField f).tick = s.tick := rfl

/-! ## One measurement against a threshold (R365) -/

theorem Watch.step_fifth {hi : Bool} : (⟨false, 4, 0⟩ : Watch).step true hi = ⟨true, 0, 0⟩ := rfl

theorem Watch.step_good {w : Watch} {hi : Bool} (h : w.below = false) : w.step false hi = ⟨false, 0, 0⟩ := by
  simp [Watch.step, h]

theorem Watch.step_stays {w : Watch} {lo : Bool} (h : w.below = true) : w.step lo false = ⟨true, 0, 0⟩ := by
  simp [Watch.step, h]

/-! ## Watchdog and field supply (R363-R366) -/

theorem cocWatchdog_reached {wdt : Nat} (hr : s.coc.field.running = true) (hon : s.coc.field.wdOn = true)
    (htrip : s.coc.field.wdTrip = false) (hw : wdt = clampN 50 100000 (bitsOf s.coc.field.wd 16 0))
    (ht : s.coc.field.wdAt + 1000 * wdt ≤ s.time) :
    cocWatchdog s = ((s.setField (fun f => { f with wdTrip := true })).outputsSafe).sendUp
      (.watchdog s.coc.field.link.lastFseq wdt s.tick) := by
  subst hw
  simp [cocWatchdog, hr, hon, htrip, ht]

/-! A measurement of VFIELD: `low` and `min` are the two watches after it. -/

section
variable {v : Nat} (hr : s.coc.field.running = true)
include hr

theorem vfieldMeasurement_low (hmin : 10 * bitsOf s.coc.field.fs 8 0 + 80 ≤ v) (hlow : v < 10 * bitsOf s.coc.field.fs 24 16)
    (hl : s.coc.field.low = ⟨false, 4, 0⟩) (hm : s.coc.field.min.below = false) :
    vfieldMeasurement v s = (s.setField (fun f => { f with
      vfield := v, low := ⟨true, 0, 0⟩, min := ⟨false, 0, 0⟩ })).sendUp (.supply 1 v s.tick) := by
  have above : decide (v < 10 * bitsOf s.coc.field.fs 8 0) = false := decide_eq_false (by omega)
  have measured : s.setField (fun f => { f with
      vfield := v
      low := f.low.step (v < 10 * bitsOf s.coc.field.fs 24 16) (10 * bitsOf s.coc.field.fs 24 16 + 80 ≤ v)
      min := f.min.step (v < 10 * bitsOf s.coc.field.fs 8 0) (10 * bitsOf s.coc.field.fs 8 0 + 80 ≤ v) }) =
      s.setField (fun f => { f with vfield := v, low := ⟨true, 0, 0⟩, min := ⟨false, 0, 0⟩ }) :=
    Dev.setField_congr (by simp only [above, Watch.step_good hm, decide_eq_true hlow, hl, Watch.step_fifth])
  simp [vfieldMeasurement, hr, measured, hl, hm]

theorem vfieldMeasurement_min (hmin : v < 10 * bitsOf s.coc.field.fs 8 0) (hlow : v < 10 * bitsOf s.coc.field.fs 24 16)
    (hl : s.coc.field.low.below = true) (hm : s.coc.field.min = ⟨false, 4, 0⟩) :
    vfieldMeasurement v s = (s.setField (fun f => { f with
      vfield := v, low := ⟨true, 0, 0⟩, min := ⟨true, 0, 0⟩ })).sagDeclared v := by
  have above : decide (10 * bitsOf s.coc.field.fs 24 16 + 80 ≤ v) = false := decide_eq_false (by omega)
  have measured : s.setField (fun f => { f with
      vfield := v
      low := f.low.step (v < 10 * bitsOf s.coc.field.fs 24 16) (10 * bitsOf s.coc.field.fs 24 16 + 80 ≤ v)
      min := f.min.step (v < 10 * bitsOf s.coc.field.fs 8 0) (10 * bitsOf s.coc.field.fs 8 0 + 80 ≤ v) }) =
      s.setField (fun f => { f with vfield := v, low := ⟨true, 0, 0⟩, min := ⟨true, 0, 0⟩ }) :=
    Dev.setField_congr (by simp only [above, Watch.step_stays hl, decide_eq_true hmin, hm, Watch.step_fifth])
  simp [vfieldMeasurement, hr, measured, hl, hm]

end

/-! ## Start, loss and calibration (R367, R377) -/

theorem cocoonPowerLoss_quiet (hm : s.hwkF.motionEn.level = false) (hd : s.hwkF.doorEn.level = false) :
    cocoonPowerLoss s = { s with
      coc := { s.coc with up := none, field := { CocField.reset with running := false } },
      hwkF := { HwkField.reset with osc := s.hwkF.osc } } := by
  simp only [cocoonPowerLoss, hm, hd, Bool.false_eq_true, if_false]
  rfl

theorem cocoonStart_stopped (hr : s.coc.field.running = false) :
    cocoonStart s = { s with coc := { s.coc with field := CocField.reset } } := by
  simp only [cocoonStart, hr, Bool.false_eq_true, if_false]
  rfl

section
variable {i : Nat} {y : Dev} (hr : s.coc.field.running = true) (hc : s.coc.field.calDone = false)
  (hy : y = s.setField (fun f => { f with calDone := true, calOk := i == 0 }))
include hr hc hy

theorem cocCalib_passed (h : i = 0) (o : Nat) : cocCalib i o s = y := by
  subst h hy
  simp [cocCalib, hr, hc]

theorem cocCalib_failed (h : i ≠ 0) (o : Nat) : cocCalib i o s = y.sendUp (.calib i o y.tick) := by
  subst hy
  simp [cocCalib, hr, hc, h]

end

/-- Supplies in range keep their watches (R365). -/
theorem bridgeSupplyMeasurement_inRange {vb vg : Nat} {l : List Nat} (hr : s.coc.field.running = true) (hlo : 1800 ≤ vb)
    (hhi : vb ≤ 5600) (hg : 1080 ≤ vg) (hbl : s.coc.field.vbLow = ⟨false, 0, 0⟩)
    (hbh : s.coc.field.vbHigh = ⟨false, 0, 0⟩) (hgl : s.coc.field.vgLow = ⟨false, 0, 0⟩) :
    bridgeSupplyMeasurement vb vg l s = ((List.range 16).foldl (fun (t : Dev) b =>
      (if t.hasBridge b then t.bootStep b (l.getD b 0) else t).clearFaults b)
        (s.setField (fun f => { f with vbridge := vb, vgate := vg }))).settleAll := by
  have notLow : decide (vb < 1600) = false := decide_eq_false (by omega)
  have notHigh : decide (5800 < vb) = false := decide_eq_false (by omega)
  have notGate : decide (vg < 1050) = false := decide_eq_false (by omega)
  have measured : s.setField (fun f => { f with
      vbridge := vb, vgate := vg
      vbLow := f.vbLow.step (vb < 1600) (1800 ≤ vb ∧ vb ≤ 5600)
      vbHigh := f.vbHigh.step (5800 < vb) (1800 ≤ vb ∧ vb ≤ 5600)
      vgLow := f.vgLow.step (vg < 1050) (1080 ≤ vg) }) = s.setField (fun f => { f with vbridge := vb, vgate := vg }) :=
    Dev.setField_congr (by simp only [notLow, notHigh, notGate, hbl, hbh, hgl, Watch.step_good])
  simp only [bridgeSupplyMeasurement, hr, Bool.not_true, Bool.false_eq_true, if_false, measured]
  simp only [Dev.setField_fields, hbl, hbh, hgl, Bool.false_and, Bool.or_self, Bool.false_eq_true, if_false]

end

/-- Settles O43: each event by the lemma about its meaning. -/
theorem fieldSupplyComplete : Obligations.FieldSupplyComplete := by
  unfold Obligations.FieldSupplyComplete
  intro s f hf
  subst hf
  refine ⟨fun wdt hr hon htrip hw ht => ?_, fun mv hr hmin hlow hl hm => ?_, fun mv hr hmin hlow hl hm => ?_,
    fun hm hd => ?_, fun hr => ?_, fun i o y hr hc hy => ⟨fun h => ?_, fun h => ?_⟩,
    fun vb vg l hr hlo hhi hg hbl hbh hgl => ?_⟩
  · exact (State.upd_eq s _).trans (by rw [cocWatchdog_reached hr hon htrip hw ht])
  · exact (State.upd_eq s _).trans (by rw [vfieldMeasurement_low hr hmin hlow hl hm])
  · exact (State.upd_eq s _).trans (by rw [vfieldMeasurement_min hr hmin hlow hl hm])
  · exact (State.upd_eq s _).trans (by rw [cocoonPowerLoss_quiet hm hd])
  · exact (State.upd_eq s _).trans (by rw [cocoonStart_stopped hr])
  · exact (State.upd_eq s _).trans (by rw [cocCalib_passed hr hc hy h])
  · exact (State.upd_eq s _).trans (by rw [cocCalib_failed hr hc hy h])
  · exact (State.upd_eq s _).trans (by rw [bridgeSupplyMeasurement_inRange hr hlo hhi hg hbl hbh hgl])

/-! ## Taps (R368) -/

section
variable {s : Dev} {i : Nat}

@[simp] theorem Dev.tap_modTap_same (s : Dev) (i : Nat) (f : Tap → Tap) : (s.modTap i f).tap i = f (s.tap i) :=
  kget_kmod_same ..

/-- The energised state a sample shows: beyond the threshold, below it by its margin, or as before (R368). -/
theorem tapLevel_eq {thr x : Nat} {e was : Bool}
    (h : thr < x ∧ e = true ∨ x + 10 < thr ∧ e = false ∨ x ≤ thr ∧ thr ≤ x + 10 ∧ e = was) :
    (if thr < x then true else if x + 10 < thr then false else was) = e := by
  rcases h with ⟨hlt, rfl⟩ | ⟨hlt, rfl⟩ | ⟨hle, hge, rfl⟩
  · rw [if_pos hlt]
  · rw [if_neg (by omega), if_pos hlt]
  · rw [if_neg (by omega), if_neg (by omega)]

section
variable {ua : Int} {e : Bool} (hr : s.coc.field.running = true)
  (he : (if bitsOf s.coc.field.tap 23 16 < ua.natAbs then true
    else if ua.natAbs + 10 < bitsOf s.coc.field.tap 23 16 then false else (s.tap i).sample) = e)
include hr he

/-- A direct-current sample joins its window. -/
theorem tapSample_dc (h : s.tapAc i = false) : tapSample i ua s = s.modTap i (fun t => { t with
    sample := e, neg := if ua = 0 then (s.tap i).neg else decide (ua < 0), any := t.any || e, all := t.all && e }) := by
  simp only [tapSample, hr, he, h, Bool.not_true, Bool.false_eq_true, Bool.false_and, if_false]

/-- A sample of the other sign is a crossing, and reports what the half wave showed. -/
theorem tapSample_crossing (h : s.tapAc i = true) (h0 : ua ≠ 0) (hn : decide (ua < 0) ≠ (s.tap i).neg) :
    tapSample i ua s = (s.tapReport i (s.tap i).any false).modTap i (fun t => { t with
      sample := e, neg := decide (ua < 0), any := t.any || e, all := t.all && e }) := by
  have crossed : (decide (ua < 0) != (s.tap i).neg) = true := bne_iff_ne.2 hn
  simp only [tapSample, hr, he, h, if_neg h0, crossed, Bool.not_true, Bool.false_eq_true, Bool.true_and, if_true, if_false]

end

/-! A report: `y` is the tap after it, and a change of state is told. -/

section
variable {e late : Bool} {y : Dev}
  (hy : y = s.modTap i (fun t => { t with energised := e, lastAt := s.time, late := late, any := false, all := true }))
include hy

theorem Dev.tapReport_same (h : (s.tap i).energised = e) : s.tapReport i e late = y := by
  subst hy
  simp [Dev.tapReport, h]

theorem Dev.tapReport_changed (h : (s.tap i).energised ≠ e) :
    s.tapReport i e late = y.sendUp (.tap i e (s.tapAc i) s.tick) := by
  subst hy
  have changed : (e != (s.tap i).energised) = true := bne_iff_ne.2 (Ne.symm h)
  rw [Dev.tapReport, if_pos changed]
  rfl

end

theorem tapDcWindowEnd_dc (hr : s.coc.field.running = true) (h : s.tapAc i = false) :
    tapDcWindowEnd i s = s.tapReport i (s.tap i).all false := by
  simp [tapDcWindowEnd, hr, h]

theorem tapAcTimeout_overdue (hr : s.coc.field.running = true) (h : s.tapAc i = true)
    (ht : (s.tap i).lastAt + (if (s.tap i).late then 10000000 else 15000000) ≤ s.time) :
    tapAcTimeout i s = s.tapReport i false true := by
  simp only [tapAcTimeout, hr, h, decide_eq_true ht, Bool.and_self, if_true]

/-! ## Current cells (R369, R371) -/

section
variable {b : Nat} {own ma : Int} {x y : Dev} {dt : Nat} (hr : s.coc.field.running = true) (hb : s.hasBridge b = true)
  (hx : x = s.modCell b (fun c => { c with amp := own })) (hma : ma = x.phaseNow b own)
  (hy : y = (if (s.dt - s.lpe.phaseAt) % 1000 = 0 ∧ (s.dt - s.lpe.phaseAt) % 10000 ≠ 0
    then x.keepSample b ma else x).overcurrent b ma)
  (hdt : dt = 20 * clampN 1 20 (bitsOf (y.cellCfg b) 4 0))
include hr hb hx hma hy hdt

/-- What a decision comes to, by the gates' move: `z` is the block after it. -/
theorem currentCellDecision_moves {z : Dev} (hz : z = (match y.forcedSide b with
      | some x => y.modCell b (fun c => (c.force x y.time).drive x dt y.time)
      | none =>
        if (y.cell b).set_.mode = 2 then
          y.modCell b (fun c => ({ c with cut := (y.dutyWant b ma).2 }).drive (y.dutyWant b ma).1 dt y.time)
        else y.modCell b (fun c => c.drive (y.cellWant b ma) dt y.time))) :
    currentCellDecision b own s = z.modCell b (fun c => { c with
      blind := if ((z.cell b).side == .high && !z.measured b) = true then some (c.blind.getD z.time) else none }) := by
  subst hx hma hy hdt hz
  simp only [currentCellDecision, hr, hb, Bool.not_true, Bool.or_self, Bool.false_eq_true, if_false] <;> rfl

end

theorem blindPhaseTimeout_reached {b t : Nat} (hb : (s.cell b).blind = some t) (ht : t + 2000 ≤ s.time) :
    blindPhaseTimeout b s = s.modCell b (fun c => { c with
      side := .none, next := .low, want := .low, since := s.time, blind := none }) := by
  simp only [blindPhaseTimeout, hb, if_pos ht]

end

/-- Settles O44: each tap event by the report it makes, a decision by the move of its gates. -/
theorem tapsAndCellsComplete : Obligations.TapsAndCellsComplete := by
  unfold Obligations.TapsAndCellsComplete
  intro s hr
  refine ⟨fun i ua t e thr ht hthr he => ?_, fun i y hac hy => ?_, fun i t y hac ht hlate hy => ?_,
    fun b own ma x y z dt hb hx hma hy hdt hz => ?_, fun b t hb ht => ?_⟩
  · subst ht hthr
    have level := tapLevel_eq he
    refine ⟨fun hac => ?_, fun hac h0 hn => ?_⟩
    · exact (State.upd_eq s _).trans (by rw [tapSample_dc hr level hac])
    · exact (State.upd_eq s _).trans (by rw [tapSample_crossing hr level hac h0 hn])
  · have act : exec (.tapDcWindowEnd i) s = .next (s.withDev (s.dev.tapReport i (s.dev.tap i).all false)) :=
      (State.upd_eq s _).trans (by rw [tapDcWindowEnd_dc hr hac])
    refine ⟨fun h => ?_, fun h => ?_⟩
    · exact act.trans (by rw [Dev.tapReport_same hy h])
    · exact act.trans (by rw [Dev.tapReport_changed hy h, hac])
  · subst ht
    have act : exec (.tapAcTimeout i) s = .next (s.withDev (s.dev.tapReport i false true)) :=
      (State.upd_eq s _).trans (by rw [tapAcTimeout_overdue hr hac hlate])
    refine ⟨fun h => ?_, fun h => ?_⟩
    · exact act.trans (by rw [Dev.tapReport_same hy h])
    · exact act.trans (by rw [Dev.tapReport_changed hy (by simp [h]), hac])
  · refine (State.upd_eq s _).trans ?_
    rw [currentCellDecision_moves hr hb hx hma hy hdt (z := z)]
    rcases hz with ⟨side, hf, rfl⟩ | ⟨hf, hm, rfl⟩ | ⟨hf, hm, rfl⟩
    · simp only [hf]
    · simp only [hf, hm, if_true]
    · simp only [hf, hm] <;> rfl
  · exact (State.upd_eq s _).trans (by rw [blindPhaseTimeout_reached hb ht])

end Sys2Proof.Machine
end


section
/-! PROOFS. The isolation link and the Cocoon commands (16 R361, R363, R372-R379). -/
namespace Sys2Proof.Machine

/-! ## Slots (R372, R374) -/

section
variable {s : Dev}

/-- Whether Cocoon runs is no matter of a cell's record. -/
theorem Dev.running_modCell (s : Dev) (b : Nat) (f : Cell → Cell) :
    (s.modCell b f).coc.field.running = s.coc.field.running := rfl

theorem Dev.running_keepSample (s : Dev) (b : Nat) (ma : Int) :
    (s.keepSample b ma).coc.field.running = s.coc.field.running := by
  unfold Dev.keepSample
  split <;> rfl

/-- A change that no bridge's step makes is made by none of them. -/
theorem Dev.running_foldl {f : Dev → Nat → Dev} (hf : ∀ t b, (f t b).coc.field.running = t.coc.field.running) (l : List Nat)
    (s : Dev) : (l.foldl f s).coc.field.running = s.coc.field.running :=
  List.foldlRecOn (motive := fun t : Dev => t.coc.field.running = s.coc.field.running) l f rfl
    fun t ht b _ => (hf t b).trans ht

/-- The logic die fills its queue from its own side. -/
theorem Dev.fillQueue_field (s : Dev) : s.fillQueue.coc.field = s.coc.field := by
  unfold Dev.fillQueue
  split
  · rfl
  · exact List.foldlRecOn (motive := fun t : Dev => t.coc.field = s.coc.field) _ _ rfl fun t ht b _ => ht

theorem Dev.buildDown_field (s : Dev) : s.buildDown.coc.field = s.coc.field := s.fillQueue_field

/-- Cocoon sends no frame while it does not run. -/
theorem Dev.buildUp_stopped (hr : s.coc.field.running = false) : s.buildUp.coc.up = none := by
  simp [Dev.buildUp, hr]

theorem linkSlotStart_stopped (hr : s.coc.field.running = false) (own : List Int) (temp : Int) :
    linkSlotStart own temp s = s.buildDown.buildUp := by
  simp [linkSlotStart, hr]

theorem linkSlotStart_running {own : List Int} {temp : Int} {bs : List Nat} {x y : Dev} (hr : s.coc.field.running = true)
    (hb : bs = (List.range 16).filter s.hasBridge)
    (hx : x = bs.foldl (fun (t : Dev) b => t.modCell b (fun c => { c.endSlot with amp := own.getD b 0 })) s)
    (hy : y = bs.foldl (fun (t : Dev) b => t.keepSample b (t.phaseNow b (t.cell b).amp)) x) :
    y.coc.field.running = true ∧
      linkSlotStart own temp s = (y.setField (fun f => { f with temp := wrapS 8 temp })).buildDown.buildUp := by
  have running : y.coc.field.running = true := by
    rw [hy, Dev.running_foldl (fun t b => t.running_keepSample b _), hx,
      Dev.running_foldl (fun t b => t.running_modCell b _), hr]
  refine ⟨running, ?_⟩
  subst hb hx
  simp only [linkSlotStart, hr, if_true, ← hy, running]

/-! ## Frames accepted (R374, R375) -/

theorem LinkSide.takes_of {l : LinkSide} {fseq slot : Nat} (h : l.up = false ∨ fseq = slot) : l.takes fseq slot = true := by
  rcases h with h | h <;> simp [LinkSide.takes, h]

section
variable {f : DownFrame} (hf : s.coc.down = some f)
include hf

/-- An accepted frame that carries one record. -/
theorem cocoonDownstreamFrameAccepted_record {r : Nat} {x : DownRec} {y : Dev} (hr : s.coc.field.running = true)
    (htrain : s.coc.field.trained = true)
    (ht : s.coc.field.link.up = false ∨ f.fseq = s.slotNo) (hrec : f.records = [(r, x)])
    (hy : y = ((s.setCoc (fun c => { c with down := none })).downFields f).applyOuts f) :
    cocoonDownstreamFrameAccepted s = if y.coc.field.rxNext = r
      then ((y.setField (fun c => { c with rxNext := (r + 1) % 65536 })).applyDown r x).applyOuts f else y := by
  have taken : s.coc.field.link.takes f.fseq (s.setCoc (fun c => { c with down := none })).slotNo = true :=
    LinkSide.takes_of ht
  subst hy
  simp only [cocoonDownstreamFrameAccepted, hf, Dev.setCoc_fields, hr, htrain, taken, hrec, Bool.not_true, Bool.or_self,
    Bool.false_eq_true, if_false, List.foldl_cons, List.foldl_nil]

theorem cocoonDownstreamFrameAccepted_otherSlot (hup : s.coc.field.link.up = true) (hs : f.fseq ≠ s.slotNo) :
    cocoonDownstreamFrameAccepted s = s.setCoc (fun c => { c with down := none }) := by
  have other : s.coc.field.link.takes f.fseq (s.setCoc (fun c => { c with down := none })).slotNo = false := by
    have slot : (f.fseq == s.slotNo) = false := beq_eq_false_iff_ne.2 hs
    rw [LinkSide.takes, hup]
    exact slot
  simp only [cocoonDownstreamFrameAccepted, hf, Dev.setCoc_fields, other, Bool.not_false, Bool.or_true, if_true]

end

section
variable {f : UpFrame} {z : Dev} (hf : s.coc.up = some f) (ht : s.coc.link.up = false ∨ f.fseq = s.slotNo)
  (hd : s.coc.drops = f.drops)
  (hz : f.records = [] ∧ z = s.upFields f ∨ (∃ r x y, f.records = [(r, x)] ∧ y = s.upFields f ∧
    z = if y.coc.rxNext = r then (y.setCoc (fun c => { c with rxNext := (r + 1) % 65536 })).applyUp f x else y))
include hf ht hd hz

/-- An accepted frame with a record or none: `z` is the block after them. -/
theorem cocoonUpstreamFrameAccepted_taken :
    cocoonUpstreamFrameAccepted s = if (z.coc.link.up && !s.coc.link.up) = true then z.linkCameUp f else z := by
  have taken : s.coc.link.takes f.fseq s.slotNo = true := LinkSide.takes_of ht
  have after : z = f.records.foldl (fun s (r, x) =>
      if s.coc.rxNext = r then (s.setCoc (fun c => { c with rxNext := (r + 1) % 65536 })).applyUp f x else s)
      (s.upFields f) := by
    rcases hz with ⟨hrec, rfl⟩ | ⟨r, x, y, hrec, rfl, rfl⟩
    · rw [hrec]
      rfl
    · rw [hrec]
      rfl
  simp only [cocoonUpstreamFrameAccepted, hf, taken, hd, Bool.not_true, Bool.false_eq_true, if_false, if_true, ← after]

end

/-! ## Slots missed (R376) -/

/-- The second slot missed in a row takes a side down. -/
theorem LinkSide.miss_second {l : LinkSide} (hup : l.up = true) (hm : l.missed = 1) (t : Nat) :
    l.miss t = { l with up := false, missed := 2, accepted := 0, outage := 2, lastAt := t } := by
  simp [LinkSide.miss, hup, hm]

theorem linkSlotMissed_logic {l : LinkSide} {y : Dev} (hup : s.coc.link.up = true) (hm : s.coc.link.missed = 1)
    (hl : l = { s.coc.link with up := false, missed := 2, accepted := 0, outage := 2, lastAt := s.time })
    (hy : y = s.setCoc (fun c => { c with
      up := none, trained := false, downs := satInc 16 c.downs, link := l, tx := c.link.requeues l c.tx })) :
    linkSlotMissed false s = ((y.faultAxes 4).chrInc 7 146).event 11 8 7 0xFF s.dt [0, 2] := by
  have missed : s.coc.link.miss s.time = l := (LinkSide.miss_second hup hm _).trans hl.symm
  have down : l.up = false := by rw [hl]
  subst hy
  simp only [linkSlotMissed, Dev.logicMiss, missed, hup, down, Bool.not_false, Bool.and_self, if_true]
  rfl

theorem linkSlotMissed_field {l : LinkSide} {y : Dev} (hr : s.coc.field.running = true) (hup : s.coc.field.link.up = true)
    (hm : s.coc.field.link.missed = 1)
    (hl : l = { s.coc.field.link with up := false, missed := 2, accepted := 0, outage := 2, lastAt := s.time })
    (hy : y = (((s.setCoc (fun c => { c with down := none })).setField (fun f => { f with
      link := l, tx := f.link.requeues l f.tx })).setHwkF (fun h => { h with
        badRow := h.badRow + 1, goodRow := 0, link := h.link || decide (2 ≤ h.badRow + 1) })).linkWithdraws) :
    linkSlotMissed true s = if y.coc.field.link.up = true then y else y.fieldLinkDown := by
  have missed : s.coc.field.link.miss s.time = l := (LinkSide.miss_second hup hm _).trans hl.symm
  have field : (s.setCoc (fun c => { c with down := none })).setField (fun c => { c with
      link := c.link.miss (s.setCoc (fun c => { c with down := none })).time,
      tx := c.link.requeues (c.link.miss (s.setCoc (fun c => { c with down := none })).time) c.tx }) =
      (s.setCoc (fun c => { c with down := none })).setField (fun f => { f with
        link := l, tx := f.link.requeues l f.tx }) := by
    rw [← missed]
    rfl
  have slot : linkSlotMissed true s = s.fieldMiss := by
    simp [linkSlotMissed, hr]
  have miss : s.fieldMiss = if (s.coc.field.link.up && !y.coc.field.link.up) = true then y.fieldLinkDown else y := by
    rw [hy, ← field]
    rfl
  rw [slot, miss, hup]
  cases y.coc.field.link.up <;> rfl

/-! ## Training (R376, R377) -/

theorem linkTrainingStart_due (hup : s.coc.link.up = false) (ht : s.coc.training = false)
    (hl : s.coc.link.lastAt + 1000000 ≤ s.time) :
    linkTrainingStart s = s.setCoc (fun c => { c with training := true }) := by
  simp [linkTrainingStart, hup, ht, hl]

theorem linkTrainingComplete_done {x y : Dev} (ht : s.coc.training = true) (hr : s.coc.field.running = true)
    (hx : s.coc.fresh = false ∧ s.coc.field.trained = true ∧ x = s ∨ s.coc.field.trained = false ∧ x = s.syncLink ∨
      s.coc.fresh = true ∧ s.coc.field.trained = true ∧ s.fieldStart.coc.fresh = true ∧ x = s.fieldStart.syncLink)
    (hy : y = (x.setCoc (fun c => { c with fresh := false })).bootStage 5) :
    linkTrainingComplete s = (y.setField (fun c => { c with link := { c.link with accepted := 0 } })).setCoc
      (fun c => { c with training := false, trained := true, link := { c.link with accepted := 0 } }) := by
  subst hy
  rcases hx with ⟨hf, htr, rfl⟩ | ⟨htr, rfl⟩ | ⟨hf, htr, hfs, rfl⟩
  · simp only [linkTrainingComplete, ht, hr, hf, htr, Bool.and_self, Bool.false_and, Bool.not_true, Bool.or_self,
      Bool.false_eq_true, if_true, if_false]
  · simp only [linkTrainingComplete, ht, hr, htr, Bool.and_self, Bool.and_false, Bool.not_false, Bool.or_true,
      Bool.false_eq_true, if_true, if_false]
  · simp only [linkTrainingComplete, ht, hr, hf, htr, hfs, Bool.and_self, Bool.true_or, if_true]

end

/-- Settles O45: each row by the lemma about its meaning. -/
theorem linkRowsComplete : Obligations.LinkRowsComplete := by
  unfold Obligations.LinkRowsComplete
  intro s
  refine ⟨fun own temp => ⟨fun hr => ⟨?_, ?_⟩, fun bs x y hr hb hx hy => ?_⟩, fun f r x y hf hr htr ht hrec hy => ?_,
    fun f hf _ hup hs => ?_, fun f z hf ht hd hz => ⟨fun h => ?_, fun hwas his => ?_⟩, fun l y hup hm hl hy => ?_,
    fun l y hr hup hm hl hy => ?_, fun hup ht hl => ?_, fun x y ht hr hx hy => ?_⟩
  · exact (State.upd_eq s _).trans (by rw [linkSlotStart_stopped hr])
  · exact Dev.buildUp_stopped (by rw [Dev.buildDown_field, hr])
  · obtain ⟨running, started⟩ := linkSlotStart_running hr hb hx hy (own := own) (temp := temp)
    exact ⟨running, (State.upd_eq s _).trans (by rw [started])⟩
  · exact (State.upd_eq s _).trans (by rw [cocoonDownstreamFrameAccepted_record hf hr htr ht hrec hy])
  · exact (State.upd_eq s _).trans (by rw [cocoonDownstreamFrameAccepted_otherSlot hf hup hs])
  · have kept : (z.coc.link.up && !s.dev.coc.link.up) = false := by
      rcases h with h | h <;> simp [h]
    exact (State.upd_eq s _).trans (by rw [cocoonUpstreamFrameAccepted_taken hf ht hd hz, kept]; rfl)
  · exact (State.upd_eq s _).trans (by rw [cocoonUpstreamFrameAccepted_taken hf ht hd hz, hwas, his]; rfl)
  · exact (State.upd_eq s _).trans (by rw [linkSlotMissed_logic hup hm hl hy])
  · exact (State.upd_eq s _).trans (by rw [linkSlotMissed_field hr hup hm hl hy])
  · exact (State.upd_eq s _).trans (by rw [linkTrainingStart_due hup ht hl])
  · exact (State.upd_eq s _).trans (by rw [linkTrainingComplete_done ht hr hx hy])

/-! ## Commands (R361, R363, R379) -/

section
variable {s : Dev} {d : Desc}

theorem Dev.fios_le (s : Dev) : s.fios ≤ 48 := by
  unfold Dev.fios
  split <;> omega

/-- A mask of the package's channels is one of 48 bits, and names none beyond them. -/
theorem Dev.maskOk {m : Nat} (h : m < 2 ^ s.fios) : s.fioAbsent (m % 2 ^ 48) = false ∧ m < 2 ^ 48 := by
  have within : m < 2 ^ 48 := Nat.lt_of_lt_of_le h (Nat.pow_le_pow_right (by omega) s.fios_le)
  refine ⟨?_, within⟩
  rw [Dev.fioAbsent, Nat.mod_eq_of_lt within]
  exact decide_eq_false (Nat.not_le.2 h)

theorem cocChConfig_passed {n deb per : Nat} {dir : Dir} (hn : n = bitsOf d.object 5 0) (hlt : n < s.fios)
    (ho : bitsOf d.object 31 6 = 0) (hdeb : deb = bitsOf (d.w 4) 15 0) (hper : per = bitsOf (d.w 4) 22 16) (hd : 0 < deb)
    (hp : 0 < per) (hp100 : per ≤ 100) (hz4 : bitsOf (d.w 4) 31 23 = 0) (hz3 : bitsOf (d.w 3) 31 4 = 0)
    (hdir : (bitsOf (d.w 3) 1 0, dir) ∈ [(0, Dir.off), (1, .input), (2, .output)])
    (hl : s.hwk.locked = false ∨ s.hwkBound n = false) :
    cocChConfig d s = s.cocCommand d (.config n ⟨dir, deb, per, bitOf (d.w 3) 2, bitOf (d.w 3) 3⟩) := by
  have n48 : n < 48 := Nat.lt_of_lt_of_le hlt s.fios_le
  have free : (s.hwk.locked && s.hwkBound n) = false := by
    rcases hl with h | h <;> simp [h]
  subst hn hdeb hper
  have present : ¬(bitsOf d.object 5 0 < 48 ∧ s.fios ≤ bitsOf d.object 5 0) := by omega
  simp only [List.mem_cons, Prod.mk.injEq, List.not_mem_nil, or_false] at hdir
  have formed : ¬(48 ≤ bitsOf d.object 5 0 ∨ bitsOf d.object 31 6 ≠ 0 ∨ bitsOf (d.w 3) 1 0 = 3 ∨
      bitsOf (d.w 3) 31 4 ≠ 0 ∨ bitsOf (d.w 4) 31 23 ≠ 0 ∨ bitsOf (d.w 4) 15 0 = 0 ∨ bitsOf (d.w 4) 22 16 = 0 ∨
      100 < bitsOf (d.w 4) 22 16) := by omega
  simp only [cocChConfig, if_neg present, if_neg formed, free, Bool.false_and, Bool.false_eq_true, if_false]
  rcases hdir with ⟨hb, rfl⟩ | ⟨hb, rfl⟩ | ⟨hb, rfl⟩ <;> simp only [hb]

theorem cocOutSet_passed (ho : d.object = 0) (hm : d.w64 3 < 2 ^ s.fios) (hlv : d.w64 5 < 2 ^ 48)
    (hout : ∀ n, n ∈ maskBits 48 (d.w64 3) → (s.fioCfg n).dir = .output)
    (hsafe : ∀ f, s.coc.mirror = some f → f.sag = false ∧ f.wdTrip = false) :
    cocOutSet d s = s.setCoc (fun c => { c with
      outs := c.outs ++ [⟨c.outNo, d.w64 3, d.w64 5, c.tx.rseq, false, false, d⟩], outNo := c.outNo + 1 }) := by
  obtain ⟨absent, h48⟩ := Dev.maskOk hm
  have outputs : (maskBits 48 (d.w64 3)).all (fun n => decide ((s.fioCfg n).dir = .output)) = true :=
    List.all_eq_true.2 fun n hn => decide_eq_true (hout n hn)
  have formed : ¬(d.object ≠ 0 ∨ 2 ^ 48 ≤ d.w64 3 ∨ 2 ^ 48 ≤ d.w64 5 ∨
      (!(maskBits 48 (d.w64 3)).all (fun n => decide ((s.fioCfg n).dir = .output))) = true) := by
    simp only [ho, outputs, not_or]
    exact ⟨not_not_intro rfl, Nat.not_le.2 h48, Nat.not_le.2 hlv, by decide⟩
  simp only [cocOutSet, absent, if_neg formed, Bool.false_eq_true, if_false]
  cases hmir : s.coc.mirror with
  | none => rfl
  | some f =>
    obtain ⟨hsag, hwd⟩ := hsafe f hmir
    simp only [hsag, hwd, Bool.or_self, Bool.false_eq_true, if_false]

theorem cocClear_passed (ho : d.object = 0) (hm : d.w64 3 < 2 ^ s.fios) :
    cocClear d s = s.cocCommand d (.clear (d.w64 3)) := by
  obtain ⟨absent, h48⟩ := Dev.maskOk hm
  have formed : ¬(d.object ≠ 0 ∨ 2 ^ 48 ≤ d.w64 3) := not_or.2 ⟨not_not_intro ho, Nat.not_le.2 h48⟩
  simp only [cocClear, absent, if_neg formed, Bool.false_eq_true, if_false]

theorem cocRelease_passed (ho : d.object = 0) (hz : bitsOf (d.w 3) 31 2 = 0)
    (hs : bitOf (d.w 3) 0 = true → s.fieldLow = false) (hw : bitOf (d.w 3) 1 = true → s.coc.link.up = true) :
    cocRelease d s = s.cocCommand d (.release (bitOf (d.w 3) 0) (bitOf (d.w 3) 1)) := by
  have granted : ((bitOf (d.w 3) 0 && s.fieldLow) || (bitOf (d.w 3) 1 && !s.coc.link.up)) = false := by
    cases h0 : bitOf (d.w 3) 0 <;> cases h1 : bitOf (d.w 3) 1 <;> simp_all
  have formed : ¬(d.object ≠ 0 ∨ bitsOf (d.w 3) 31 2 ≠ 0) := not_or.2 ⟨not_not_intro ho, not_not_intro hz⟩
  simp only [cocRelease, if_neg formed, granted, Bool.false_eq_true, if_false]

theorem cocRead_frame {f : UpFrame} (ho : d.object = 0) (hf : s.coc.mirror = some f) :
    cocRead d s = s.complete d .done f.dt0 (maskWords (f.mask (·.level)) ++ maskWords (f.mask (·.valid))
      ++ maskWords (f.mask (·.faulty)) ++ [f.vmon, wordN f.taps]) := by
  simp only [cocRead, if_neg (not_not_intro ho), hf]

theorem cocRead_noFrame (ho : d.object = 0) (hf : s.coc.mirror = none) :
    cocRead d s = s.complete d .done (s.dispatchedAt d) [0, 0, 0, 0, 0, 0, 0, 0x100] := by
  simp only [cocRead, if_neg (not_not_intro ho), hf]

end

/-- Settles O46: each command by the lemma about its meaning when its checks pass. -/
theorem cocoonCommandsComplete : Obligations.CocoonCommandsComplete := by
  unfold Obligations.CocoonCommandsComplete
  intro s d hs
  have sent : ∀ f : Dev → Dev, s.cmd d f = .next (s.withDev (f s.dev)) := fun f =>
    (State.cmd_sent hs f).trans (State.upd_eq s f)
  refine ⟨fun n deb per dir hn hlt ho hdeb hper hd hp hp100 hz4 hz3 hdir hl => ?_, fun ho hm hlv hout hsafe => ?_,
    fun ho hm => ?_, fun ho hz hsag hw => ?_, fun f ho hf => ?_, fun ho hf => ?_⟩
  · exact (sent _).trans (by rw [cocChConfig_passed hn hlt ho hdeb hper hd hp hp100 hz4 hz3 hdir hl])
  · exact (sent _).trans (by rw [cocOutSet_passed ho hm hlv hout hsafe])
  · exact (sent _).trans (by rw [cocClear_passed ho hm])
  · exact (sent _).trans (by rw [cocRelease_passed ho hz hsag hw])
  · exact (sent _).trans (by rw [cocRead_frame ho hf])
  · exact (sent _).trans (by rw [cocRead_noFrame ho hf])

end Sys2Proof.Machine
end


section
/-! PROOFS. Resets, start-up, the supply's failure and the power states (17 R383-R396). -/
namespace Sys2Proof.Machine

/-! ## Resets (R385, R392, R394) -/

section
variable {s : Dev}

theorem pllLockLost_locked (h : s.pmu.locked = true) : pllLockLost s = s.resetLogic 2 (putBit s.pmu.held 5 true) := if_pos h

section
variable {bit : Nat} {ok corr : Bool} (hb : tbit s.pmu.held bit = true)
include hb

/-- What lets go is not the last that holds the logic die. -/
theorem Dev.letGo_held (h : putBit s.pmu.held bit false ≠ 0) :
    s.letGo bit ok corr = { s with pmu := { s.pmu with held := putBit s.pmu.held bit false } } := by
  rw [Dev.letGo, if_pos hb]
  exact if_neg h

/-- The last lets go. -/
theorem Dev.letGo_last (h : putBit s.pmu.held bit false = 0) :
    s.letGo bit ok corr = ({ s with pmu := { s.pmu with held := 0 } } : Dev).startUp ok corr := by
  have go : s.letGo bit ok corr =
      ({ s with pmu := { s.pmu with held := putBit s.pmu.held bit false } } : Dev).startUp ok corr := by
    rw [Dev.letGo, if_pos hb]
    exact if_pos h
  rw [go, h]

end

theorem pmuResetDelayExpiry_reached {t : Nat} {ok corr : Bool} (hr : s.pmu.resetAt = some t) (ht : t ≤ s.dt) :
    pmuResetDelayExpiry ok corr s = (s.resetLogic 3 0).startUp ok corr := by
  simp only [pmuResetDelayExpiry, hr, if_pos ht]

/-! ## Start-up (R392, R393) -/

theorem rootPllLock_free (hh : s.pmu.held = 0) (hl : s.pmu.locked = false) :
    rootPllLock s = { s with
      dt := 0
      sram := []
      coc := { s.coc with training := true }
      pmu := { s.pmu with locked := true, stage := 2, pwr := domainsOn 0 (2 ^ s.clusters - 1) (s.bit Reg.pmuCfg 4) } } :=
  if_neg (by simp [hh, hl])

/-- Every present target loads; `z` is the block once they have, and the firmware's duties follow a start without error. -/
theorem firmwareLoadComplete_loads {a b : Nat} {pkg : List Nat} {y z : Dev} (hl : s.pmu.locked = true)
    (hm : s.chry.mounted = true) (hn : s.pmu.loaded = false)
    (hy : y = (List.range s.clusters ++ [4]).foldl (fun (s : Dev) t => s.loadTarget a b pkg t) s)
    (hz : z = ({ y with pmu := { y.pmu with
      loaded := true, stage := if y.pmu.bootErr = 0 then 8 else 7, cocAbsent := !y.coc.link.up } } : Dev)) :
    firmwareLoadComplete a b pkg s = if y.pmu.bootErr = 0 then z.admitFirmware else z := by
  subst hz
  simp only [firmwareLoadComplete, hl, hm, hn, Bool.not_true, Bool.or_self, Bool.false_eq_true, if_false, ← hy]
  rfl

theorem devReady_complete (hr : s.pmu.ready = false) (hf : s.fuseOk = true) (hl : s.pmu.loaded = true)
    (he : s.pmu.bootErr = 0)
    (hc : s.pmu.cocAbsent = true ∨ s.coc.calFail = true ∨ ∃ m, s.coc.mirror = some m ∧ m.calOk = true) :
    devReady s = ({ s with pmu := { s.pmu with ready := true, stage := 9 } } : Dev).emit (.pin .devReady true) := by
  have cocoon : (s.pmu.cocAbsent || s.coc.calFail || (s.coc.mirror.map (·.calOk)).getD false) = true := by
    rcases hc with h | h | ⟨m, hm, h⟩
    · simp [h]
    · simp [h]
    · simp [hm, h]
  have conditions : (!s.pmu.ready && s.readyConditions) = true := by
    simp only [Dev.readyConditions, hr, hf, hl, he, cocoon, Bool.not_false, Bool.and_self, beq_self_eq_true]
  exact if_pos conditions

/-! ## Power failure (R383) -/

section
variable {pf low : Bool} {v : Nat} (h : (pf || low) = true)
include h

theorem pmuPowerFail_unarmed (ha : s.pmu.pfArmed = false) :
    pmuPowerFail pf low v s = { s with pmu := { s.pmu with pfN := s.pmu.pfN && !pf, vddLow := s.pmu.vddLow || low } } := by
  have fails : (!pf && !low) = false := by
    rw [← Bool.not_or, h]
    rfl
  simp only [pmuPowerFail, fails, Bool.false_eq_true, if_false]
  exact if_neg (by simp [Dev.setPmu, ha])

theorem pmuPowerFail_armed {y : Dev} (ha : s.pmu.pfArmed = true)
    (hy : y = ({ s with pmu := { s.pmu with
      pfN := s.pmu.pfN && !pf, vddLow := s.pmu.vddLow || low, pfArmed := false } } : Dev).setBit Reg.pmuPf 2 true) :
    pmuPowerFail pf low v s =
      ((((y.event 13 8 3 0 y.dt [b2n pf + 2 * b2n low, v]).chrInc 1 4)).commitRecord 2 none).storePosition := by
  have fails : (!pf && !low) = false := by
    rw [← Bool.not_or, h]
    rfl
  subst hy
  simp only [pmuPowerFail, fails, Bool.false_eq_true, if_false]
  exact if_pos ha

end

theorem pmuPowerOk_unarmed {v : Nat} (ha : s.pmu.pfArmed = false) :
    pmuPowerOk v s = ({ s with pmu := { s.pmu with pfN := true, vddLow := false, pfArmed := true } } : Dev).event
      13 2 4 0 s.dt [v] := by
  simp only [pmuPowerOk, ha, Bool.false_eq_true, if_false]
  rfl

end

/-- Settles O47: each reset by what it holds or lets go of, each step of the start-up by the lemma about it. -/
theorem resetStartUpComplete : Obligations.ResetStartUpComplete := by
  unfold Obligations.ResetStartUpComplete
  refine ⟨fun s p hp => ?_, fun s p hp hon => ?_⟩
  · subst hp
    have released : ∀ (f : Dev → Dev) (bit : Nat) (ok corr : Bool), f s.dev = s.dev.letGo bit ok corr →
        tbit s.dev.pmu.held bit = true →
        (putBit s.dev.pmu.held bit false ≠ 0 → s.upd f = .next (s.withDev { s.dev with
          pmu := { s.dev.pmu with held := putBit s.dev.pmu.held bit false } })) ∧
        (putBit s.dev.pmu.held bit false = 0 → s.upd f = .next (s.withDev
          (({ s.dev with pmu := { s.dev.pmu with held := 0 } } : Dev).startUp ok corr))) :=
      fun f bit ok corr hf hb => ⟨fun h => (State.upd_eq s f).trans (by rw [hf, Dev.letGo_held hb h]),
        fun h => (State.upd_eq s f).trans (by rw [hf, Dev.letGo_last hb h])⟩
    refine ⟨State.upd_eq s _, fun i => State.upd_eq s _, fun h => ?_, fun ok corr hb => ?_, fun i ok corr hb => ?_,
      fun ok corr hb => ?_, fun t ok corr hon hr ht => ?_⟩
    · exact (State.upd_eq s _).trans (by rw [pllLockLost_locked h])
    · exact released _ 0 ok corr rfl hb
    · exact released _ (i + 1) ok corr rfl hb
    · exact released _ 5 ok corr rfl hb
    · exact (State.upd_on hon _).trans (by rw [pmuResetDelayExpiry_reached hr ht])
  · subst hp
    refine ⟨fun hh hl => ?_, fun a b pkg y z hl hm hn hy hz => ?_, fun hr hf hl he hc => ?_, fun pf low v h ha => ?_,
      fun pf low v y h ha hy => ?_, fun v ha => ?_⟩
    · exact (State.upd_eq s _).trans (by rw [rootPllLock_free hh hl])
    · exact (State.upd_on hon _).trans (by rw [firmwareLoadComplete_loads hl hm hn hy hz])
    · exact (State.upd_on hon _).trans (by rw [devReady_complete hr hf hl he hc])
    · exact (State.upd_on hon _).trans (by rw [pmuPowerFail_unarmed h ha])
    · exact (State.upd_on hon _).trans (by rw [pmuPowerFail_armed h ha hy])
    · exact (State.upd_on hon _).trans (by rw [pmuPowerOk_unarmed ha])

/-! ## Power states (R386-R389) -/

section
variable {s : Dev}

section
variable {y : Dev} (hy : y = s.noteConditions)
include hy

/-- A shallower target in STEEP or BEAN is the wake of source 2 (R389). -/
theorem powerTargetChange_wakes {k : Nat} (hk : y.sleepState = some k) (hp : ∀ j, s.pmu.phase ≠ .entering j)
    (hd : y.deepest < k) (ht : k ≤ s.pmu.target) : powerTargetChange s = y.wake 2 0 := by
  have shallower : y.deepest < k ∧ k ≤ y.pmu.target := ⟨hd, by rw [hy]; exact ht⟩
  have phase : y.pmu.phase = s.pmu.phase := by
    rw [hy]
    rfl
  simp only [powerTargetChange, ← hy]
  cases h : s.pmu.phase with
  | settled => simp only [phase, h, hk, if_pos shallower]
  | entering j => exact absurd h (hp j)
  | isolated j => simp only [phase, h, hk, if_pos shallower]
  | leaving j =>
    rw [Dev.sleepState, phase, h] at hk
    cases hk

theorem powerTargetChange_takes (h : y.sleepState = none ∨ (∃ j, s.pmu.phase = .entering j) ∨
    ∃ k, y.sleepState = some k ∧ (k ≤ y.deepest ∨ s.pmu.target < k)) : powerTargetChange s = y.takeTarget y.deepest := by
  have phase : y.pmu.phase = s.pmu.phase := by
    rw [hy]
    rfl
  have target : y.pmu.target = s.pmu.target := by
    rw [hy]
    rfl
  simp only [powerTargetChange, ← hy]
  rcases h with hk | ⟨j, hj⟩ | ⟨k, hk, hd⟩
  · simp only [hk]
    cases y.pmu.phase <;> rfl
  · simp only [phase, hj]
  · have stays : ¬(y.deepest < k ∧ k ≤ y.pmu.target) := by
      rw [target]
      omega
    simp only [hk]
    cases y.pmu.phase with
    | settled => exact if_neg stays
    | entering j => rfl
    | isolated j => exact if_neg stays
    | leaving j => rfl

theorem powerEntryDelayExpiry_reached {k : Nat} (hk : 2 ≤ k) (h : y.heldLong k = true) :
    powerEntryDelayExpiry k s = y.takeTarget y.deepest := by
  subst hy
  exact if_pos ⟨hk, h⟩

end

theorem powerStateEntry_isolates {k : Nat} {y : Dev} (hp : s.pmu.phase = .entering k) (hk : 3 ≤ k)
    (h : s.pmu.suspended = true ∨ 3 ≤ s.pmu.state ∧ s.pmu.stored = true ∧ s.chry.run.isNone = true)
    (hy : y = s.domainsOff k) :
    powerStateEntry s = { y with pmu := { y.pmu with phase := .isolated k, entryAt := y.dt } } := by
  have ready : 3 ≤ k ∧ (s.pmu.suspended || 3 ≤ s.pmu.state && s.pmu.stored && s.chry.run.isNone) = true := by
    refine ⟨hk, ?_⟩
    rcases h with h | ⟨h1, h2, h3⟩
    · simp [h]
    · simp [h1, h2, h3]
  subst hy
  simp only [powerStateEntry, hp, if_pos ready]
  rfl

/-- A transition ends: `z` is the block with the domains of the state it ends in. -/
theorem pmuState_settles {k : Nat} {z : Dev} (h : (s.pmu.phase = .isolated k ∨ (s.pmu.phase = .entering k ∧ k < 3)) ∧ z = s ∨
    s.pmu.phase = .leaving k ∧ (3 ≤ s.pmu.state ∧ k < 3 ∧ z = s.domainsBack ∨
      s.pmu.state = 4 ∧ 3 ≤ k ∧ z = { s with pmu := { s.pmu with pwr := domainsOn k 0 false } } ∨
      s.pmu.state < 4 ∧ ¬(3 ≤ s.pmu.state ∧ k < 3) ∧ z = s)) : pmuState s = z.settleIn k := by
  rcases h with ⟨hp | ⟨hp, hk⟩, rfl⟩ | ⟨hp, h⟩
  · simp only [pmuState, hp]
  · simp only [pmuState, hp, if_pos hk]
  · simp only [pmuState, hp]
    rcases h with ⟨hs, hk, rfl⟩ | ⟨hs, hk, rfl⟩ | ⟨hs, hk, rfl⟩
    · rw [if_pos ⟨hs, hk⟩]
    · rw [if_neg (by omega), if_pos hs]
      rfl
    · rw [if_neg hk, if_neg (by omega)]

/-- A wake from STEEP or BEAN, or from the entry into it (R389): `k` is the state it leaves. -/
theorem Dev.wake_acts {source object k : Nat} {y : Dev}
    (hk : s.pmu.phase = .settled ∧ 3 ≤ k ∧ s.pmu.state = k ∨ s.pmu.phase = .isolated k ∨
      ∃ j, s.pmu.phase = .entering j ∧ 3 ≤ j ∧ s.wakes source object j = true ∧ k = s.pmu.state)
    (hw : (∀ j, s.pmu.phase ≠ .entering j) → s.wakes source object k = true) (hs : source ≠ 2)
    (hy : y = (({ s with pmu := { s.pmu with
      lastWake := wordN (source * 2 ^ 24 + object % 2 ^ 24), steepSince := none, beanSince := none } } : Dev).event 13 2 2 0
        s.dt [source, object, k]).noteConditions) : s.wake source object = y.takeTarget y.deepest := by
  subst hy
  rcases hk with ⟨hp, h3, rfl⟩ | hp | ⟨j, hp, hj, hwake, rfl⟩
  · have wakes := hw (by simp [hp])
    have sleeps : s.sleepState = some s.pmu.state := by simp only [Dev.sleepState, hp, if_pos h3]
    simp only [Dev.wake, sleeps, wakes, if_true, hp, if_neg hs, Dev.setPmu]
  · have wakes := hw (by simp [hp])
    have sleeps : s.sleepState = some k := by simp only [Dev.sleepState, hp]
    simp only [Dev.wake, sleeps, wakes, if_true, hp, if_neg hs, Dev.setPmu]
  · have sleeps : s.sleepState = some j := by simp only [Dev.sleepState, hp, if_pos hj]
    simp only [Dev.wake, sleeps, hwake, if_true, hp, if_neg hs, Dev.setPmu]

theorem pmuTimerExpiry_reached {n : Nat} (hp : ∀ j, s.pmu.phase ≠ .entering j) (hn : n = (s.reg Reg.pmuTimer).toNat)
    (h0 : n ≠ 0) (ht : s.pmu.entryAt + n * 1000000 ≤ s.dt) : pmuTimerExpiry s = s.wake 10 0 := by
  subst hn
  unfold pmuTimerExpiry
  dsimp only
  split
  · next j h => exact absurd h (hp j)
  · exact if_pos ⟨h0, ht⟩

theorem pmuStatus_passed {d : Desc} (ho : d.object = 0) : pmuStatus d s =
    s.complete d .done (s.dispatchedAt d) [s.pmuStatWord, s.pmuTolWord, s.pmuDomWord, s.pmu.lastWake] :=
  if_neg (not_not_intro ho)

theorem pmuReset_passed {d : Desc} (ho : d.object = 0) (hk : bitsOf (d.w 3) 15 0 = 0xC0FE) :
    pmuReset d s = { s with pmu := { s.pmu with resetAt := some (s.pmu.resetAt.getD (s.dispatchedAt d + 1000000)) } } :=
  if_neg (not_or.2 ⟨not_not_intro ho, not_not_intro hk⟩)

end

/-- Settles O48: each event and command by the lemma about its meaning. -/
theorem powerStatesComplete : Obligations.PowerStatesComplete := by
  unfold Obligations.PowerStatesComplete
  intro s p hp hon
  subst hp
  refine ⟨fun y hy => ⟨fun k hk hj hd ht => ?_, fun h => ?_, fun k hk h => ?_⟩, fun k y hph hk h hy => ?_, fun k z h => ?_,
    fun z k y w hy hw => ?_, fun source object k y hk hw hs hy => ?_, fun n hj hn h0 ht => ?_, fun d hs ho => ?_,
    fun d hs ho hk => ?_⟩
  · exact (State.upd_on hon _).trans (by rw [powerTargetChange_wakes hy hk hj hd ht])
  · exact (State.upd_on hon _).trans (by rw [powerTargetChange_takes hy h])
  · exact (State.upd_on hon _).trans (by rw [powerEntryDelayExpiry_reached hy hk h])
  · exact (State.upd_on hon _).trans (by rw [powerStateEntry_isolates hph hk h hy])
  · exact (State.upd_on hon _).trans (by rw [pmuState_settles h])
  · subst hw hy
    rfl
  · exact (State.upd_on hon _).trans (by rw [Dev.wake_acts hk hw hs hy])
  · exact (State.upd_on hon _).trans (by rw [pmuTimerExpiry_reached hj hn h0 ht])
  · exact (State.cmd_on hon hs _).trans (by rw [pmuStatus_passed ho])
  · exact (State.cmd_on hon hs _).trans (by rw [pmuReset_passed ho hk])

end Sys2Proof.Machine
end


section
/-! PROOFS. The lifetime record and the firmware update (18 R403-R413). -/
namespace Sys2Proof.Machine

section
variable {s : Dev}

/-! ## The mount (R406) -/

section
variable {corr unc fmt : Nat} {x y z w : Dev} (hl : s.pmu.locked = true) (hm : s.chry.mounted = false)
  (hfmt : fmt = formatOf (if (kget UpdTarget.reset s.upd.targets 0).active
    then (kget UpdTarget.reset s.upd.targets 0).pkgB else (kget UpdTarget.reset s.upd.targets 0).pkgA))
  (hz : z = ({ y with
    cpf := { y.cpf with table := newer (·.gen) y.chry.tabA y.chry.tabB, stored := newer (·.serial) y.chry.posA y.chry.posB }
    pmu := { y.pmu with stage := if y.pmu.ready then y.pmu.stage else 4 } } : Dev))
include hl hm hfmt hz

/-- A record of the package's own format is loaded as it is: `x` after the counters, `y` after the record, `w` after its
event; the loss of a power-fail commit is told with it. -/
theorem chrMount_loaded {r : ChrRecord} {t : Bool} (hc : s.chry.current false false = some (t, r)) (hr : r.format = fmt)
    (hx : x = (({ s with chr := mergeCounters r.counters s.chr } : Dev).chrAdd 9 89 corr).chrAdd 9 94 unc)
    (hy : y = { x with chry := { x.chry with
      mounted := true, fresh := false, archived := false, format := fmt, gen := r.gen, cur := t,
      archive := x.chry.archive.take 29, since := x.dt, period := x.chrPeriod, lost := none } })
    (hw : w = z.event 14 2 2 0xFF s.dt [1, fmt, r.gen]) :
    chrMount corr unc false false s = match s.chry.lost with
      | some g => w.event 14 6 3 0xFF w.dt [g]
      | none => w := by
  have outcome : mountOutcome fmt (some (t, r)) = 1 := if_pos hr
  have lost : x.chry.lost = s.chry.lost := by
    rw [hx]
    rfl
  have time : x.dt = s.dt := by
    rw [hx]
    rfl
  have kept : (if (1 : Nat) = 3 ∨ (1 : Nat) = 4 then [r] else []) = [] := if_neg (by decide)
  rw [← time] at hw
  subst hw hz hy
  unfold chrMount
  simp only [hl, hm, ← hfmt, hc, outcome, show (1 : Nat) ≤ 3 by decide, if_true, kept, ← hx, lost, Bool.not_true, Bool.or_self,
    Bool.false_eq_true, if_false, List.append_nil, Option.map_some, Option.getD_some, hr] <;> rfl

/-- No valid record: the counters begin at what was counted since the reset. -/
theorem chrMount_fresh {bA bB : Bool} (hc : s.chry.current bA bB = none) (hlost : s.chry.lost = none)
    (hx : x = (({ s with chr := mergeCounters [] s.chr } : Dev).chrAdd 9 89 corr).chrAdd 9 94 unc)
    (hy : y = { x with chry := { x.chry with
      mounted := true, fresh := true, archived := false, format := fmt, gen := 1, cur := true,
      slotA := if bA then none else x.chry.slotA, slotB := if bB then none else x.chry.slotB,
      archive := x.chry.archive.take 29, since := x.dt, period := x.chrPeriod, lost := none } }) :
    chrMount corr unc bA bB s = z.event 14 6 2 0xFF s.dt [5, 0, 1] := by
  have outcome : mountOutcome fmt none = 5 := rfl
  have lost : x.chry.lost = none := by
    rw [hx]
    exact hlost
  have time : x.dt = s.dt := by
    rw [hx]
    rfl
  rw [← time]
  subst hz hy
  unfold chrMount
  simp only [hl, hm, ← hfmt, hc, outcome, ← hx, lost, Bool.not_true, Bool.or_self, Bool.false_eq_true, if_false,
    List.append_nil, Option.map_none, Option.getD_none]
  rfl

end

/-! ## Commits and commands (R403-R405, R413) -/

/-- A commit that falls due with none running starts. -/
theorem Dev.commitRecord_starts {cause : Nat} {d : Option Desc} (hm : s.chry.mounted = true) (hr : s.chry.run = none)
    (hc : ¬(cause = 2 ∨ cause = 3)) :
    s.commitRecord cause d = { s with chry := { s.chry.setSlot (!s.chry.cur) none with
      run := some ⟨cause, d.toList, s.chry.gen + 1, s.dt, s.chr⟩ } } := by
  simp only [Dev.commitRecord, hm, hr, Bool.not_true, Bool.false_eq_true, if_false, Dev.beginCommit, if_neg hc]
  rfl

theorem chrPeriodExpiry_due (hm : s.chry.mounted = true) (hr : s.chry.run = none)
    (ht : s.chry.since + s.chry.period * 60000000000 ≤ s.dt) :
    chrPeriodExpiry s = { s with chry := { s.chry.setSlot (!s.chry.cur) none with
      run := some ⟨1, [], s.chry.gen + 1, s.dt, s.chr⟩ } } := by
  have due : (s.chry.run.isNone && decide (s.chry.since + s.chry.period * 60000000000 ≤ s.dt)) = true := by
    simp only [hr, Option.isNone_none, decide_eq_true ht, Bool.and_self]
  rw [chrPeriodExpiry, if_pos due, Dev.commitRecord_starts hm hr (by decide)]
  rfl

/-- The end of a commit that one CHR_COMMIT asked for. -/
theorem chrCommitted_asked {r : ChrRun} {m : KMap Nat} {y z : Dev} {d : Desc} (hr : s.chry.run = some r) (hc : r.cause = 4)
    (hd : r.descs = [d]) (hcap : s.savePosition.saveTable.capture r.start = (m, y))
    (hz : z = (y.setChry (fun c => { c.setSlot (!c.cur) (some (y.record m r.gen r.at_)) with
      cur := !c.cur, gen := r.gen, last := y.dt, since := y.dt, period := y.chrPeriod, run := none, lost := none })).event
        14 1 1 0xFF y.dt [r.gen, 4]) :
    chrCommitted s = z.complete d .done z.dt [lo64 r.gen, hi64 r.gen] := by
  have others : ¬((r.cause = 2 ∨ r.cause = 3) ∧ 3 ≤ (y.setChry (fun c => { c.setSlot (!c.cur) (some (y.record m r.gen r.at_)) with
      cur := !c.cur, gen := r.gen, last := y.dt, since := y.dt, period := y.chrPeriod, run := none, lost := none })).pmu.state) := by
    omega
  subst hz
  simp only [chrCommitted, hr, hcap, if_neg others, hd, List.foldl_cons, List.foldl_nil]
  simp only [hc]
  rfl

section
variable {d : Desc} (ho : d.object = 0)
include ho

theorem chrCommit_starts (hm : s.chry.mounted = true) (hr : s.chry.run = none) :
    chrCommit d s = { s with chry := { s.chry.setSlot (!s.chry.cur) none with
      run := some ⟨4, [d], s.chry.gen + 1, s.dt, s.chr⟩ } } := by
  simp only [chrCommit, if_neg (not_not_intro ho), hm, Bool.not_true, Bool.false_eq_true, if_false]
  rw [Dev.commitRecord_starts hm hr (by decide)]
  rfl

theorem chrRead_passed {r : ChrRecord} {b : List Byte} {y : Dev} (hp : s.powered 10 = true) (hz : bitsOf (d.w 3) 15 8 = 0)
    (ha : s.addrOk d (d.w64 4) (d.w 6).toNat = true)
    (hr : s.readRecord (bitsOf (d.w 3) 1 0) (bitsOf (d.w 3) 7 2) = some r) (hb : r.part (bitsOf (d.w 3) 31 16) = some b)
    (hy : y = s.hostWrite d (d.w64 4) (b.take (d.w 6).toNat)) :
    chrRead d s = y.complete d .done y.dt [wordN (b.take (d.w 6).toNat).length, wordN r.format, lo64 r.gen] := by
  have time : y.dt = s.dt := by
    rw [hy]
    exact Dev.hostWrite_dt ..
  have readable : ¬(bitsOf (d.w 3) 1 0 ≠ 0 ∧ s.powered 10 = false) := by simp [hp]
  have formed : ¬(d.object ≠ 0 ∨ bitsOf (d.w 3) 15 8 ≠ 0 ∨ (!s.addrOk d (d.w64 4) (d.w 6).toNat) = true) := by
    simp [ho, hz, ha]
  rw [time]
  subst hy
  simp only [chrRead, if_neg readable, if_neg formed, hr, hb]

end
end

/-- Settles O49: each row by the lemma about its meaning. -/
theorem recordRowsComplete : Obligations.RecordRowsComplete := by
  unfold Obligations.RecordRowsComplete
  intro s h10 h0
  refine ⟨fun corr unc fmt y z hl hm hfmt hz => ⟨fun r t hc hr hy => ?_, fun bA bB hc hlost hy => ?_⟩, fun hm hr ht => ?_,
    fun r m y z d hr hc hd hcap hz => ?_, fun d hs ho hm hr => ?_, fun d r b y hs ho hz ha hr hb hy => ?_⟩
  · have mount := State.upd_on h10 (chrMount corr unc false false)
    rw [chrMount_loaded hl hm hfmt hz hc hr rfl hy rfl] at mount
    refine ⟨fun hlost => mount.trans ?_, fun g v hlost hv => mount.trans ?_⟩
    · rw [hlost]
    · rw [hlost, hv]
  · exact (State.upd_on h10 _).trans (by rw [chrMount_fresh hl hm hfmt hz hc hlost rfl hy])
  · exact (State.upd_on h10 _).trans (by rw [chrPeriodExpiry_due hm hr ht])
  · exact (State.upd_on h10 _).trans (by rw [chrCommitted_asked hr hc hd hcap hz])
  · exact (State.cmd_on h10 hs _).trans (by rw [chrCommit_starts ho hm hr])
  · exact (State.cmd_on h0 hs _).trans (by rw [chrRead_passed ho h10 hz ha hr hb hy])

/-! ## The firmware update (R407-R413) -/

section
variable {s : Dev} {d : Desc} {t : Nat} {x : UpdTarget}

theorem Dev.clusters_le (s : Dev) : s.clusters ≤ 4 := by
  have tier : s.partHeld.tier ≤ 2 := by
    cases s.partHeld <;> decide
  unfold Dev.clusters
  omega

/-- An update of a cluster that is down begins at once. -/
theorem Dev.startUpdate_down (hlt : t < s.clusters) (hop : s.upd.op = none) (hup : s.clusterUp t = false) (b : Bool)
    (cause : Nat) : s.startUpdate d t b cause = s.setUpdOp (some ⟨t, b, cause, some d, some s.dt⟩) := by
  have cluster : t ≠ 4 := by
    have := s.clusters_le
    omega
  simp [Dev.startUpdate, hop, cluster, hup, Dev.updateCluster]

/-- A trial ends, by the command or by its time. -/
theorem Dev.confirmTrial_eq {y : Dev} (hx : x = s.target t)
    (hy : y = s.setTarget t { x with active := x.tslot, trial := false, back := 0 }) (byCommand : Bool) :
    s.confirmTrial t byCommand = y.event 14 2 0x0102 t y.dt [x.runPkg, b2n byCommand] := by
  subst hy hx
  rfl

section
variable (ht : t = bitsOf d.object 2 0) (hz : bitsOf d.object 31 3 = 0) (hlt : t < s.clusters) (hx : x = s.target t)
include ht hz hlt

theorem Dev.updCheck_passed : s.updCheck d = none := by
  have := s.clusters_le
  subst ht
  simp only [Dev.updCheck]
  rw [if_neg (by omega), if_neg (by omega)]

include hx

theorem updWrite_passed {img : HostBytes} {b : List Byte} {y : Dev} (htr : x.trial = false)
    (hb : b = (s.fetch d (d.w64 4) img).take (d.w 6).toNat) (hn : (d.w 6).toNat ≤ 65536)
    (hoff : (d.w 3).toNat + (d.w 6).toNat ≤ 0x100000) (ha : s.addrOk d (d.w64 4) (d.w 6).toNat = true)
    (hop : s.upd.op = none) (hy : y = (s.setFlashBytes (slotBase t (!x.active) + (d.w 3).toNat) b).setTarget t
      (x.setVerified (!x.active) false)) : updWrite d img s = y.complete d .done y.dt [wordN b.length] := by
  have passed := Dev.updCheck_passed ht hz hlt
  subst hy hb hx ht
  have formed : ¬((s.target (bitsOf d.object 2 0)).trial = true ∨ 65536 < (d.w 6).toNat ∨
      0x100000 < (d.w 3).toNat + (d.w 6).toNat ∨ (!s.addrOk d (d.w64 4) (d.w 6).toNat) = true) := by
    simp only [htr, ha, Bool.not_true, Bool.false_eq_true, false_or, or_false]
    omega
  simp only [updWrite, passed, if_neg formed, hop, Option.any_none, Bool.false_eq_true, if_false]

theorem updVerify_good {pkg : Nat} (hpkg : pkg = leAt (s.flashBytes (slotBase t (!x.active)) 64) 8 4 % 2 ^ 24)
    (hf : s.imageFault t (!x.active) true = 0) : updVerify d true s =
      (s.setTarget t ((x.setVerified (!x.active) true).setPkg (!x.active) pkg)).complete d .done s.dt [0, wordN pkg] := by
  have passed := Dev.updCheck_passed ht hz hlt
  subst hx ht
  simp only [updVerify, passed, hf, if_true, ← hpkg]

theorem updActivate_down (hv : x.verified (!x.active) = true) (hop : s.upd.op = none) (hup : s.clusterUp t = false) :
    updActivate d s = s.setUpdOp (some ⟨t, !x.active, 0, some d, some s.dt⟩) := by
  have passed := Dev.updCheck_passed ht hz hlt
  have start := Dev.startUpdate_down (d := d) hlt hop hup (!x.active) 0
  subst hx ht
  simp only [updActivate, passed, hv, Bool.not_true, Bool.false_eq_true, if_false, start]

theorem updRollback_down (htr : x.trial = false) (hv : x.verified (!x.active) = true) (hop : s.upd.op = none)
    (hup : s.clusterUp t = false) : updRollback d s = s.setUpdOp (some ⟨t, !x.active, 1, some d, some s.dt⟩) := by
  have passed := Dev.updCheck_passed ht hz hlt
  have start := Dev.startUpdate_down (d := d) hlt hop hup (!x.active) 1
  subst hx ht
  simp only [updRollback, passed, htr, hv, if_true, Bool.false_eq_true, if_false, start]

theorem updConfirm_trial {y : Dev} (htr : x.trial = true) (hback : x.back = 0) (hop : s.upd.op = none)
    (hy : y = s.setTarget t { x with active := x.tslot, trial := false, back := 0 }) :
    updConfirm d s = (y.event 14 2 0x0102 t y.dt [x.runPkg, 1]).complete d .done s.dt [wordN (b2n x.tslot)] := by
  have passed := Dev.updCheck_passed ht hz hlt
  have confirmed := Dev.confirmTrial_eq hx hy true
  have free : ¬(x.back ≠ 0 ∨ s.upd.op.any (fun o => o.target == t) = true) := by
    simp [hback, hop]
  subst hx ht
  simp only [updConfirm, passed, htr, Bool.not_true, Bool.false_eq_true, if_false, if_neg free]
  rw [confirmed]
  rfl

end

/-- The loaded image runs on a cluster that is down, and the activation completes. -/
theorem updActivated_activates {o : UpdOp} {y : Dev} {e : Nat} (hlt : t < s.clusters) (hop : s.upd.op = some o)
    (htg : o.target = t) (hc : o.cause = 0) (hd : o.desc = some d) (he : o.commit = some e) (hup : s.clusterUp t = false)
    (hf : s.eng.falling = none) (hy : y = (s.runImage o).setUpdOp none) :
    updActivated s = (y.event 14 2 0x0101 t y.dt [(y.target t).runPkg, b2n o.slot]).complete d .done e
      [wordN (y.target t).runPkg] := by
  subst htg
  have ready : s.updateReady o = true := by
    simp [Dev.updateReady, he, hup, hf]
  subst hy
  simp only [updActivated, hop, ready, if_true, hc, hd, he, Option.getD_some]
  rfl

theorem trialTimeout_reached {y : Dev} (hx : x = s.target t) (htr : x.trial = true) (hback : x.back = 0)
    (hop : s.upd.op = none) (hy : y = s.setTarget t { x with active := x.tslot, trial := false, back := 0 })
    (ht : x.trialAt + x.trialFor ≤ s.dt) : trialTimeout t s = y.event 14 2 0x0102 t y.dt [x.runPkg, 0] := by
  have confirmed := Dev.confirmTrial_eq hx hy false
  have reached : (x.trial && x.back == 0 && decide (x.trialAt + x.trialFor ≤ s.dt) &&
      !(s.upd.op.any (fun o => o.target == t))) = true := by
    simp [htr, hback, ht, hop]
  subst hx
  rw [trialTimeout, if_pos reached, confirmed]
  rfl

end

/-- Settles O50: each row by the lemma about its meaning. -/
theorem updateRowsComplete : Obligations.UpdateRowsComplete := by
  unfold Obligations.UpdateRowsComplete
  intro s d t x h0 ht hz hlt hx
  refine ⟨fun img y b hs h3 hy hb htr hn hoff ha hop => ?_, fun pkg hs hpkg hf => ?_,
    fun hs hv hop hup => ⟨?_, fun htr => ?_⟩, fun o y e hop htg hc hd he hup hf hy => ?_,
    fun k y hk htr hback hop hy => ⟨fun hlate => ?_, fun hs => ?_⟩⟩
  · obtain ⟨h, e⟩ := s.dev.charge_frame d.qp img.length
    have act := State.updIn_on h0 hs (Dev.reads_of_d0 h3) img (updWrite d img)
    rw [← hy] at act e
    have target : x = y.target t := by
      rw [hx, e]
      rfl
    have clusters : t < y.clusters := by
      rw [e]
      exact hlt
    have free : y.upd.op = none := by
      rw [e]
      exact hop
    rw [updWrite_passed ht hz clusters target htr hb hn hoff ha free rfl] at act
    exact act
  · exact (State.cmd_on h0 hs _).trans (by rw [updVerify_good ht hz hlt hx hpkg hf])
  · exact (State.cmd_on h0 hs _).trans (by rw [updActivate_down ht hz hlt hx hv hop hup])
  · exact (State.cmd_on h0 hs _).trans (by rw [updRollback_down ht hz hlt hx htr hv hop hup])
  · exact (State.upd_on h0 _).trans (by rw [updActivated_activates hlt hop htg hc hd he hup hf hy])
  · subst hk
    exact (State.upd_on h0 _).trans (by rw [trialTimeout_reached hx htr hback hop hy hlate])
  · exact (State.cmd_on h0 hs _).trans (by rw [updConfirm_trial ht hz hlt hx htr hback hop hy])

end Sys2Proof.Machine
end




section
/-! PROOFS. The shared SRAM stays canonical: what it means, and the operations every block shares (12 Table 12-1). The lemma
about a function of the model has its name under `Dev.Canon`, so that the proof for a composition reads as the composition. -/
namespace Sys2Proof.Machine

/-- The shared SRAM of the block is in its canonical form (12 Table 12-1). -/
def Dev.Canon (s : Dev) : Prop := kwf 0 s.sram = true

/-- Every block that an optional result holds is canonical. -/
def CanonOpt (o : Option Dev) : Prop := ∀ t, o = some t → t.Canon

/-- The same of a block with a flag. -/
def CanonOptPair (o : Option (Dev × Bool)) : Prop := ∀ p, o = some p → p.1.Canon

section
variable {α β : Type} {s t : Dev} {c : Prop} [Decidable c]

/-- A change of anything but the SRAM. -/
theorem Dev.Canon.update {part fuseOk eccCorr dt time timePart freeCtr out cfg chr pfi cpf hoist drv door lpe hiu hwk hwkF coc
    mon grp stl canCtl spiPort eng krn tlg chry upd pmu} (h : s.Canon) :
    (Dev.mk part fuseOk eccCorr dt time timePart freeCtr out cfg chr s.sram pfi cpf hoist drv door lpe hiu hwk hwkF coc mon
      grp stl canCtl spiPort eng krn tlg chry upd pmu).Canon := h

/-- An intermediate block that is used more than once. -/
theorem Dev.Canon.seq (h : s.Canon) (f : s.Canon → t.Canon) : t.Canon := f h

theorem Dev.Canon.ite {a b : Dev} (ha : a.Canon) (hb : b.Canon) : (if c then a else b).Canon := by
  split
  · exact ha
  · exact hb

theorem Dev.Canon.ite_fst {a b : Dev × β} (ha : a.1.Canon) (hb : b.1.Canon) : (if c then a else b).1.Canon := by
  split
  · exact ha
  · exact hb

theorem Dev.Canon.ite_snd {a b : β × Dev} (ha : a.2.Canon) (hb : b.2.Canon) : (if c then a else b).2.Canon := by
  split
  · exact ha
  · exact hb

theorem Dev.Canon.foldl {f : Dev → α → Dev} {l : List α} (hf : ∀ {s x}, s.Canon → (f s x).Canon) (h : s.Canon) :
    (l.foldl f s).Canon :=
  List.foldlRecOn (motive := Dev.Canon) l f h (fun _ hs _ _ => hf hs)

theorem Dev.Canon.foldl_fst {f : Dev × β → α → Dev × β} {l : List α} {p : Dev × β}
    (hf : ∀ {p x}, p.1.Canon → (f p x).1.Canon) (h : p.1.Canon) : (l.foldl f p).1.Canon :=
  List.foldlRecOn (motive := fun p => p.1.Canon) l f h (fun _ hp _ _ => hf hp)

theorem Dev.Canon.foldl_snd {f : β × Dev → α → β × Dev} {l : List α} {p : β × Dev}
    (hf : ∀ {p x}, p.2.Canon → (f p x).2.Canon) (h : p.2.Canon) : (l.foldl f p).2.Canon :=
  List.foldlRecOn (motive := fun p => p.2.Canon) l f h (fun _ hp _ _ => hf hp)

theorem CanonOpt.none : CanonOpt none := fun _ e => nomatch e

theorem CanonOpt.some (h : s.Canon) : CanonOpt (some s) := fun _ e => Option.some.inj e ▸ h

theorem CanonOpt.ite {a b : Option Dev} (ha : CanonOpt a) (hb : CanonOpt b) : CanonOpt (if c then a else b) := by
  split
  · exact ha
  · exact hb

theorem CanonOptPair.none : CanonOptPair none := fun _ e => nomatch e

theorem CanonOptPair.some {p : Dev × Bool} (h : p.1.Canon) : CanonOptPair (some p) := fun _ e => Option.some.inj e ▸ h

theorem CanonOptPair.ite {a b : Option (Dev × Bool)} (ha : CanonOptPair a) (hb : CanonOptPair b) :
    CanonOptPair (if c then a else b) := by
  split
  · exact ha
  · exact hb

end

section
variable {s : Dev}

/-! ## The state after reset -/

theorem Dev.Canon.reset : Dev.reset.Canon := rfl

/-! ## The operations every block shares -/

theorem Dev.Canon.bootStage {n} (h : s.Canon) : (s.bootStage n).Canon := h.update

theorem Dev.Canon.whenOn {pd f} (hf : ∀ {t : Dev}, t.Canon → (f t).Canon) (h : s.Canon) : (whenOn pd f s).Canon :=
  .ite (hf h) h

theorem Dev.Canon.whenBar {f} (hf : ∀ {t : Dev}, t.Canon → (f t).Canon) (h : s.Canon) : (whenBar f s).Canon :=
  .ite (hf h) h

theorem Dev.Canon.setReg {off w} (h : s.Canon) : (s.setReg off w).Canon := h.update
theorem Dev.Canon.setFld {off hi lo v} (h : s.Canon) : (s.setFld off hi lo v).Canon := h.setReg
theorem Dev.Canon.setBit {off i b} (h : s.Canon) : (s.setBit off i b).Canon := h.setFld
theorem Dev.Canon.drawn (h : s.Canon) : s.drawn.Canon := h.update
theorem Dev.Canon.emit {o} (h : s.Canon) : (s.emit o).Canon := h.update
theorem Dev.Canon.toHost {o} (h : s.Canon) : (s.toHost o).Canon := .ite h.update h.emit
theorem Dev.Canon.chrAdd {sec i n} (h : s.Canon) : (s.chrAdd sec i n).Canon := h.update
theorem Dev.Canon.chrInc {sec i} (h : s.Canon) : (s.chrInc sec i).Canon := h.chrAdd
theorem Dev.Canon.setSramByte {a b} (h : s.Canon) : (s.setSramByte a b).Canon := kwf_kput 0 _ _ _ h
theorem Dev.Canon.setSramBytes {a b} (h : s.Canon) : (s.setSramBytes a b).Canon := Dev.setSramBytes_wf b s a h
theorem Dev.Canon.setHiu {f} (h : s.Canon) : (s.setHiu f).Canon := h.update
theorem Dev.Canon.setQp {q p} (h : s.Canon) : (s.setQp q p).Canon := h.update
theorem Dev.Canon.setVec {v x} (h : s.Canon) : (s.setVec v x).Canon := h.update
theorem Dev.Canon.msixSend {v} (h : s.Canon) : (s.msixSend v).Canon := .ite h.setVec h.setVec.toHost

theorem Dev.Canon.msixNote {v n urgent} (h : s.Canon) : (s.msixNote v n urgent).Canon := by
  unfold Dev.msixNote
  split
  · exact h
  · exact .seq h.setVec fun h1 => .ite h1.msixSend h1

theorem Dev.Canon.discard (h : s.Canon) : s.discard.Canon := h.update

theorem Dev.Canon.ringWrite {p base i b} (h : s.Canon) : (s.ringWrite p base i b).Canon :=
  Dev.ringWrite_wf s p base i b h

theorem Dev.Canon.show {p o} (h : s.Canon) : (s.show p o).Canon := .ite h.emit h.toHost

theorem Dev.Canon.writeCompletion {d st commit res} (h : s.Canon) : (s.writeCompletion d st commit res).Canon :=
  .ite h.discard (.msixNote (.show (.setQp (.ringWrite (.ite h.ringWrite h)))))

theorem Dev.Canon.whenSent {d f} (hf : ∀ {t : Dev}, t.Canon → (f t).Canon) (h : s.Canon) : (whenSent d f s).Canon :=
  .ite (hf h) h

theorem Dev.Canon.release {d} (h : s.Canon) : (s.release d).Canon := .ite h.setQp.update h
theorem Dev.Canon.noteFate {d st} (h : s.Canon) : (s.noteFate d st).Canon := h.update

theorem Dev.Canon.flushSome {n q} (h : s.Canon) : (Dev.flushSome n q s).Canon := by
  induction n generalizing s with
  | zero => exact h
  | succ n ih =>
    rw [Dev.flushSome]
    dsimp only
    split
    · refine .ite h ?_
      split
      · exact ih h.setQp.setHiu.writeCompletion
      · exact ih h.setQp.writeCompletion
    · exact h

theorem Dev.Canon.flushRest {q} (h : s.Canon) : (s.flushRest q).Canon := h.flushSome

theorem Dev.Canon.complete {d st commit res} (h : s.Canon) : (s.complete d st commit res).Canon :=
  .ite (.seq h.setHiu fun h1 => .ite h1 h1.discard) (.seq h.release.noteFate fun h2 => .flushRest (.ite h2
    h2.writeCompletion))

theorem Dev.Canon.dropFate {d} (h : s.Canon) : (s.dropFate d).Canon := h.setHiu
theorem Dev.Canon.fail {d st} (h : s.Canon) : (s.fail d st).Canon := h.complete

theorem Dev.Canon.completeOpt {d st commit res} (h : s.Canon) : (s.completeOpt d st commit res).Canon := by
  unfold Dev.completeOpt
  split
  · exact h.complete
  · exact h

theorem Dev.Canon.putEvent {src sev code obj time payload} (h : s.Canon) :
    (s.putEvent src sev code obj time payload).Canon :=
  .msixNote h.ringWrite.setQp.show.update

theorem Dev.Canon.dropEvent {src} (h : s.Canon) : (s.dropEvent src).Canon := h.update

theorem Dev.Canon.raiseHiu {sev code obj time payload} (h : s.Canon) :
    (s.raiseHiu sev code obj time payload).Canon := by
  unfold Dev.raiseHiu
  refine .ite ?_ h.dropEvent
  split
  · exact h.putEvent
  · exact .seq h.putEvent fun h1 => .ite h1.putEvent h1.dropEvent

theorem Dev.Canon.event {src sev code obj time payload} (h : s.Canon) :
    (s.event src sev code obj time payload).Canon := by
  unfold Dev.event
  refine .ite h.raiseHiu (.ite ?_ h.dropEvent)
  split
  · exact h.putEvent
  · exact h.putEvent.raiseHiu

theorem Dev.Canon.charge {q n} (h : s.Canon) : (s.charge q n).Canon := .ite h.update h
theorem Dev.Canon.hostWrite {d a b} (h : s.Canon) : (s.hostWrite d a b).Canon := .charge (.ite h.setSramBytes h.toHost)

/-! ## What the units read and change of each other -/

theorem Dev.Canon.setLoop {l x} (h : s.Canon) : (s.setLoop l x).Canon := h.update
theorem Dev.Canon.setBank {l m p} (h : s.Canon) : (s.setBank l m p).Canon := h.update
theorem Dev.Canon.handAt {l mode at_ desc} (h : s.Canon) : (s.handAt l mode at_ desc).Canon := h.update
theorem Dev.Canon.handLoop {l mode} (h : s.Canon) : (s.handLoop l mode).Canon := h.handAt

theorem Dev.Canon.pulseLpe {line at_} (h : s.Canon) : (s.pulseLpe line at_).Canon :=
  .ite (.ite (.handAt h.event.update) h) (.ite (.foldl (fun h1 => .ite h1.update h1) h) (.ite h.handAt h))

theorem Dev.Canon.forceCpf (h : s.Canon) : s.forceCpf.Canon := h.update
theorem Dev.Canon.setCfld {off hi lo v} (h : s.Canon) : (s.setCfld off hi lo v).Canon := h.setFld.update

theorem Dev.Canon.whenGrp {f} (hf : ∀ {t : Dev}, t.Canon → (f t).Canon) (h : s.Canon) : (whenGrp f s).Canon :=
  .ite (hf h) h

theorem Dev.Canon.whenCpf {f} (hf : ∀ {t : Dev}, t.Canon → (f t).Canon) (h : s.Canon) : (whenCpf f s).Canon :=
  .ite (hf h) h

theorem Dev.Canon.setCoc {f} (h : s.Canon) : (s.setCoc f).Canon := h.update
theorem Dev.Canon.sendDown {r} (h : s.Canon) : (s.sendDown r).Canon := .ite h.setBit h.setCoc
theorem Dev.Canon.cocCommand {d r} (h : s.Canon) : (s.cocCommand d r).Canon := .ite h.setBit.fail h.setCoc
theorem Dev.Canon.sendUp {r} (h : s.Canon) : (s.sendUp r).Canon := h.setCoc
theorem Dev.Canon.feedKey {k} (h : s.Canon) : (s.feedKey k).Canon := .ite h h.setCoc

end

end Sys2Proof.Machine
end


section
/-! PROOFS. The shared SRAM stays canonical through position feedback, position fusion, the hoist, its drive and the doors
(03 to 06). -/
namespace Sys2Proof.Machine

section
variable {s : Dev}

/-! ## Position feedback (03) -/

theorem Dev.Canon.setChan {n c} (h : s.Canon) : (s.setChan n c).Canon := h.update
theorem Dev.Canon.setSlot {n k x} (h : s.Canon) : (s.setSlot n k x).Canon := h.update
theorem Dev.Canon.setSsi {m x} (h : s.Canon) : (s.setSsi m x).Canon := h.update
theorem Dev.Canon.q24 {num den} (h : s.Canon) : (s.q24 num den).2.Canon := .ite_snd h h.drawn

theorem Dev.Canon.periodMag {n} (h : s.Canon) : (s.periodMag n).2.Canon := by
  unfold Dev.periodMag
  split
  · exact .ite_snd h h.q24
  · exact h

theorem Dev.Canon.windowMag {n} (h : s.Canon) : (s.windowMag n).2.Canon := by
  dsimp only [Dev.windowMag]
  split
  · exact h.q24
  · exact h.periodMag

theorem Dev.Canon.settleMode {n} (h : s.Canon) : (s.settleMode n).Canon := h.setChan
theorem Dev.Canon.speedMag {n} (h : s.Canon) : (s.speedMag n).2.Canon := .ite_snd h.windowMag h.periodMag
theorem Dev.Canon.evalSpeed {n} (h : s.Canon) : (s.evalSpeed n).Canon := h.speedMag.setChan.speedMag.setChan

theorem Dev.Canon.ssiSpeed {m} (h : s.Canon) : (s.ssiSpeed m).2.Canon := by
  unfold Dev.ssiSpeed
  split
  · exact .ite_snd h h.drawn
  · exact h.drawn

theorem Dev.Canon.latchEval {mask} (h : s.Canon) : (s.latchEval mask).Canon := .foldl (fun h1 => .ite h1.evalSpeed h1) h

theorem Dev.Canon.latchRecords {mask at_} (h : s.Canon) : (s.latchRecords mask at_).Canon :=
  .foldl (fun h1 => .ite h1.ssiSpeed.event h1) (.foldl (fun h2 => .ite h2.event h2) h)

theorem Dev.Canon.latch {mask at_} (h : s.Canon) : (s.latch mask at_).Canon := h.latchEval.latchRecords

theorem Dev.Canon.phaseLatch {cpfFrame} (h : s.Canon) : (s.phaseLatch cpfFrame).Canon :=
  .foldl (fun h1 => .ite h1.evalSpeed.setChan h1) h

theorem Dev.Canon.evalFiring {n ks} (h : s.Canon) : (s.evalFiring n ks).Canon := h.latchEval

theorem Dev.Canon.fire {n k at_ atArm snap dirNeg} (h : s.Canon) : (s.fire n k at_ atArm snap dirNeg).Canon :=
  .seq (.ite h.event h) fun h1 => .seq (.ite h1.latchRecords h1) fun h2 => .seq (.ite h2 h2.setSlot) fun h3 => .ite
    h3.pulseLpe h3

theorem Dev.Canon.crossSlots {n u0 u1 snap} (h : s.Canon) : (s.crossSlots n u0 u1 snap).Canon :=
  .foldl .fire h.evalFiring

theorem Dev.Canon.armAt {n k at_} (h : s.Canon) : (s.armAt n k at_).1.Canon := .seq h.setSlot fun h1 => .ite h1.fire h1
theorem Dev.Canon.judgeArm {n k at_} (h : s.Canon) : (s.judgeArm n k at_).1.Canon := h.evalFiring.armAt
theorem Dev.Canon.rejudge {n at_} (h : s.Canon) : (s.rejudge n at_).Canon := .foldl .armAt h.evalFiring
theorem Dev.Canon.disarmAll {n} (h : s.Canon) : (s.disarmAll n).Canon := .foldl .setSlot h

theorem Dev.Canon.direction {n up} (h : s.Canon) : (s.direction n up).Canon :=
  .ite (.ite h.setChan (.ite h.setChan h)) (.ite h.setChan h.setChan)

theorem Dev.Canon.limitEvents {n lo0 hi0 at_} (h : s.Canon) : (s.limitEvents n lo0 hi0 at_).Canon := by
  unfold Dev.limitEvents
  exact .seq (.ite h.event h) fun h1 => .ite h1.event h1

theorem Dev.Canon.ptPins {t : Dev} (h : s.Canon) : (t.ptPins s).Canon :=
  .seq (.ite h.emit h) fun h => .seq (.ite h.emit h) fun h => .ite h.emit h

theorem Dev.Canon.ptAdvance {d} (h : s.Canon) : (s.ptAdvance d).Canon := .ptPins h.update

theorem Dev.Canon.passThrough {up} (h : s.Canon) : (s.passThrough up).Canon :=
  .ite (.ite h.ptAdvance (.ite h.ptAdvance h.update)) h

theorem Dev.Canon.takeCount {n up} (h : s.Canon) : (s.takeCount n up).Canon :=
  .seq h.setChan.direction.crossSlots.limitEvents fun h1 => .ite h1.passThrough h1

theorem Dev.Canon.phaseError {n} (h : s.Canon) : (s.phaseError n).Canon :=
  .seq h.chrInc fun h1 => .seq (.setBit (.ite h1 h1.event)) fun h2 => .ite h2.update (.ite h2.update h2)

theorem Dev.Canon.acceptLevels {n a b} (h : s.Canon) : (s.acceptLevels n a b).Canon :=
  .seq h.setChan fun h1 => .ite h1 (.ite h1.phaseError (.ite h1 h1.takeCount))

theorem Dev.Canon.samplePins {n a b} (h : s.Canon) : (s.samplePins n a b).Canon := h.setChan.acceptLevels
theorem Dev.Canon.count {n a b} (h : s.Canon) : (count n a b s).Canon := h.samplePins
theorem Dev.Canon.sampleZ {n z} (h : s.Canon) : (s.sampleZ n z).Canon := h.setChan
theorem Dev.Canon.indexOn {n} (h : s.Canon) : (s.indexOn n).Canon := h.setChan

theorem Dev.Canon.indexGoesActive {n} (h : s.Canon) : (indexGoesActive n s).Canon :=
  .seq h.sampleZ fun h1 => .ite h1.indexOn.ptPins h1.ptPins

theorem Dev.Canon.stepOffset {n d} (h : s.Canon) : (s.stepOffset n d).Canon := by
  unfold Dev.stepOffset
  exact h.setChan.crossSlots.limitEvents

theorem Dev.Canon.indexError {n x e d} (h : s.Canon) : (s.indexError n x e d).Canon := .setBit (.ite h h.event)

theorem Dev.Canon.checkIndex {n x} (h : s.Canon) : (s.checkIndex n x).Canon := by
  dsimp only [Dev.checkIndex]
  split
  · exact h
  · exact .ite h h.chrInc.indexError
  · exact .ite h (.seq h.chrInc fun h1 => .ite h1.stepOffset.event h1.indexError)
  · exact h.stepOffset.event.setFld.setBit

theorem Dev.Canon.indexOff {n} (h : s.Canon) : (s.indexOff n).Canon := .seq h.setChan fun h1 => .ite h1.checkIndex h1

theorem Dev.Canon.indexCheck {n} (h : s.Canon) : (indexCheck n s).Canon :=
  .seq h.sampleZ.ptPins fun h1 => .ite h1.indexOff h1

theorem Dev.Canon.zeroSpeedTimeout {n} (h : s.Canon) : (zeroSpeedTimeout n s).Canon := by
  dsimp only [Machine.zeroSpeedTimeout]
  split
  · exact .ite h.setChan h
  · exact h

theorem Dev.Canon.ssiStart {frame m} (h : s.Canon) : (s.ssiStart frame m).Canon := .ite h.setSsi h

theorem Dev.Canon.ssiFrameComplete {m idleHigh start pos stat par} (h : s.Canon) :
    (ssiFrameComplete m idleHigh start pos stat par s).Canon := by
  dsimp only [Machine.ssiFrameComplete]
  split
  · exact h
  · split
    · exact .seq h.setBit.event.setSsi fun h1 => .ite h1.chrInc.event h1
    · exact .seq h.setSsi fun h2 => .ite h2.event h2

theorem Dev.Canon.enableChan {n} (h : s.Canon) : (s.enableChan n).Canon := h.setChan

theorem Dev.Canon.pfiQcfgWrite {n v} (h : s.Canon) : (pfiQcfgWrite n v s).Canon :=
  .ite h (.ite h.setBit (.seq (.settleMode (.setReg (.settleMode (.ite h.setBit h)))) fun h1 => .ite
    h1.enableChan.ptPins (.ite h1.disarmAll h1)))

theorem Dev.Canon.pfiScfgWrite {m v} (h : s.Canon) : (pfiScfgWrite m v s).Canon :=
  .ite h (.ite h (.ite h.setReg.setBit (.seq h.setReg fun h1 => .ite h1 h1.setSsi)))

theorem Dev.Canon.atEdge {d f} (hf : ∀ {t : Dev}, t.Canon → (f t).Canon) (h : s.Canon) : (atEdge d f s).Canon :=
  .ite h (hf h)

theorem Dev.Canon.pfiRun {d bad f} (hf : ∀ {t : Dev}, t.Canon → (f t).Canon) (h : s.Canon) :
    (s.pfiRun d bad f).Canon := by
  unfold Dev.pfiRun
  split
  · exact h.fail
  · exact .ite (hf h) h.complete

theorem Dev.Canon.pfiRead {d} (h : s.Canon) : (pfiRead d s).Canon :=
  h.pfiRun (fun h1 => .ite h1.complete h1.ssiSpeed.complete)

theorem Dev.Canon.pfiSetPos {d} (h : s.Canon) : (pfiSetPos d s).Canon :=
  h.pfiRun (fun h1 => h1.setChan.rejudge.limitEvents.complete)

theorem Dev.Canon.pfiCmpArm {d} (h : s.Canon) : (pfiCmpArm d s).Canon :=
  h.pfiRun (fun h1 => .ite h1.complete h1.setSlot.judgeArm.complete)

theorem Dev.Canon.pfiCmpDisarm {d} (h : s.Canon) : (pfiCmpDisarm d s).Canon := h.pfiRun (fun h1 => h1.setSlot.complete)
theorem Dev.Canon.pfiClear {d} (h : s.Canon) : (pfiClear d s).Canon := h.pfiRun (fun h1 => h1.setReg.complete)
theorem Dev.Canon.pfiLatch {d} (h : s.Canon) : (pfiLatch d s).Canon := .ite h.fail (.ite h.fail h.latch.complete)

/-! ## The car position fusion (04) -/

theorem Dev.Canon.setCpf {f} (h : s.Canon) : (s.setCpf f).Canon := h.update

theorem Dev.Canon.cpfSet {st cause} (h : s.Canon) : (s.cpfSet st cause).Canon :=
  .ite h (.event (.setCpf (.ite h.drawn h)))

theorem Dev.Canon.computeTracks (h : s.Canon) : s.computeTracks.Canon := h.setCpf

theorem Dev.Canon.reanchor {t x te u} (h : s.Canon) : (s.reanchor t x te u).Canon := by
  dsimp only [Dev.reanchor]
  split
  · exact h
  · split
    · exact h.setCpf.setCpf
    · exact h.setCpf.setCpf
    · exact h.setCpf

theorem Dev.Canon.tapeDist {d} (h : s.Canon) : (s.tapeDist d).2.Canon := .ite_snd h h.drawn
theorem Dev.Canon.exclude {t} (h : s.Canon) : (s.exclude t).Canon := h.tapeDist.tapeDist.setCpf.setCpf.event.chrInc
theorem Dev.Canon.judgeTrack {t} (h : s.Canon) : (s.judgeTrack t).Canon := .ite h.exclude h.setCpf
theorem Dev.Canon.readmitAt {t te} (h : s.Canon) : (s.readmitAt t te).Canon := .ite h.setCpf.event h
theorem Dev.Canon.anchorAt {x te u} (h : s.Canon) : (s.anchorAt x te u).Canon := h.reanchor.reanchor.readmitAt.readmitAt

theorem Dev.Canon.acceptEdge {x te u} (h : s.Canon) : (s.acceptEdge x te u).Canon :=
  .seq h.anchorAt.setCpf fun h1 => .ite h1.cpfSet h1

theorem Dev.Canon.mismatch {l upper dz1 rv te ref} (h : s.Canon) : (s.mismatch l upper dz1 rv te ref).Canon :=
  .seq h.event.chrInc.setCpf fun h1 => .ite h1.cpfSet h1

theorem Dev.Canon.unexpected {ref dz1 te} (h : s.Canon) : (s.unexpected ref dz1 te).Canon :=
  .seq h.event fun h1 => .seq (.ite h1.chrInc h1) fun h2 => .ite h2.cpfSet h2

theorem Dev.Canon.vaneEdge {f e} (h : s.Canon) : (s.vaneEdge f e).1.Canon := by
  unfold Dev.vaneEdge
  split
  · exact h
  · dsimp only
    split
    · exact h.unexpected
    · split
      · exact .acceptEdge (.ite h h.setCpf)
      · exact .mismatch (.ite h h.setCpf)

theorem Dev.Canon.passEdge {up a b x e} (h : x.1.Canon) : (s.passEdge up a b x e).1.Canon :=
  .ite_fst h (.ite_fst h.setCpf h.event.chrInc.setCpf)

theorem Dev.Canon.missedEdges {f} (h : s.Canon) : (s.missedEdges f).1.Canon := by
  unfold Dev.missedEdges
  split
  · exact h
  · exact .setCpf (.foldl_fst .passEdge h)

theorem Dev.Canon.follow (h : s.Canon) : s.follow.Canon := by
  dsimp only [Dev.follow]
  split <;> exact h.setCpf

theorem Dev.Canon.cpeSpeed (h : s.Canon) : s.cpeSpeed.Canon := h.setCpf
theorem Dev.Canon.estimate (h : s.Canon) : s.estimate.Canon := h.follow.cpeSpeed
theorem Dev.Canon.publishUnc (h : s.Canon) : s.publishUnc.Canon := h.setCpf

theorem Dev.Canon.periodState {vote f} (h : s.Canon) : (s.periodState vote f).Canon := by
  dsimp only [Dev.periodState]
  split
  · exact h
  · exact h
  · refine .ite h (.ite h.cpfSet ?_)
    split
    · exact .ite h.cpfSet (.ite h.cpfSet (.ite h.cpfSet (.ite h.cpfSet (.ite h.cpfSet (.ite (.ite h.cpfSet (.ite
        h.cpfSet (.ite h.cpfSet (.ite h.cpfSet h)))) (.ite h.cpfSet h))))))
    · exact .ite h.cpfSet (.ite h.cpfSet (.ite h.cpfSet (.ite h.cpfSet (.ite h.cpfSet (.ite (.ite h.cpfSet (.ite
        h.cpfSet (.ite h.cpfSet (.ite h.cpfSet h)))) (.ite h.cpfSet h))))))
    · exact h

theorem Dev.Canon.storePosition (h : s.Canon) : s.storePosition.Canon := .ite h.update h

theorem Dev.Canon.saveTable (h : s.Canon) : s.saveTable.Canon := by
  unfold Dev.saveTable
  split
  · exact h
  · exact .ite h.update h.update

theorem Dev.Canon.savePosition (h : s.Canon) : s.savePosition.Canon := by
  unfold Dev.savePosition
  split
  · exact h
  · exact .ite h (.ite h.update h.update)

theorem Dev.Canon.commitTable {t g at_} (h : s.Canon) : (s.commitTable t g at_).Canon := h.setCpf.saveTable
theorem Dev.Canon.setRun {r} (h : s.Canon) : (s.setRun r).Canon := h.setCpf
theorem Dev.Canon.learnStep {r step drive} (h : s.Canon) : (s.learnStep r step drive).Canon := h.setRun.setCpf.event
theorem Dev.Canon.setDrive {v} (h : s.Canon) : (s.setDrive v).Canon := h.setCpf
theorem Dev.Canon.learnEdge {r e} (h : s.Canon) : (s.learnEdge r e).Canon := .seq h.setRun fun h1 => .ite h1.setDrive h1

theorem Dev.Canon.vanePhase {r e} (h : s.Canon) : (s.vanePhase r e).Canon := by
  dsimp only [Dev.vanePhase]
  split
  · exact h.setRun
  · exact .ite h.anchorAt.setRun.setDrive h.setRun

theorem Dev.Canon.terminalEdge {r e x back} (h : s.Canon) : (s.terminalEdge r e x back).Canon :=
  h.reanchor.reanchor.setRun.setDrive

theorem Dev.Canon.landingEdge {r f e} (h : s.Canon) : (s.landingEdge r f e).1.Canon := by
  dsimp only [Dev.landingEdge]
  split
  · exact .ite_fst h.vaneEdge.setRun.setDrive h.vaneEdge.setRun
  · exact h.vaneEdge.setRun

theorem Dev.Canon.correctEdge {r f e} (h : s.Canon) : (s.correctEdge r f e).1.Canon := by
  dsimp only [Dev.correctEdge]
  split
  · exact .ite_fst h.vanePhase (.ite_fst h.landingEdge h)
  · exact .ite_fst h.terminalEdge h
  · exact .ite_fst h.terminalEdge h
  · exact h

theorem Dev.Canon.reportChatter {r now} (h : s.Canon) : (s.reportChatter r now).Canon :=
  .setCpf (.foldl (fun h1 => h1.event.setBit) h)

theorem Dev.Canon.runPeriod (h : s.Canon) : s.runPeriod.Canon := by
  unfold Dev.runPeriod
  split
  · exact h
  · split
    · exact h
    · split
      · exact h.setRun.setDrive
      · dsimp only
        split
        · exact .ite h.reportChatter h
        · refine .ite ?_ (.ite h.reportChatter h)
          split
          · exact .ite (.learnStep (.ite h.reportChatter h)) (.ite h.reportChatter h)
          · exact .learnStep (.ite h.reportChatter h)
          · exact .learnStep (.ite h.reportChatter h)
          · exact .ite h.reportChatter h

theorem Dev.Canon.startCorrection {d force} (h : s.Canon) : (s.startCorrection d force).Canon :=
  h.cpfSet.setRun.setDrive

theorem Dev.Canon.decideCorrect {d} (h : s.Canon) : (s.decideCorrect d).Canon :=
  .ite h.fail (.ite h.fail (.ite h.fail h.startCorrection))

theorem Dev.Canon.periodWaits (h : s.Canon) : s.periodWaits.Canon := by
  unfold Dev.periodWaits
  refine .setCpf (.foldl (fun h1 => ?_) (.setCpf (.foldl (fun h2 => h2.setCpf.complete) h)))
  split
  · exact .ite h1.commitTable.complete h1.fail
  · exact h1.fail

theorem Dev.Canon.periodEdges (h : s.Canon) : s.periodEdges.1.Canon := by
  unfold Dev.periodEdges
  refine .foldl_fst (fun h1 => ?_) h.setCpf
  dsimp only
  split
  · exact .ite_fst h1.learnEdge h1.correctEdge
  · exact .ite_fst h1.vaneEdge h1

theorem Dev.Canon.periodVote (h : s.Canon) : s.periodVote.1.Canon := by
  unfold Dev.periodVote
  refine .seq ?_ fun h1 => .setCpf (.ite h1.event h1)
  split
  · exact h.judgeTrack.judgeTrack.judgeTrack.exclude
  · exact h.judgeTrack.judgeTrack.judgeTrack

theorem Dev.Canon.countReadmission (h : s.Canon) : s.countReadmission.Canon := by
  dsimp only [Dev.countReadmission]
  split
  · exact .ite h.setCpf h.setCpf
  · exact h.setCpf

theorem Dev.Canon.closeCpf (h : s.Canon) : s.closeCpf.Canon := .ite h.setBit.cpfSet.setCpf h
theorem Dev.Canon.periodEnd (h : s.Canon) : s.periodEnd.Canon := .setCpf (.update (.ite h.storePosition h))

theorem Dev.Canon.runCpf (h : s.Canon) : s.runCpf.Canon := by
  dsimp only [Dev.runCpf]
  exact .seq (.estimate (.periodEdges (.periodVote (.computeTracks (.setCpf (.foldl .decideCorrect h)))))) fun h1 =>
    .periodEnd (.setCpf (.publishUnc (.runPeriod (.countReadmission (.periodState (.ite_fst h1.missedEdges
    h1.setCpf))))))

theorem Dev.Canon.cpfPeriod (h : s.Canon) : (cpfPeriod s).Canon :=
  .seq h.forceCpf.periodWaits fun h1 => .ite h1.runCpf h1

theorem Dev.Canon.trackReadmitted (h : s.Canon) : (trackReadmitted s).Canon := .ite h.setCpf.event h
theorem Dev.Canon.anchorAll {x u} (h : s.Canon) : (s.anchorAll x u).Canon := h.setCpf
theorem Dev.Canon.posMoved {stored} (h : s.Canon) : (s.posMoved stored).Canon := h.event

theorem Dev.Canon.revalidation (h : s.Canon) : (revalidation s).Canon := by
  unfold Machine.revalidation
  refine .ite h ?_
  split
  · refine .ite h.setCpf (.ite (.ite h (.seq h.setCpf fun h1 => .ite h1.anchorAll.cpfSet.event.publishUnc h1.event))
      (.ite ?_ h.anchorAll.setCpf))
    dsimp only
    split
    · exact .ite h.setCpf.anchorAll.cpfSet.setCpf.event.publishUnc h.setCpf.posMoved
    · exact h.setCpf.posMoved
  · exact h.setCpf

theorem Dev.Canon.autoCorrectionStart (h : s.Canon) : (autoCorrectionStart s).Canon := .ite h.startCorrection h
theorem Dev.Canon.shiftFrame {z} (h : s.Canon) : (s.shiftFrame z).Canon := h.setCpf

theorem Dev.Canon.stageLearned {r t z} (h : s.Canon) : (s.stageLearned r t z).Canon :=
  h.setCfld.setCfld.setCpf.shiftFrame.setRun

theorem Dev.Canon.unstage {r} (h : s.Canon) : (s.unstage r).Canon := by
  unfold Dev.unstage
  split
  · exact h.shiftFrame.setCpf
  · exact h.setCfld.setCfld.setCpf.shiftFrame

theorem Dev.Canon.endRunAborted {r code commit} (h : s.Canon) : (s.endRunAborted r code commit).Canon :=
  .seq (.setCpf (.unstage (.ite h.reportChatter h))) fun h1 => .completeOpt (.cpfSet (.ite h1.update h1))

theorem Dev.Canon.endLearning {r t gen} (h : s.Canon) : (s.endLearning r t gen).Canon :=
  h.setCpf.cpfSet.publishUnc.completeOpt

theorem Dev.Canon.learnRunComplete (h : s.Canon) : (learnRunComplete s).Canon := by
  unfold Machine.learnRunComplete
  split
  · refine .ite h ?_
    split
    · exact h.endRunAborted
    · refine .ite ?_ (.ite ?_ h)
      · split
        · exact h.endRunAborted
        · refine .ite h.reportChatter.stageLearned.endLearning ?_
          split
          · exact h.reportChatter.stageLearned.learnStep
          · exact h.reportChatter.stageLearned
      · split
        · exact h.commitTable.endLearning
        · exact h.endRunAborted
  · exact h

theorem Dev.Canon.learnPassTimeout (h : s.Canon) : (learnPassTimeout s).Canon := by
  unfold Machine.learnPassTimeout
  split
  · exact .ite h.endRunAborted h
  · exact h

theorem Dev.Canon.correctionRunComplete (h : s.Canon) : (correctionRunComplete s).Canon := by
  unfold Machine.correctionRunComplete
  split
  · refine .ite h ?_
    split
    · exact h.endRunAborted
    · exact .ite h.setCpf.event.cpfSet.publishUnc.completeOpt h
  · exact h

theorem Dev.Canon.cpfAbort {d} (h : s.Canon) : CanonOpt (s.cpfAbort d) := by
  unfold Dev.cpfAbort
  refine .ite (.some h.setCpf.complete) ?_
  split
  · split
    · exact .ite (.some h.endRunAborted) .none
    · exact .none
  · exact .none

theorem Dev.Canon.cpfCfgWrite {v} (h : s.Canon) : (cpfCfgWrite v s).Canon :=
  .ite (.ite (.ite h.setBit (.setCpf (.setReg (.ite h.setBit h)))) (.setReg (.ite h.setBit h))) (.ite (.ite h.setBit
    h.setReg.forceCpf.cpfSet.setCpf) h.setReg)

theorem Dev.Canon.cpfRead {d} (h : s.Canon) : (cpfRead d s).Canon := .ite h.fail h.complete
theorem Dev.Canon.cpfSetLoad {d} (h : s.Canon) : (cpfSetLoad d s).Canon := .ite h.fail h.setCpf
theorem Dev.Canon.recordTape (h : s.Canon) : s.recordTape.Canon := .ite h.setCpf h

theorem Dev.Canon.cpfLearn {d} (h : s.Canon) : (cpfLearn d s).Canon :=
  .ite h.fail (.ite h.fail (.ite h.fail (.ite h.fail h.cpfSet.recordTape.anchorAll.learnStep)))

theorem Dev.Canon.cpfCorrect {d} (h : s.Canon) : (cpfCorrect d s).Canon := .ite h.fail h.setCpf

theorem Dev.Canon.cpfTableRead {d} (h : s.Canon) : (cpfTableRead d s).Canon := by
  unfold Machine.cpfTableRead
  refine .ite h.fail ?_
  split
  · exact h.fail
  · exact .ite h.fail h.hostWrite.complete

theorem Dev.Canon.cpfTableWrite {d img} (h : s.Canon) : (cpfTableWrite d img s).Canon := by
  unfold Machine.cpfTableWrite
  refine .ite h.fail ?_
  split
  · exact h.fail
  · exact .ite h.fail h.setCpf.complete

theorem Dev.Canon.cpfTableCommit {d} (h : s.Canon) : (cpfTableCommit d s).Canon := by
  unfold Machine.cpfTableCommit
  split
  · exact h.fail
  · exact .ite h.fail (.ite h.fail h.setCpf)

/-! ## Loop slots -/

theorem Dev.Canon.setGroup {g r} (h : s.Canon) : (s.setGroup g r).Canon := h.update
theorem Dev.Canon.freshLoops {mask} (h : s.Canon) : (s.freshLoops mask).Canon := .foldl .setLoop h
theorem Dev.Canon.admitHoist (h : s.Canon) : s.admitHoist.Canon := .freshLoops h.update
theorem Dev.Canon.admitAxis {n} (h : s.Canon) : (s.admitAxis n).Canon := .freshLoops h.update
theorem Dev.Canon.dropAxis {n} (h : s.Canon) : (s.dropAxis n).Canon := h.update

/-! ## The hoist (05) -/

theorem Dev.Canon.setHoist {f} (h : s.Canon) : (s.setHoist f).Canon := h.update
theorem Dev.Canon.setDrv {f} (h : s.Canon) : (s.setDrv f).Canon := h.update
theorem Dev.Canon.forceStep (h : s.Canon) : s.forceStep.Canon := h.setHoist
theorem Dev.Canon.forcePlan (h : s.Canon) : s.forcePlan.Canon := h.setHoist
theorem Dev.Canon.armMsq {k line x dir} (h : s.Canon) : (s.armMsq k line x dir).Canon := h.setSlot.judgeArm

theorem Dev.Canon.setPlan {m p peak dir} (h : s.Canon) : (s.setPlan m p peak dir).Canon := by
  dsimp only [Dev.setPlan]
  split
  · refine .armMsq ?_
    split
    · exact .armMsq (.ite h.forcePlan.setHoist h.forcePlan.setHoist.handLoop)
    · exact .setSlot (.ite h.forcePlan.setHoist h.forcePlan.setHoist.handLoop)
  · refine .setSlot ?_
    split
    · exact .armMsq (.ite h.forcePlan.setHoist h.forcePlan.setHoist.handLoop)
    · exact .setSlot (.ite h.forcePlan.setHoist h.forcePlan.setHoist.handLoop)

theorem Dev.Canon.planTo {m x} (h : s.Canon) : (s.planTo m x).Canon := h.drawn.setPlan
theorem Dev.Canon.planSpeed {m v} (h : s.Canon) : (s.planSpeed m v).Canon := h.drawn.setPlan

theorem Dev.Canon.planMotion {m} (h : s.Canon) : (s.planMotion m).Canon := by
  unfold Dev.planMotion
  split
  · exact h.planTo
  · exact .ite h.planSpeed h.planSpeed

theorem Dev.Canon.unlevelled {m} (h : s.Canon) : (s.unlevelled m).Canon := .ite h.setHoist h

theorem Dev.Canon.begin {m} (h : s.Canon) : (s.begin m).Canon :=
  .seq h.setHoist fun h1 => .ite h1.unlevelled.setHoist.planMotion (.ite h1.setHoist (.ite h1.setHoist h1))

theorem Dev.Canon.hFinish {m st cause superseded at_} (h : s.Canon) : (s.hFinish m st cause superseded at_).Canon :=
  .completeOpt (.ite h.update h)

theorem Dev.Canon.hFinishActive {st cause superseded at_} (h : s.Canon) :
    (s.hFinishActive st cause superseded at_).Canon := by
  dsimp only [Dev.hFinishActive]
  split
  · refine .setHoist (.hFinish ?_)
    split
    · exact h.hFinish.setHoist
    · exact h
  · split
    · exact h.hFinish.setHoist
    · exact h

theorem Dev.Canon.hKill {st cause stopped} (h : s.Canon) : (s.hKill st cause stopped).Canon :=
  .seq h.hFinishActive.setHoist fun h1 => .ite h1.event h1

theorem Dev.Canon.runOn {deck afterAbort} (h : s.Canon) : (s.runOn deck afterAbort).Canon := by
  unfold Dev.runOn
  split <;> exact h.begin

theorem Dev.Canon.stopsDone {at_} (h : s.Canon) : (s.stopsDone at_).Canon := .setHoist (.foldl .complete h)
theorem Dev.Canon.clearFfOnly (h : s.Canon) : s.clearFfOnly.Canon := h.setLoop
theorem Dev.Canon.cancelStart (h : s.Canon) : s.cancelStart.Canon := .stopsDone (.setHoist (.ite h.clearFfOnly h))

theorem Dev.Canon.afterStop {atLanding} (h : s.Canon) : (s.afterStop atLanding).Canon :=
  .ite h (.ite (.seq h.setHoist fun h1 => .ite h1.runOn h1.begin) (.ite h.setHoist.stopsDone h.cancelStart))

theorem Dev.Canon.hUnreachable {m want cause} (h : s.Canon) : (s.hUnreachable m want cause).Canon :=
  h.event.chrInc.hFinish

theorem Dev.Canon.supersede (h : s.Canon) : s.supersede.Canon := h.hFinishActive

theorem Dev.Canon.reverseGoto {m x} (h : s.Canon) : (s.reverseGoto m x).Canon := by
  unfold Dev.reverseGoto
  split
  · exact h.hUnreachable
  · refine .begin (.setHoist (.unlevelled ?_))
    split
    · exact .setHoist (.hFinish (.ite h.update h.supersede))
    · exact .ite h.update h.supersede

theorem Dev.Canon.decideGoto {d} (h : s.Canon) : (s.decideGoto d).Canon := by
  dsimp only [Dev.decideGoto]
  split
  · exact h.fail
  · exact .ite h.hFinish (.ite h.hFinish (.ite h.hFinish (.ite h.hFinish (.ite h.hUnreachable (.ite (.ite (.seq
      h.supersede fun h1 => .setHoist (.hFinish (.ite h1 h1.afterStop))) (.ite h.supersede.setHoist
      h.supersede.setHoist.begin)) (.ite h.supersede.setHoist.begin (.ite h.reverseGoto h.hUnreachable)))))))

theorem Dev.Canon.decideSpeed {d} (h : s.Canon) : (s.decideSpeed d).Canon :=
  .ite h.hFinish (.ite h.hFinish (.ite h.hFinish (.ite h.hFinish (.ite h.hUnreachable (.seq (.setHoist (.supersede (.ite
    h.setBit h))) fun h1 => .ite (.hFinish (.ite h1 h1.afterStop)) (.ite h1.setHoist h1.begin))))))

theorem Dev.Canon.decideStop {d} (h : s.Canon) : (s.decideStop d).Canon :=
  .ite h.complete h.hFinishActive.setHoist.afterStop

theorem Dev.Canon.hDisable {st} (h : s.Canon) : (s.hDisable st).Canon :=
  .foldl .complete (.clearFfOnly h.hFinishActive.stopsDone.setHoist.update)

theorem Dev.Canon.decideDisable {d} (h : s.Canon) : (s.decideDisable d).Canon :=
  .ite h.complete (.seq h.hFinishActive.setHoist fun h1 => .ite (.seq h1.setHoist fun h2 => .ite h2.setHoist
    h2.setHoist) (.seq (.ite h1 h1.afterStop) fun h3 => .ite h3.hDisable h3))

theorem Dev.Canon.decideRead {d} (h : s.Canon) : (s.decideRead d).Canon := h.complete

theorem Dev.Canon.decideEnable {d} (h : s.Canon) : (s.decideEnable d).Canon :=
  .ite h.complete (.ite h.complete (.ite h.complete h.admitHoist.setDrv))

theorem Dev.Canon.decideHoist {d} (h : s.Canon) : (s.decideHoist d).Canon := by
  unfold Dev.decideHoist
  split
  · exact h.decideEnable
  · exact h.decideRead
  · exact h.decideGoto
  · exact h.decideSpeed
  · exact h.decideStop
  · exact h.decideDisable

theorem Dev.Canon.hSetBrake {at_} (h : s.Canon) : (s.hSetBrake at_).Canon := h.stopsDone.setHoist

theorem Dev.Canon.hoistAbort {d} (h : s.Canon) : CanonOpt (s.hoistAbort d) := by
  unfold Dev.hoistAbort
  refine .ite (.some h.setHoist.complete) (.ite ?_ (.ite ?_ .none))
  · split
    · exact .some (.ite h.hFinish.setHoist h.hFinish.setHoist.afterStop)
    · exact .none
  · split
    · exact .some (.ite h.hFinish.setHoist.hSetBrake h.hFinish.setHoist)
    · exact .none

theorem Dev.Canon.hoistDefer {t a} (h : s.Canon) : (s.hoistDefer t a).Canon := h.setHoist

theorem Dev.Canon.hAbortEnd {e} (h : s.Canon) : (s.hAbortEnd e).Canon := by
  unfold Dev.hAbortEnd
  split
  next x aborted => exact (h.update.hoistAbort x aborted).complete.update
  · exact h.complete.dropFate

theorem Dev.Canon.hAbortsBefore (h : s.Canon) : s.hAbortsBefore.Canon := .foldl .hAbortEnd h.setHoist
theorem Dev.Canon.hAbortsAfter (h : s.Canon) : s.hAbortsAfter.Canon := .foldl .hAbortEnd h.setHoist

theorem Dev.Canon.hGuards (h : s.Canon) : s.hGuards.Canon :=
  .seq (.ite h.setHoist h) fun h1 => .ite h1 (.ite h1.hKill (.ite (.ite h1 h1.hKill) (.ite h1 (.ite h1.hKill (.ite (.ite
    h1.hKill h1.setHoist) h1)))))

theorem Dev.Canon.hCpfChange (h : s.Canon) : s.hCpfChange.Canon :=
  .seq h.setHoist fun h1 => .ite h1 (.seq (.ite h1.setLoop h1) fun h2 => .ite h2 (.ite (.seq h2.hFinishActive fun h3 =>
    .ite h3.setHoist.runOn h3.afterStop) (.ite (.seq h2.hFinishActive fun h4 => .ite h4.setHoist.planSpeed h4.afterStop)
    h2)))

theorem Dev.Canon.hSample (h : s.Canon) : s.hSample.Canon := by
  unfold Dev.hSample
  split
  · extract_lets ts
    clear_value ts
    split
    exact h.setHoist
  · exact h.setHoist

theorem Dev.Canon.arrived {m interim x} (h : s.Canon) : (s.arrived m interim x).Canon :=
  .seq h.event fun h1 => .ite h1 h1.chrInc

theorem Dev.Canon.adaptSlip (h : s.Canon) : s.adaptSlip.Canon := h.drawn.setCfld

theorem Dev.Canon.runDone (h : s.Canon) : s.runDone.Canon :=
  .seq h.chrInc.chrAdd.chrInc.setHoist fun h1 => .ite h1.adaptSlip h1

theorem Dev.Canon.commitMotion {m x} (h : s.Canon) : (s.commitMotion m x).Canon := by
  dsimp only [Dev.commitMotion]
  split
  · exact .seq h.hFinish.arrived.update fun h1 => .ite h1.setHoist h1.runDone.hSetBrake
  · exact .setHoist (.hSetBrake (.runDone h.hFinish.arrived.update))
  · exact h.event.chrInc.hSetBrake
  · exact h.hFinish.runDone.hSetBrake
  · exact .hSetBrake (.runDone (.ite h.arrived h))
  · exact h.hSetBrake
  · exact h.hSetBrake

theorem Dev.Canon.hArrive (h : s.Canon) : s.hArrive.Canon := by
  unfold Dev.hArrive
  split
  · split
    · exact .ite h.commitMotion h
    · exact h
  · exact h

theorem Dev.Canon.hLimit (h : s.Canon) : s.hLimit.Canon := by
  unfold Dev.hLimit
  split
  · exact .ite h.event.begin h
  · exact h

theorem Dev.Canon.hSpeedMode (h : s.Canon) : s.hSpeedMode.Canon := by
  unfold Dev.hSpeedMode
  split
  · split
    · exact h
    · exact .ite (.seq h.hFinish.setHoist fun h1 => .ite h1.runDone.hSetBrake h1) (.ite h.setHoist h)
  · exact h

theorem Dev.Canon.hStart (h : s.Canon) : s.hStart.Canon := by
  unfold Dev.hStart
  split
  · exact .ite h.chrInc.setHoist h
  · exact .ite h.setHoist h
  · exact .ite h.unlevelled.setHoist.planMotion.event h
  · exact h

theorem Dev.Canon.hBraking (h : s.Canon) : s.hBraking.Canon := by
  unfold Dev.hBraking
  split
  · exact .ite h (.seq h.setHoist.stopsDone.clearFfOnly fun h1 => .ite h1.hDisable h1.setHoist)
  · exact .ite h.setHoist h
  · exact .ite h h.hDisable
  · exact h

theorem Dev.Canon.hCpfDrive (h : s.Canon) : s.hCpfDrive.Canon := by
  dsimp only [Dev.hCpfDrive]
  split
  · exact .ite (.ite h.begin h.afterStop) h
  · exact .ite h.begin h
  · exact .ite h h.begin
  · exact h

theorem Dev.Canon.hOff (h : s.Canon) : s.hOff.Canon := by
  unfold Dev.hOff
  split
  · exact .ite h.setHoist h.setHoist
  · exact h

theorem Dev.Canon.msqProfileStep (h : s.Canon) : (msqProfileStep s).Canon :=
  .update (.hOff (.hBraking (.hLimit (.hStart (.hCpfDrive (.foldl .decideHoist
    h.forceStep.hAbortsBefore.hGuards.hSample.hArrive.hSpeedMode.hAbortsAfter.hCpfChange.setHoist))))))

theorem Dev.Canon.hoistDwellEnd (h : s.Canon) : (hoistDwellEnd s).Canon := .ite h.setHoist h
theorem Dev.Canon.relevelBlocked {l noPermit} (h : s.Canon) : (s.relevelBlocked l noPermit).Canon := h.event.setHoist

theorem Dev.Canon.hoistStartTimeout (h : s.Canon) : (hoistStartTimeout s).Canon := by
  dsimp only [Machine.hoistStartTimeout]
  split
  · exact h
  · refine .ite ?_ h
    split
    · exact h.cancelStart.relevelBlocked
    · exact h.hFinishActive.cancelStart
    · exact h.hFinishActive.cancelStart
    · exact h

theorem Dev.Canon.hoistStopTimeout (h : s.Canon) : (hoistStopTimeout s).Canon := by
  unfold Machine.hoistStopTimeout
  refine .ite ?_ h
  split
  · exact h.hFinishActive.setHoist.hSetBrake
  · exact h.hDisable
  · exact h.hDisable
  · exact h

theorem Dev.Canon.relevelStart (h : s.Canon) : (relevelStart s).Canon := by
  unfold Machine.relevelStart
  split
  · exact .ite (.ite h.relevelBlocked h.event.handLoop.begin) h
  · exact h

theorem Dev.Canon.hWait {d} (h : s.Canon) : (s.hWait d).Canon := h.setHoist
theorem Dev.Canon.msqHDisable {d} (h : s.Canon) : (msqHDisable d s).Canon := .ite h.fail h.hWait
theorem Dev.Canon.msqHGoto {d} (h : s.Canon) : (msqHGoto d s).Canon := .ite h.fail h.hWait
theorem Dev.Canon.msqHSpeed {d} (h : s.Canon) : (msqHSpeed d s).Canon := .ite h.fail h.hWait
theorem Dev.Canon.msqHStop {d} (h : s.Canon) : (msqHStop d s).Canon := .ite h.fail h.hWait
theorem Dev.Canon.msqHRead {d} (h : s.Canon) : (msqHRead d s).Canon := .ite h.fail h.hWait

/-! ## The drive link (05) -/

theorem Dev.Canon.toInt32 {x} (h : s.Canon) : (s.toInt32 x).2.Canon := .ite h h.setBit
theorem Dev.Canon.setpointFrame (h : s.Canon) : s.setpointFrame.2.Canon := .ite_snd h.toInt32.toInt32 h.toInt32

theorem Dev.Canon.drvSetpointFrame (h : s.Canon) : (drvSetpointFrame s).Canon := by
  unfold Machine.drvSetpointFrame
  refine .ite h ?_
  dsimp only
  split
  · exact .ite h.setDrv.emit.setDrv h.setDrv
  · exact h.setDrv.setpointFrame.emit.setDrv

theorem Dev.Canon.enableFails {st} (h : s.Canon) : (s.enableFails st).Canon := h.setDrv.setGroup.completeOpt

theorem Dev.Canon.drvMiss (h : s.Canon) : s.drvMiss.Canon :=
  .seq h.setDrv fun h1 => .ite h1.setDrv.setBit.event.chrInc h1

theorem Dev.Canon.drvRestore (h : s.Canon) : s.drvRestore.Canon := by
  unfold Dev.drvRestore
  refine .ite ?_ h
  dsimp only
  split
  · exact h.setDrv.event.setDrv.setHoist.complete
  · exact h.setDrv.event

theorem Dev.Canon.drvGood {st} (h : s.Canon) : (s.drvGood st).Canon := by
  unfold Dev.drvGood
  refine .drvRestore ?_
  split
  · exact .ite (.ite h.setDrv.event.chrInc h.setDrv) (.complete (.setHoist (.setDrv (.ite h.setDrv.event.chrInc
      h.setDrv))))
  · exact .ite h.setDrv.event.chrInc h.setDrv

theorem Dev.Canon.drvStatusFrame {stopOk b} (h : s.Canon) : (drvStatusFrame stopOk b s).Canon := by
  unfold Machine.drvStatusFrame
  refine .ite h ?_
  split
  · exact h
  · split
    · exact .ite h.drvGood h.setBit.setDrv.drvMiss
    · exact h.setBit.setDrv.drvMiss

theorem Dev.Canon.drvStatusWindowExpiry (h : s.Canon) : (drvStatusWindowExpiry s).Canon := by
  unfold Machine.drvStatusWindowExpiry
  split
  · exact h
  · exact .ite h h.setDrv.drvMiss

theorem Dev.Canon.drvHelloAck {stopOk b} (h : s.Canon) : (drvHelloAck stopOk b s).Canon := by
  unfold Machine.drvHelloAck
  split
  · exact h
  · exact .ite (.ite h.setDrv h.setBit.event.enableFails) h

theorem Dev.Canon.drvNegotiationTimeout (h : s.Canon) : (drvNegotiationTimeout s).Canon := by
  unfold Machine.drvNegotiationTimeout
  split
  · exact .ite h.setDrv h
  · exact h

theorem Dev.Canon.drvEnableTimeout (h : s.Canon) : (drvEnableTimeout s).Canon := .ite h.enableFails h

theorem Dev.Canon.drvFaultResetTimeout (h : s.Canon) : (drvFaultResetTimeout s).Canon := by
  unfold Machine.drvFaultResetTimeout
  split
  · exact .ite h.setDrv.complete h
  · exact h

theorem Dev.Canon.msqHEnable {d} (h : s.Canon) : (msqHEnable d s).Canon := .ite h.fail h.hWait
theorem Dev.Canon.drvFaultReset {d} (h : s.Canon) : (drvFaultReset d s).Canon := .ite h.fail (.ite h.fail h.setDrv)
theorem Dev.Canon.drvRead {d} (h : s.Canon) : (drvRead d s).Canon := .ite h.fail h.complete

theorem Dev.Canon.drvAbort {d} (h : s.Canon) : CanonOpt (s.drvAbort d) :=
  .ite (.some h.enableFails) (.ite (.some h.setDrv.fail) .none)

/-! ## Doors (06) -/

theorem Dev.Canon.setAxis {n x} (h : s.Canon) : (s.setAxis n x).Canon := h.update
theorem Dev.Canon.modAxis {n f} (h : s.Canon) : (s.modAxis n f).Canon := h.setAxis
theorem Dev.Canon.setCamSlot {n k x} (h : s.Canon) : (s.setCamSlot n k x).Canon := h.update
theorem Dev.Canon.setBridge {b x} (h : s.Canon) : (s.setBridge b x).Canon := h.update
theorem Dev.Canon.takeRegs {n} (h : s.Canon) : (s.takeRegs n).Canon := h.modAxis
theorem Dev.Canon.brakeAxis {n} (h : s.Canon) : (s.brakeAxis n).Canon := h.modAxis

theorem Dev.Canon.enter {n st} (h : s.Canon) : (s.enter n st).Canon := by
  dsimp only [Dev.enter]
  split
  · exact h.modAxis.handLoop.handLoop
  · exact h.modAxis.handLoop.handLoop
  · exact h.modAxis.handLoop.handLoop
  · exact h.modAxis.handLoop.handLoop
  · exact h.modAxis.handLoop.handLoop
  · exact h.modAxis

theorem Dev.Canon.stopAxis {n} (h : s.Canon) : (s.stopAxis n).Canon :=
  .seq h.modAxis fun h1 => .ite h1.enter.brakeAxis (.ite h1.enter h1)

theorem Dev.Canon.axisDoneKeep {keep n st cause sup at_} (h : s.Canon) :
    (s.axisDoneKeep keep n st cause sup at_).Canon := by
  unfold Dev.axisDoneKeep
  split
  · exact h
  · exact .seq h.modAxis fun h1 => .ite (.ite h1.complete h1) (.complete (.foldl (fun h2 => .seq h2.modAxis fun h3 =>
      .ite h3 h3.stopAxis) h1))

theorem Dev.Canon.axisDone {n st cause sup at_} (h : s.Canon) : (s.axisDone n st cause sup at_).Canon := h.axisDoneKeep
theorem Dev.Canon.dEvent {sev code n at_ p} (h : s.Canon) : (s.dEvent sev code n at_ p).Canon := h.event
theorem Dev.Canon.dropStops {n st cause} (h : s.Canon) : (s.dropStops n st cause).Canon := .modAxis (.foldl .complete h)

theorem Dev.Canon.dClosed {n at_} (h : s.Canon) : (s.dClosed n at_).Canon := by
  unfold Dev.dClosed
  exact .seq h.dEvent fun h1 => .modAxis (.ite h1.chrInc h1)

theorem Dev.Canon.dOpened {n at_} (h : s.Canon) : (s.dOpened n at_).Canon := h.dEvent.modAxis
theorem Dev.Canon.recheck {n slot} (h : s.Canon) : (s.recheck n slot).Canon := .ite h.setCamSlot.dEvent.chrInc h
theorem Dev.Canon.motionStart {n} (h : s.Canon) : (s.motionStart n).Canon := h.takeRegs.recheck.recheck.recheck

theorem Dev.Canon.startCam {n slot} (h : s.Canon) : (s.startCam n slot).2.2.Canon := by
  dsimp only [Dev.startCam]
  split
  · exact h
  · exact h.dEvent

theorem Dev.Canon.startMotion {n st g gear pEnd} (h : s.Canon) : (s.startMotion n st g gear pEnd).Canon :=
  h.dropStops.enter.modAxis

theorem Dev.Canon.startOpen {n} (h : s.Canon) : (s.startOpen n).Canon := by
  dsimp only [Dev.startOpen]
  exact h.motionStart.startCam.startMotion

theorem Dev.Canon.startClose {n nudge} (h : s.Canon) : (s.startClose n nudge).Canon := by
  dsimp only [Dev.startClose]
  exact h.motionStart.startCam.startMotion.modAxis

theorem Dev.Canon.startAdvance {n t} (h : s.Canon) : (s.startAdvance n t).Canon := by
  unfold Dev.startAdvance
  exact h.motionStart.startMotion.modAxis

theorem Dev.Canon.camMarks {n slot c phi x5} (h : s.Canon) : (s.camMarks n slot c phi x5).Canon :=
  .foldl (fun h1 => .ite h1.dEvent h1) h

theorem Dev.Canon.genStep {n} (h : s.Canon) : (s.genStep n).Canon := by
  dsimp only [Dev.genStep]
  split
  · exact h.modAxis
  · exact h.modAxis
  · exact h.modAxis
  · exact h.camMarks.modAxis
  · exact h.modAxis

theorem Dev.Canon.virtStep {n} (h : s.Canon) : (s.virtStep n).Canon := h.modAxis
theorem Dev.Canon.followStep {n} (h : s.Canon) : (s.followStep n).Canon := h.setAxis

theorem Dev.Canon.disableAxis {n} (h : s.Canon) : (s.disableAxis n).Canon :=
  .foldl .complete h.dropStops.setAxis.dropAxis

theorem Dev.Canon.endEnable {n st cause} (h : s.Canon) : (s.endEnable n st cause).Canon :=
  .seq h.modAxis fun h1 => .completeOpt (.ite h1.brakeAxis h1)

theorem Dev.Canon.faultAxis {n c} (h : s.Canon) : (s.faultAxis n c).Canon :=
  .seq h.axisDone.endEnable.dropStops.modAxis.dEvent fun h1 => .ite h1 h1.disableAxis

theorem Dev.Canon.commitAxis {n} (h : s.Canon) : (s.commitAxis n).Canon := by
  unfold Dev.commitAxis
  refine .ite ?_ h
  dsimp only
  split
  · exact .dClosed (.ite h.axisDone.enter.modAxis.chrInc h.axisDone.enter.modAxis)
  · exact .dOpened (.ite h.axisDone.enter.modAxis.chrInc h.axisDone.enter.modAxis)
  · exact .ite h.axisDone.enter.modAxis.chrInc h.axisDone.enter.modAxis

theorem Dev.Canon.restAxis {n} (h : s.Canon) : (s.restAxis n).Canon := .ite (.modAxis (.foldl .complete h.modAxis)) h

theorem Dev.Canon.disableAtRest {n} (h : s.Canon) : (s.disableAtRest n).Canon :=
  .ite h (.ite h.axisDone.disableAxis (.ite h.disableAxis h))

theorem Dev.Canon.disableGone {n} (h : s.Canon) : (s.disableGone n).Canon := .ite h.axisDone.stopAxis h

theorem Dev.Canon.openingGuards {n} (h : s.Canon) : (s.openingGuards n).Canon :=
  .seq h.modAxis fun h1 => .ite h1 (.ite h1.axisDone.startClose (.ite h1.axisDone.startClose (.ite h1.startOpen.modAxis
    h1)))

theorem Dev.Canon.startWaiting {n ordinary} (h : s.Canon) : (s.startWaiting n ordinary).Canon := by
  unfold Dev.startWaiting
  refine .ite h.startOpen.modAxis ?_
  split
  · exact h.startAdvance.modAxis
  · exact h

theorem Dev.Canon.advWait {n} (h : s.Canon) : (s.advWait n).Canon :=
  .ite h (.ite (.foldl .startWaiting h) (.ite (.seq (.foldl .recheck h) fun h1 => .ite (.foldl .startWaiting h1) h1) h))

theorem Dev.Canon.reopenAxis {n} (h : s.Canon) : (s.reopenAxis n).Canon := .ite h.startOpen.modAxis.dEvent.chrInc h

theorem Dev.Canon.supersedeAxis {keep n sense} (h : s.Canon) : (s.supersedeAxis keep n sense).Canon :=
  .axisDoneKeep (.ite h.chrInc h)

theorem Dev.Canon.openAxis {d set_ waiting n} (h : s.Canon) : (s.openAxis d set_ waiting n).Canon := by
  dsimp only [Dev.openAxis]
  split
  · exact h
  · exact h.axisDoneKeep.modAxis
  · exact h.axisDoneKeep.modAxis
  · exact .seq h.axisDoneKeep fun h1 => .ite h1.enter.modAxis.modAxis (.ite h1.startOpen.modAxis
      h1.stopAxis.modAxis.modAxis)
  · exact .ite h.supersedeAxis.startOpen.modAxis h.supersedeAxis.stopAxis.modAxis.modAxis

theorem Dev.Canon.closeAxis {d set_ n nudge} (h : s.Canon) : (s.closeAxis d set_ n nudge).Canon := by
  dsimp only [Dev.closeAxis]
  split
  · exact h.axisDoneKeep.modAxis
  · exact h.axisDoneKeep.enter
  · exact h.axisDoneKeep.modAxis.modAxis
  · exact h.supersedeAxis.startClose.modAxis

theorem Dev.Canon.decideSet {d check act} (hact : ∀ {x0} {t1 : Dev} {x2}, t1.Canon → (act x0 t1 x2).Canon) (h : s.Canon)
    : (s.decideSet d check act).Canon := by
  dsimp only [Dev.decideSet]
  split
  · exact h.complete
  · exact .seq (.foldl (fun h1 => hact h1) h) fun h2 => .ite h2.complete h2

theorem Dev.Canon.decideDGoto {d n} (h : s.Canon) : (s.decideDGoto d n).Canon := by
  unfold Dev.decideDGoto
  refine .ite h.complete ?_
  split
  · exact h.complete
  · exact h.complete
  · exact h.complete
  · refine .ite h.complete ?_
    split
    · exact h.complete
    · exact h.supersedeAxis.motionStart.startMotion.modAxis

theorem Dev.Canon.decideDStop {d n} (h : s.Canon) : (s.decideDStop d n).Canon :=
  .seq h.axisDone.stopAxis fun h1 => .ite h1.modAxis h1.complete

theorem Dev.Canon.decideDEnable {d n} (h : s.Canon) : (s.decideDEnable d n).Canon :=
  .ite h.complete (.ite h.complete (.ite h.complete (.ite h.complete (.ite h.complete (.seq h.admitAxis.takeRegs.modAxis
    fun h1 => .ite h1 (.ite h1.modAxis h1.enter.modAxis.complete))))))

theorem Dev.Canon.decideDDisable {d n} (h : s.Canon) : (s.decideDDisable d n).Canon :=
  .ite h.complete (.seq h.endEnable.modAxis fun h1 => .ite h1.axisDone.modAxis (.ite h1.brakeAxis h1.disableAtRest))

theorem Dev.Canon.doorReading {d n} (h : s.Canon) : (s.doorReading d n).Canon := h.complete

theorem Dev.Canon.decideSine {d} (h : s.Canon) : (s.decideSine d).Canon :=
  .seq h.update fun h1 => .ite h1.complete (.ite h1.complete (.complete h1.update))

theorem Dev.Canon.decideDoor {d} (h : s.Canon) : (s.decideDoor d).Canon := by
  dsimp only [Dev.decideDoor]
  split
  · exact h.decideDEnable
  · exact h.decideDDisable
  · exact h.decideSet .openAxis
  · exact h.decideSet .closeAxis
  · exact h.decideDGoto
  · exact h.decideDStop
  · exact h.setCamSlot
  · exact h.decideSine
  · exact h.doorReading
  · exact h

theorem Dev.Canon.axisEvents {n} (h : s.Canon) : (s.axisEvents n).Canon := by
  unfold Dev.axisEvents
  refine .ite ?_ ?_
  · split
    · exact h.modAxis
    · exact h
  · dsimp only
    split
    · split
      · exact h.modAxis
      · exact h
    · refine .faultAxis ?_
      split
      · exact h.modAxis
      · exact h
    · refine .disableAtRest (.restAxis (.reopenAxis (.openingGuards (.commitAxis ?_))))
      split
      · exact h.modAxis
      · exact h

theorem Dev.Canon.msqDoorStep (h : s.Canon) : (msqDoorStep s).Canon :=
  .foldl (fun h1 => .ite h1.virtStep h1.virtStep.genStep.followStep) (.foldl .decideDoor (.update (.foldl .advWait
    (.foldl .axisEvents h))))

theorem Dev.Canon.limitIq {n} (h : s.Canon) : (s.limitIq n).2.Canon := by
  dsimp only [Dev.limitIq]
  exact .ite_snd h (.ite_snd h.modAxis (.seq h.modAxis fun h1 => .ite_snd (.modAxis (.ite h1 h1.dEvent.chrInc))
    h1.modAxis))

theorem Dev.Canon.switchMode {n iq} (h : s.Canon) : (s.switchMode n iq).Canon :=
  .seq h.modAxis fun h1 => .ite h1.dEvent h1

theorem Dev.Canon.commutationStep {n} (h : s.Canon) : (commutationStep n s).Canon :=
  .ite h (.ite h.disableAxis (.ite h (.seq h.limitIq.switchMode.setAxis fun h1 => .ite h1.modAxis h1)))

theorem Dev.Canon.quietModeEntry {n} (h : s.Canon) : (quietModeEntry n s).Canon := by
  dsimp only [Machine.quietModeEntry]
  split
  · exact .ite h.modAxis.dEvent h
  · exact h

theorem Dev.Canon.energyClampStep {n vm} (h : s.Canon) : (s.energyClampStep n vm).Canon :=
  .seq h.modAxis fun h1 => .ite h1.dEvent h1

theorem Dev.Canon.energyTrip {n e vm} (h : s.Canon) : (s.energyTrip n e vm).Canon :=
  .seq (.endEnable (.ite h.axisDone h)) fun h1 => .dEvent (.chrInc (.setBit (.modAxis (.ite h1.enter h1))))

theorem Dev.Canon.obstructed {n r f} (h : s.Canon) : (s.obstructed n r f).Canon :=
  .seq h.dEvent.setBit.chrInc.modAxis fun h1 => .ite h1 (.seq h1.axisDone fun h2 => .ite (.seq h2.modAxis fun h3 => .ite
    h3.modAxis h3.stopAxis) h2.stopAxis)

theorem Dev.Canon.doorLimiterEvaluation {n} (h : s.Canon) : (doorLimiterEvaluation n s).Canon :=
  .ite h (.seq h.modAxis.energyClampStep.modAxis.modAxis fun h1 => .ite h1.energyTrip (.ite h1 (.seq h1.modAxis fun h2
    => .ite h2.obstructed h2)))

theorem Dev.Canon.enableDone {n} (h : s.Canon) : (s.enableDone n).Canon := h.enter.modAxis.completeOpt

theorem Dev.Canon.homeReferenceDone {n} (h : s.Canon) : (homeReferenceDone n s).Canon := by
  dsimp only [Machine.homeReferenceDone]
  split
  · exact .ite h.modAxis.enableDone h
  · exact h

theorem Dev.Canon.alignDone {n} (h : s.Canon) : (alignDone n s).Canon := by
  dsimp only [Machine.alignDone]
  split
  · exact .ite (.seq h.setReg fun h1 => .ite h1.modAxis h1.enableDone) h
  · exact h

theorem Dev.Canon.doorMotionTimeout {n} (h : s.Canon) : (doorMotionTimeout n s).Canon := .ite h.axisDone.stopAxis h

theorem Dev.Canon.camCheckComplete {n k} (h : s.Canon) : (camCheckComplete n k s).Canon := by
  dsimp only [Machine.camCheckComplete]
  split
  · exact h
  · split
    · exact h.setCamSlot.dEvent.chrInc.complete
    · exact h.setCamSlot.complete

theorem Dev.Canon.doorWait {d} (h : s.Canon) : (s.doorWait d).Canon := h.update

theorem Dev.Canon.msqDEnable {d} (h : s.Canon) : (msqDEnable d s).Canon := by
  unfold Machine.msqDEnable
  split
  · exact h.fail
  · exact .ite h.fail h.doorWait

theorem Dev.Canon.msqDDisable {d} (h : s.Canon) : (msqDDisable d s).Canon := by
  unfold Machine.msqDDisable
  split
  · exact h.fail
  · exact .ite h.fail h.doorWait

theorem Dev.Canon.doorSet {d} (h : s.Canon) : (s.doorSet d).Canon := by
  unfold Dev.doorSet
  split
  · exact h.fail
  · split
    · exact h.fail
    · exact h.doorWait

theorem Dev.Canon.msqDOpen {d} (h : s.Canon) : (msqDOpen d s).Canon := h.doorSet
theorem Dev.Canon.msqDClose {d} (h : s.Canon) : (msqDClose d s).Canon := h.doorSet

theorem Dev.Canon.msqDGoto {d} (h : s.Canon) : (msqDGoto d s).Canon := by
  unfold Machine.msqDGoto
  split
  · exact h.fail
  · exact .ite h.fail h.doorWait

theorem Dev.Canon.msqDStop {d} (h : s.Canon) : (msqDStop d s).Canon := by
  unfold Machine.msqDStop
  split
  · exact h.fail
  · exact h.doorWait

theorem Dev.Canon.msqDCamLoad {d img} (h : s.Canon) : (msqDCamLoad d img s).Canon := by
  unfold Machine.msqDCamLoad
  split
  · exact h.fail
  · exact .ite h.fail (.ite h.fail h.setCamSlot.doorWait)

theorem Dev.Canon.msqDSineLoad {d img} (h : s.Canon) : (msqDSineLoad d img s).Canon := by
  dsimp only [Machine.msqDSineLoad]
  split
  · exact h.fail
  · exact .ite h.fail (.doorWait h.update)

theorem Dev.Canon.msqDRead {d} (h : s.Canon) : (msqDRead d s).Canon := by
  unfold Machine.msqDRead
  split
  · exact h.fail
  · exact h.doorWait

theorem Dev.Canon.msqBSet {d} (h : s.Canon) : (msqBSet d s).Canon := .ite h.fail (.ite h.fail h.setBridge.complete)

theorem Dev.Canon.doorAbort {d} (h : s.Canon) : CanonOpt (s.doorAbort d) := by
  unfold Dev.doorAbort
  refine .ite (.some (.complete h.update)) ?_
  split
  · exact .some h.axisDone.stopAxis
  · exact .none

end

end Sys2Proof.Machine
end


section
/-! PROOFS. The shared SRAM stays canonical through dispatch, group replication, the networks and the buses (09
to 11). -/
namespace Sys2Proof.Machine

section
variable {s : Dev}

/-! ## Monarch dispatch (09) -/

theorem Dev.Canon.setMon {f} (h : s.Canon) : (s.setMon f).Canon := h.update
theorem Dev.Canon.putTrip {t} (h : s.Canon) : (s.putTrip t).Canon := h.setMon
theorem Dev.Canon.freeTrip {id} (h : s.Canon) : (s.freeTrip id).Canon := h.setMon

theorem Dev.Canon.monEvent {sev code car id tEv payload} (h : s.Canon) :
    (s.monEvent sev code car id tEv payload).Canon :=
  .ite h.event h

theorem Dev.Canon.assignedEvent {t tEv attached} (h : s.Canon) : (s.assignedEvent t tEv attached).Canon := h.monEvent

theorem Dev.Canon.answerCall {id trip cause late} (h : s.Canon) : (s.answerCall id trip cause late).Canon := by
  unfold Dev.answerCall
  refine .ite h ?_
  dsimp only
  split
  · exact .ite h.emit.setMon h.emit.setMon.complete.completeOpt
  · exact h.emit

theorem Dev.Canon.endCalls {id at_ served} (h : s.Canon) : (s.endCalls id at_ served).Canon :=
  .foldl (fun h1 => h1.setMon.complete.completeOpt) h

theorem Dev.Canon.queueEval {j} (h : s.Canon) : (s.queueEval j).Canon := h.setMon

theorem Dev.Canon.noteLong {id tEv l} (h : s.Canon) : (s.noteLong id tEv l).Canon :=
  .foldl (fun h1 => .seq h1.setBit fun h2 => .ite h2.event h2) h

theorem Dev.Canon.evalCall {t tEv} (h : s.Canon) : (s.evalCall t tEv).Canon := by
  unfold Dev.evalCall
  refine .ite (.ite h.putTrip.answerCall h.freeTrip.answerCall) (.ite ?_ ?_)
  · split
    · exact h.putTrip.answerCall
    · exact h.freeTrip.answerCall
  · split
    · exact h.putTrip.assignedEvent.answerCall
    · exact h.putTrip.monEvent.answerCall

theorem Dev.Canon.reassigned {t n cause tEv} (h : s.Canon) : (s.reassigned t n cause tEv).Canon := .ite h.event h
theorem Dev.Canon.announce {t} (h : s.Canon) : (s.announce t).Canon := .ite h.emit h

theorem Dev.Canon.evalIneligible {t tEv} (h : s.Canon) : (s.evalIneligible t tEv).Canon := by
  unfold Dev.evalIneligible
  split
  · exact .ite h h.putTrip.reassigned.announce
  · exact h.putTrip.reassigned

theorem Dev.Canon.freezeTrip {tEv t} (h : s.Canon) : (s.freezeTrip tEv t).Canon := by
  unfold Dev.freezeTrip
  refine .ite h ?_
  dsimp only
  split <;> exact h.putTrip

theorem Dev.Canon.freezeAll {tEv} (h : s.Canon) : (s.freezeAll tEv).Canon := .foldl .freezeTrip h

theorem Dev.Canon.evalTick {t tEv} (h : s.Canon) : (s.evalTick t tEv).Canon := by
  dsimp only [Dev.evalTick]
  split
  · split
    · exact h.freezeTrip.putTrip.assignedEvent
    · exact h.freezeTrip
  · split
    · exact .ite h.freezeTrip h.freezeTrip.putTrip.reassigned
    · exact h.freezeTrip
  · exact h.freezeTrip

theorem Dev.Canon.settleEvent {tEv} (h : s.Canon) : (s.settleEvent tEv).Canon := .ite h.freezeAll.setMon h.setMon

theorem Dev.Canon.finishEval (h : s.Canon) : s.finishEval.Canon := by
  unfold Dev.finishEval
  split
  · dsimp only
    split
    · refine .settleEvent (.noteLong ?_)
      split
      · split
        · exact h.setMon.evalCall
        · exact h.setMon.evalTick
        · exact h.setMon.evalIneligible
      · exact h.setMon
    · refine .noteLong ?_
      split
      · split
        · exact h.setMon.evalCall
        · exact h.setMon.evalTick
        · exact h.setMon.evalIneligible
      · exact h.setMon
  · exact h

theorem Dev.Canon.bucket {tEv} (h : s.Canon) : (s.bucket tEv).2.Canon := h.setMon

theorem Dev.Canon.applyCall {e c} (h : s.Canon) : (s.applyCall e c).Canon := by
  dsimp only [Dev.applyCall]
  split
  · exact .settleEvent (.answerCall (.assignedEvent (.putTrip (.ite (.monEvent (.setMon (.setBit h.bucket.update)))
      h.bucket.update))))
  · exact .ite (.seq (.setBit (.ite (.monEvent (.setMon (.setBit h.bucket.update))) h.bucket.update)) fun h1 =>
      .settleEvent (.answerCall (.ite h1.event h1))) (.settleEvent (.queueEval (.putTrip (.ite (.monEvent (.setMon
      (.setBit h.bucket.update))) h.bucket.update))))

theorem Dev.Canon.cancelTrip {t cause tEv} (h : s.Canon) : (s.cancelTrip t cause tEv).Canon :=
  h.monEvent.endCalls.freeTrip

theorem Dev.Canon.endAbortedCall {id} (h : s.Canon) : (s.endAbortedCall id).Canon := by
  unfold Dev.endAbortedCall
  split
  · exact h.setMon.complete.completeOpt
  · exact h

theorem Dev.Canon.applyCancel {e id} (h : s.Canon) : (s.applyCancel e id).Canon := by
  unfold Dev.applyCancel
  refine .settleEvent (.ite ?_ ?_)
  · split
    · refine .complete (.setMon ?_)
      split
      · exact h.cancelTrip
      · exact h
    · refine .endAbortedCall ?_
      split
      · exact h.cancelTrip
      · exact h
  · split
    · exact h.cancelTrip
    · exact h

theorem Dev.Canon.tripDone {t tEv} (h : s.Canon) : (s.tripDone t tEv).Canon := h.monEvent.endCalls.freeTrip

theorem Dev.Canon.serveTrip {tEv r t} (h : s.Canon) : (s.serveTrip tEv r t).Canon :=
  .ite (.ite (.ite h.tripDone h.putTrip) h) (.ite h.putTrip (.ite h.tripDone h))

theorem Dev.Canon.reevaluate {tEv} (h : s.Canon) : (s.reevaluate tEv).Canon := .foldl (fun h1 => .ite h1.queueEval h1) h

theorem Dev.Canon.applyStatus {e r} (h : s.Canon) : (s.applyStatus e r).Canon :=
  .settleEvent (.reevaluate (.foldl .serveTrip h.setMon.update))

theorem Dev.Canon.applyTick {tEv} (h : s.Canon) : (s.applyTick tEv).Canon := by
  unfold Dev.applyTick
  refine .settleEvent ?_
  split
  · exact .setMon (.foldl .queueEval (.freezeAll (.foldl .cancelTrip h)))
  · exact .foldl .queueEval (.freezeAll (.foldl .cancelTrip h))

theorem Dev.Canon.applyCommitted {a} (h : s.Canon) : (s.applyCommitted a).Canon := by
  unfold Dev.applyCommitted
  split
  · exact h.applyTick
  · split
    · exact h.applyStatus
    · exact h.applyCall
    · exact h.applyCancel

theorem Dev.Canon.drainMon {n} (h : s.Canon) : (drainMon n s).Canon := by
  induction n generalizing s with
  | zero => exact h
  | succ n ih =>
    rw [Machine.drainMon]
    split
    · exact ih h.finishEval
    · exact ih h.setMon.applyCommitted
    · exact h

theorem Dev.Canon.drain (h : s.Canon) : s.drain.Canon := h.drainMon

theorem Dev.Canon.applyHead {p} (h : s.Canon) : (s.applyHead p).Canon := by
  unfold Dev.applyHead
  split
  · exact .ite h.setMon.applyCommitted h
  · exact h

theorem Dev.Canon.monApplyCall (h : s.Canon) : (monApplyCall s).Canon := h.applyHead
theorem Dev.Canon.monApplyCancel (h : s.Canon) : (monApplyCancel s).Canon := h.applyHead
theorem Dev.Canon.monApplyCarStatus (h : s.Canon) : (monApplyCarStatus s).Canon := h.applyHead
theorem Dev.Canon.monApplyTick (h : s.Canon) : (monApplyTick s).Canon := h.applyHead

/-! ## The group link (10) -/

theorem Dev.Canon.setGrp {f} (h : s.Canon) : (s.setGrp f).Canon := h.update
theorem Dev.Canon.setStl {f} (h : s.Canon) : (s.setStl f).Canon := h.update
theorem Dev.Canon.modPeer {n f} (h : s.Canon) : (s.modPeer n f).Canon := h.setGrp
theorem Dev.Canon.groupSend {r} (h : s.Canon) : (s.groupSend r).Canon := .ite h h.setStl.emit

theorem Dev.Canon.enterEvent {b tEv} (h : s.Canon) : (s.enterEvent b tEv).Canon := by
  unfold Dev.enterEvent
  refine .groupSend ?_
  split
  · exact h.setGrp.setMon
  · exact h.setGrp

theorem Dev.Canon.formEvent {b tEv} (h : s.Canon) : (s.formEvent b tEv).Canon := .ite h.enterEvent h.setGrp
theorem Dev.Canon.sendWaiting (h : s.Canon) : s.sendWaiting.Canon := .foldl .enterEvent h.setGrp

/-! ## Car records (09) -/

theorem Dev.Canon.refOf {phase} (h : s.Canon) : (s.refOf phase).2.Canon := .ite_snd h.drawn h

theorem Dev.Canon.carStatus (h : s.Canon) : s.carStatus.Canon :=
  .seq (.setMon (.ite_snd h.refOf h)) fun h1 => .ite h1 (.seq h1.setMon fun h2 => .ite h2.formEvent h2)

/-! ## The commit rule (10) -/

/-- The definition is unfolded as a function, without its arguments: the kernel would otherwise compute the ticks. -/
theorem Dev.Canon.commitWhere {p below} (h : s.Canon) : (s.commitWhere p below).Canon := by
  suffices unfolded : ∀ f, f = Dev.commitWhere → (f s p below).Canon from unfolded _ rfl
  delta Dev.commitWhere
  rintro _ rfl
  dsimp -zeta -iota -proj only
  rcases s.ticksBelow below with ⟨ts, next⟩
  exact h.setGrp.setMon

theorem Dev.Canon.noteSlow {e} (h : s.Canon) : (s.noteSlow e).Canon := .ite h.setBit.event h
theorem Dev.Canon.commitStep (h : s.Canon) : s.commitStep.Canon := .ite (.commitWhere (.foldl .noteSlow h.setGrp)) h
theorem Dev.Canon.closeEpoch {cut tS} (h : s.Canon) : (s.closeEpoch cut tS).Canon := h.commitWhere.drain
theorem Dev.Canon.stage {cfg ftt} (h : s.Canon) : (s.stage cfg ftt).Canon := h.setMon

theorem Dev.Canon.activate {epoch costver tS} (h : s.Canon) : (s.activate epoch costver tS).Canon :=
  .foldl .complete h.setMon.event

theorem Dev.Canon.keepChunk {sender epoch i b} (h : s.Canon) : (s.keepChunk sender epoch i b).Canon := h.setGrp

theorem Dev.Canon.sendSnapshot {b} (h : s.Canon) : (s.sendSnapshot b).Canon :=
  .foldl (fun h1 => h1.keepChunk.groupSend) h

theorem Dev.Canon.install {x} (h : s.Canon) : (s.install x).Canon := h.setMon.setGrp

theorem Dev.Canon.resolveDup {tS a b} (h : s.Canon) : (s.resolveDup tS a b).Canon := by
  dsimp only [Dev.resolveDup]
  split
  · exact .announce (.ite h.putTrip.event h.putTrip)
  · exact .ite (.event (.ite h.putTrip.event h.putTrip)) (.ite h.putTrip.event h.putTrip)

/-! ## Views and joining (10) -/

theorem Dev.Canon.beginRound {prop cause merge} (h : s.Canon) : (s.beginRound prop cause merge).Canon :=
  h.setGrp.groupSend

theorem Dev.Canon.sideSnapshot {c expired} (h : s.Canon) : (s.sideSnapshot c expired).Canon := .ite h.sendSnapshot h

theorem Dev.Canon.noteRefused {coord answered view} (h : s.Canon) : (s.noteRefused coord answered view).Canon :=
  .ite (.foldl (fun h1 => h1.event.chrInc) h) h

theorem Dev.Canon.sendStart {c answered} (h : s.Canon) : (s.sendStart c answered).Canon :=
  h.noteRefused.setGrp.groupSend

theorem Dev.Canon.roundCheck {expired} (h : s.Canon) : (s.roundCheck expired).Canon := by
  unfold Dev.roundCheck
  split
  · exact .ite h (.seq h.sideSnapshot fun h1 => .ite h1 (.ite h1.sendStart h1))
  · exact h

theorem Dev.Canon.trigger {cause merge} (h : s.Canon) : (s.trigger cause merge).Canon := by
  unfold Dev.trigger
  split
  · exact h.beginRound.roundCheck
  · exact .ite (.ite h.beginRound.roundCheck h) (.ite h h.setGrp)

theorem Dev.Canon.takeRecord {msg f} (hf : ∀ {t : Dev} {x1}, t.Canon → (f t x1).Canon) (h : s.Canon) :
    (s.takeRecord msg f).Canon := by
  unfold Dev.takeRecord
  split
  · exact .ite (.seq h.setGrp fun h1 => .ite (hf h1) h1) h
  · exact h

theorem Dev.Canon.excluded (h : s.Canon) : s.excluded.Canon := .completeOpt h.setGrp.update
theorem Dev.Canon.finishLeave (h : s.Canon) : s.finishLeave.Canon := h.excluded.setGrp
theorem Dev.Canon.rejoin (h : s.Canon) : s.rejoin.Canon := h.setGrp

theorem Dev.Canon.joinRound {f} (h : s.Canon) : (s.joinRound f).Canon :=
  .ite h (.ite h.beginRound (.ite h.beginRound h))

theorem Dev.Canon.tellFlush {hb} (h : s.Canon) : (s.tellFlush hb).Canon := h.setGrp

theorem Dev.Canon.heartbeatSend (h : s.Canon) : (heartbeatSend s).Canon := by
  unfold Machine.heartbeatSend
  refine .ite h (.ite h.groupSend.setGrp.finishLeave (.commitStep ?_))
  split
  · exact h.groupSend.setGrp.trigger
  · exact h.groupSend.setGrp

theorem Dev.Canon.takeHeartbeat {r} (h : s.Canon) : (s.takeHeartbeat r).Canon := by
  unfold Dev.takeHeartbeat
  refine .ite h (.commitStep ?_)
  split
  · refine .roundCheck (.joinRound ?_)
    split
    · exact .trigger (.ite h.modPeer.tellFlush.setGrp h.modPeer.tellFlush)
    · exact .ite h.modPeer.tellFlush.setGrp h.modPeer.tellFlush
  · split
    · exact .trigger (.ite h.modPeer.tellFlush.setGrp h.modPeer.tellFlush)
    · exact .ite h.modPeer.tellFlush.setGrp h.modPeer.tellFlush

theorem Dev.Canon.heartbeatReceived (h : s.Canon) : (heartbeatReceived s).Canon := h.takeRecord .takeHeartbeat
theorem Dev.Canon.takeEvents {l} (h : s.Canon) : (s.takeEvents l).Canon := .foldl .setGrp h

theorem Dev.Canon.takeEvent {e} (h : s.Canon) : (s.takeEvent e).Canon := by
  unfold Dev.takeEvent
  split
  · exact h
  · extract_lets p q
    clear_value q
    split
    · exact h
    · split
      exact h.modPeer.takeEvents.commitStep

theorem Dev.Canon.eventRecordReceived (h : s.Canon) : (eventRecordReceived s).Canon := by
  unfold Machine.eventRecordReceived
  refine h.takeRecord (fun h1 => ?_)
  split
  · exact h1.takeEvent
  · exact h1

theorem Dev.Canon.gapRetx {n} (h : s.Canon) : (gapRetx n s).Canon := by
  dsimp only [Machine.gapRetx]
  split
  · exact .ite h h.modPeer.groupSend
  · exact h

theorem Dev.Canon.retxReceived (h : s.Canon) : (retxReceived s).Canon :=
  h.takeRecord (fun h1 => .ite h1 (.foldl .groupSend h1))

theorem Dev.Canon.grpPeerLost {n} (h : s.Canon) : (grpPeerLost n s).Canon := by
  dsimp only [Machine.grpPeerLost]
  split
  · exact .ite h.modPeer.event.chrInc.trigger h
  · exact h

theorem Dev.Canon.resendBeyond {f} (h : s.Canon) : (s.resendBeyond f).Canon := .foldl .groupSend h

theorem Dev.Canon.flushReceived (h : s.Canon) : (flushReceived s).Canon := by
  unfold Machine.flushReceived
  refine h.takeRecord (fun h1 => .ite h1 ?_)
  dsimp only
  split
  · exact .ite h1.setGrp.resendBeyond.roundCheck (.ite h1.resendBeyond h1.setGrp.resendBeyond)
  · exact .ite h1.setGrp.resendBeyond.joinRound.roundCheck h1.resendBeyond

theorem Dev.Canon.flushWaitExpiry (h : s.Canon) : (flushWaitExpiry s).Canon := by
  unfold Machine.flushWaitExpiry
  split
  · exact .ite h.roundCheck h
  · exact h

theorem Dev.Canon.epochStartReceived (h : s.Canon) : (epochStartReceived s).Canon := by
  unfold Machine.epochStartReceived
  refine h.takeRecord (fun h1 => .ite ?_ (.ite h1 (.ite (.ite h1.finishLeave h1.excluded) (.ite h1.beginRound.roundCheck
    h1.setGrp))))
  split
  · exact .ite h1.noteRefused.setGrp h1
  · exact h1

theorem Dev.Canon.epochStartTimeout (h : s.Canon) : (epochStartTimeout s).Canon := by
  unfold Machine.epochStartTimeout
  split
  · exact .ite h.beginRound.roundCheck h
  · exact h

theorem Dev.Canon.cutTimeout (h : s.Canon) : (cutTimeout s).Canon := by
  unfold Machine.cutTimeout
  split
  · split
    · exact .ite h.rejoin h
    · exact h
  · exact h

theorem Dev.Canon.alignPeers {e old} (h : s.Canon) : (s.alignPeers e old).Canon :=
  .foldl (fun h1 => h1.modPeer.takeEvents) h

theorem Dev.Canon.enterEpoch {e} (h : s.Canon) : (s.enterEpoch e).Canon :=
  .seq h.setGrp.setMon.setStl fun h1 => .setGrp (.ite h1 (.ite h1.activate h1))

theorem Dev.Canon.announceSelf (h : s.Canon) : s.announceSelf.Canon := h.sendWaiting.setMon.formEvent
theorem Dev.Canon.completeJoin {at_} (h : s.Canon) : (s.completeJoin at_).Canon := h.setGrp.completeOpt

theorem Dev.Canon.applyUnion {e a} (h : s.Canon) : (s.applyUnion e a).Canon := by
  unfold Dev.applyUnion
  split
  · exact .chrInc (.event (.setGrp (.foldl .resolveDup h.install)))
  · exact h

theorem Dev.Canon.epochEvent {e} (h : s.Canon) : (s.epochEvent e).Canon := h.event

theorem Dev.Canon.applyStart {e} (h : s.Canon) : (s.applyStart e).Canon :=
  .seq h.closeEpoch.alignPeers.setGrp.enterEpoch.applyUnion fun h1 => .announceSelf (.epochEvent (.settleEvent
    (.reevaluate (.ite h1.sendSnapshot h1))))

theorem Dev.Canon.joinStart {e} (h : s.Canon) : (s.joinStart e).Canon :=
  .seq h.alignPeers.setGrp.setMon.enterEpoch.applyUnion fun h1 => .seq (.announceSelf (.epochEvent (.ite
    h1.reevaluate.settleEvent h1))) fun h2 => .ite h2.completeJoin h2

theorem Dev.Canon.nextChange (h : s.Canon) : s.nextChange.Canon := by
  unfold Dev.nextChange
  refine .roundCheck (.foldl .joinRound ?_)
  split
  · exact h.setGrp.trigger
  · exact h.setGrp

theorem Dev.Canon.epochStartApply (h : s.Canon) : (epochStartApply s).Canon := by
  unfold Machine.epochStartApply
  split
  · split
    · exact .ite h (.ite h.setGrp (.nextChange (.ite h.applyStart h.joinStart)))
    · exact h
  · exact h

theorem Dev.Canon.snapReceived (h : s.Canon) : (snapReceived s).Canon :=
  h.takeRecord (fun h1 => .ite h1 h1.keepChunk.roundCheck)

theorem Dev.Canon.grpSnapshotDone (h : s.Canon) : (grpSnapshotDone s).Canon := by
  unfold Machine.grpSnapshotDone
  split
  · exact h.install.setGrp.event.reevaluate.settleEvent.carStatus.sendWaiting.commitStep.completeJoin
  · exact h

theorem Dev.Canon.installTimeout (h : s.Canon) : (installTimeout s).Canon := by
  unfold Machine.installTimeout
  split
  · exact .ite h.rejoin h
  · exact h

theorem Dev.Canon.groupFormation (h : s.Canon) : (groupFormation s).Canon := .ite h.trigger h

/-! ## Monarch and group commands (09, 10) -/

theorem Dev.Canon.soloEpoch (h : s.Canon) : s.soloEpoch.Canon :=
  h.closeEpoch.setGrp.setMon.activate.setGrp.setMon.reevaluate.settleEvent.sendWaiting

theorem Dev.Canon.soloActivate (h : s.Canon) : s.soloActivate.Canon := .ite h.soloEpoch h
theorem Dev.Canon.localCommit (h : s.Canon) : (localCommit s).Canon := .ite h h.setGrp.commitWhere

theorem Dev.Canon.monEvaluationComplete (h : s.Canon) : (monEvaluationComplete s).Canon := by
  unfold Machine.monEvaluationComplete
  split
  · exact .ite h.finishEval.soloActivate.carStatus h
  · exact h

theorem Dev.Canon.formCall {w3 w4 w5 tEv} (h : s.Canon) : (s.formCall w3 w4 w5 tEv).Canon := h.setMon.formEvent
theorem Dev.Canon.monCall {d} (h : s.Canon) : (monCall d s).Canon := .ite h.fail h.setMon.formCall

theorem Dev.Canon.fixtureFrame {q id flags data tEv} (h : s.Canon) : (s.fixtureFrame q id flags data tEv).Canon := by
  unfold Dev.fixtureFrame
  split
  · exact .ite h.formCall h
  · exact h

theorem Dev.Canon.monCancel {d} (h : s.Canon) : (monCancel d s).Canon := .ite h.fail h.setMon.formEvent
theorem Dev.Canon.unsend {b} (h : s.Canon) : CanonOpt (s.unsend b) := .ite (.some h.setGrp) .none

theorem Dev.Canon.monAbort {d a} (h : s.Canon) : CanonOptPair (s.monAbort d a) := by
  unfold Dev.monAbort
  split
  · dsimp only
    split
    next t unsent => exact .some (h.unsend t unsent).setMon.complete
    · exact .ite (.some h.setMon.formEvent) .none
  · split
    · intro p hp
      obtain ⟨t, unsent, rfl⟩ := Option.map_eq_some_iff.mp hp
      exact (h.unsend t unsent).setMon.complete
    · exact .ite (.some h.setMon.complete) (.ite (.some h.setGrp.complete) (.ite (.some h.setGrp.complete) .none))

theorem Dev.Canon.monCarMode {d} (h : s.Canon) : (monCarMode d s).Canon := .ite h.fail h.setMon.carStatus.complete

theorem Dev.Canon.monCarDoors {d} (h : s.Canon) : (monCarDoors d s).Canon :=
  .ite h.fail (.ite h.fail h.setMon.carStatus.complete)

theorem Dev.Canon.monTripRead {d} (h : s.Canon) : (monTripRead d s).Canon := by
  unfold Machine.monTripRead
  refine .ite h.fail ?_
  split
  · exact h.hostWrite.complete
  · exact h.complete

theorem Dev.Canon.monCarRead {d} (h : s.Canon) : (monCarRead d s).Canon := .ite h.fail h.drawn.hostWrite.complete

theorem Dev.Canon.monFttLoad {d img} (h : s.Canon) : (monFttLoad d img s).Canon :=
  .ite h.fail (.ite h.fail (.ite h.fail h.stage.complete))

theorem Dev.Canon.monConfigLoad {d img} (h : s.Canon) : (monConfigLoad d img s).Canon :=
  .ite h.fail (.ite h.fail (.ite h.fail h.stage.complete))

theorem Dev.Canon.monConfigCommit {d} (h : s.Canon) : (monConfigCommit d s).Canon := .ite h.fail h.setMon.soloActivate

theorem Dev.Canon.grpConfig {d} (h : s.Canon) : (grpConfig d s).Canon :=
  .ite h.fail (.ite h.fail (.ite h.fail h.setGrp.setFld.complete))

theorem Dev.Canon.grpJoin {d} (h : s.Canon) : (grpJoin d s).Canon := .ite h.fail (.ite h.fail (.ite h.fail h.setGrp))

theorem Dev.Canon.grpLeave {d} (h : s.Canon) : (grpLeave d s).Canon :=
  .ite h.fail (.ite h.fail (.ite h.fail (.ite h.fail (.ite h.setGrp h.setGrp.completeOpt.finishLeave))))

theorem Dev.Canon.grpStatus {d} (h : s.Canon) : (grpStatus d s).Canon := .ite h.fail (.ite h.fail h.complete)

theorem Dev.Canon.grpSnapshotRead {d} (h : s.Canon) : (grpSnapshotRead d s).Canon :=
  .ite h.fail (.ite h.fail h.hostWrite.complete)

/-! ## The station network (11) -/

theorem Dev.Canon.setPort {b p} (h : s.Canon) : (s.setPort b p).Canon := h.setStl
theorem Dev.Canon.setSender {n x} (h : s.Canon) : (s.setSender n x).Canon := h.setStl
theorem Dev.Canon.failPort {b} (h : s.Canon) : (s.failPort b).Canon := .ite h (.foldl .chrInc h.drawn.setPort.event)

theorem Dev.Canon.portStatus {b up full speed} (h : s.Canon) : (s.portStatus b up full speed).Canon :=
  .seq h.setPort fun h1 => .seq (.ite h1.event h1) fun h2 => .ite h2 h2.failPort

theorem Dev.Canon.portRecovery {b} (h : s.Canon) : (portRecovery b s).Canon := .ite (.foldl .setSender h.setPort) h

theorem Dev.Canon.markPath {n b valid sseq} (h : s.Canon) : (s.markPath n b valid sseq).Canon := by
  dsimp only [Dev.markPath]
  split
  · exact h.setSender
  · exact .seq h.setSender fun h1 => .chrInc (.ite h1.event h1.event)

theorem Dev.Canon.skipTo {n sseq} (h : s.Canon) : (s.skipTo n sseq).Canon :=
  .foldl (fun h1 => .ite h1 h1.markPath.markPath) h

theorem Dev.Canon.deliver {n sseq len pcrc closes record} (h : s.Canon) :
    (s.deliver n sseq len pcrc closes record).Canon :=
  .setGrp (.setSender (.ite h.skipTo h))

theorem Dev.Canon.stlMismatch {n sseq flags} (h : s.Canon) : (s.stlMismatch n sseq flags).Canon := h.setStl.setBit.event
theorem Dev.Canon.dropWindow {n sseq} (h : s.Canon) : (s.dropWindow n sseq).Canon := h.setSender

theorem Dev.Canon.secondCopy {n w b len pcrc record} (h : s.Canon) : (s.secondCopy n w b len pcrc record).Canon :=
  .seq h.dropWindow fun h1 => .ite (.markPath (.markPath (.ite h1.setStl h1.stlMismatch))) (.seq
    h1.deliver.markPath.markPath fun h2 => .ite h2 h2.stlMismatch)

theorem Dev.Canon.copyAgain {n d b len pcrc} (h : s.Canon) : (s.copyAgain n d b len pcrc).Canon :=
  .ite (.seq h.setStl fun h1 => .ite h1.setSender.event h1) h.stlMismatch

theorem Dev.Canon.validCopy {n b sseq len pcrc record} (h : s.Canon) :
    (s.validCopy n b sseq len pcrc record).Canon := by
  dsimp only [Dev.validCopy]
  split
  · exact .ite h.setSender.copyAgain h.setSender.secondCopy
  · exact .ite h.setSender h.setSender.secondCopy
  · exact h.setSender.copyAgain
  · exact .ite h.setSender.setSender.deliver.markPath.markPath.stlMismatch (.setSender (.ite h.setSender.deliver
      h.setSender))

theorem Dev.Canon.invalidCopy {n b sseq} (h : s.Canon) : (s.invalidCopy n b sseq).Canon := by
  unfold Dev.invalidCopy
  refine .ite h ?_
  split
  · exact .ite h h.dropWindow.deliver.markPath.markPath.stlMismatch
  · exact h.setSender

theorem Dev.Canon.closeWindow {n w} (h : s.Canon) : (s.closeWindow n w).Canon :=
  .seq h.dropWindow fun h1 => .markPath (.markPath (.ite h1 h1.deliver))

theorem Dev.Canon.closePast {n} (h : s.Canon) : (s.closePast n).Canon := .foldl .closeWindow h

theorem Dev.Canon.groupFrameCopyReceived {b fcsOk bytes} (h : s.Canon) :
    (groupFrameCopyReceived b fcsOk bytes s).Canon :=
  .ite h (.seq h.closePast fun h1 => .ite (.ite h1.invalidCopy h1) (.ite (.seq h1.setStl.setBit fun h2 => .ite
    h2.invalidCopy h2) (.ite h1.setStl.setBit h1.validCopy)))

theorem Dev.Canon.skewWindowClose {n} (h : s.Canon) : (skewWindowClose n s).Canon := by
  unfold Machine.skewWindowClose
  split
  · exact h.closeWindow
  · exact h

theorem Dev.Canon.senderForget {n} (h : s.Canon) : (senderForget n s).Canon := .ite h.setSender h

theorem Dev.Canon.syncMembership {sync} (h : s.Canon) : (s.syncMembership sync).Canon :=
  .ite h (.ite h.setGrp (.ite h.setGrp h))

theorem Dev.Canon.modPtp {b f} (h : s.Canon) : (s.modPtp b f).Canon := h.setStl
theorem Dev.Canon.ptpSend {b m seq} (h : s.Canon) : (s.ptpSend b m seq).Canon := .ite h.emit h

theorem Dev.Canon.takeOffset {offset} (h : s.Canon) : (s.takeOffset offset).Canon :=
  .seq h.setStl fun h1 => .seq (.ite h1.setStl.event.update h1) fun h2 => .ite h2 h2.setStl.event.syncMembership

theorem Dev.Canon.ptpSelect (h : s.Canon) : s.ptpSelect.Canon := by
  unfold Dev.ptpSelect
  split
  · exact h.setStl
  · exact .seq h.setStl fun h1 => .seq (.ite h1.event h1) fun h2 => .ite h2.takeOffset h2

theorem Dev.Canon.synchronise {offset} (h : s.Canon) : (s.synchronise offset).Canon := h.drawn.setStl.takeOffset

theorem Dev.Canon.ptpMessageReceived {b domain seq twoStep body sfd} (h : s.Canon) :
    (ptpMessageReceived b domain seq twoStep body sfd s).Canon := by
  unfold Machine.ptpMessageReceived
  refine .ite h ?_
  dsimp only
  split
  · exact .ite h h.modPtp.ptpSelect
  · exact .ite h.modPtp h
  · split
    · exact .ite h.modPtp.synchronise h
    · exact h
  · exact h.ptpSend.ptpSend
  · exact .ite h.modPtp h
  · split
    · exact .ite h.modPtp.ptpSelect h
    · exact h

theorem Dev.Canon.ptpPortTick {b} (h : s.Canon) : (s.ptpPortTick b).Canon := .ite h.modPtp.ptpSend h.modPtp

theorem Dev.Canon.ptpTick (h : s.Canon) : s.ptpTick.Canon :=
  .ite h (.seq h.setStl.ptpPortTick.ptpPortTick.ptpSelect fun h1 => .ite h1.setStl.ptpSend.ptpSend h1)

theorem Dev.Canon.sendSync {b q} (h : s.Canon) : (s.sendSync b q).Canon := h.ptpSend.ptpSend
theorem Dev.Canon.ptpSyncSend (h : s.Canon) : (ptpSyncSend s).Canon := .ite h h.setStl.sendSync.sendSync

theorem Dev.Canon.feedRx (h : s.Canon) : s.feedRx.Canon := by
  unfold Dev.feedRx
  split
  · exact h
  · dsimp only
    split
    · exact h
    · exact h.setStl.hostWrite.complete

theorem Dev.Canon.hostFrameReceived {b bytes sfd} (h : s.Canon) : (hostFrameReceived b bytes sfd s).Canon :=
  .ite h (.ite (.seq h.setStl fun h1 => .ite h1 h1.setBit.event) h.setStl.feedRx)

theorem Dev.Canon.stlTx {d frame} (h : s.Canon) : (stlTx d frame s).Canon := .ite h.fail h.setStl
theorem Dev.Canon.payPort {x b} (h : s.Canon) : (s.payPort x b).Canon := .ite h.setPort h

theorem Dev.Canon.hostFrameStart (h : s.Canon) : (hostFrameStart s).Canon := by
  unfold Machine.hostFrameStart
  split
  · exact .ite h (.complete (.emit (.foldl .payPort h.setStl)))
  · exact h

theorem Dev.Canon.stlRx {d} (h : s.Canon) : (stlRx d s).Canon := .ite h.fail h.setStl.feedRx
theorem Dev.Canon.stlStatus {d} (h : s.Canon) : (stlStatus d s).Canon := .ite h.fail h.complete

theorem Dev.Canon.portEnable {b was is} (h : s.Canon) : (s.portEnable b was is).Canon :=
  .ite h.failPort (.ite h.setPort h)

theorem Dev.Canon.stlCfgWrite {v} (h : s.Canon) : (stlCfgWrite v s).Canon :=
  .seq (.portEnable (.portEnable (.setReg (.ite h.setBit h)))) fun h1 => .ite (.foldl .fail h1.setStl) h1

theorem Dev.Canon.stlAbort {d} (h : s.Canon) : CanonOpt (s.stlAbort d) :=
  .ite (.some h.setStl.fail) (.ite (.some h.setStl.fail) .none)

/-! ## CAN and SPI (11) -/

theorem Dev.Canon.modCan {n f} (h : s.Canon) : (s.modCan n f).Canon := h.update
theorem Dev.Canon.canState {n st} (h : s.Canon) : (s.canState n st).Canon := .ite h h.modCan.event

theorem Dev.Canon.feedCan {k n} (h : s.Canon) : (feedCan k n s).Canon := by
  induction k generalizing s with
  | zero => exact h
  | succ k ih =>
    rw [Machine.feedCan]
    dsimp only
    split
    · split
      · exact ih h.modCan.hostWrite.complete
      · exact h
    · exact h

theorem Dev.Canon.canFeed {n} (h : s.Canon) : (s.canFeed n).Canon := h.feedCan

theorem Dev.Canon.canFrameReceived {n f t rec_} (h : s.Canon) : (canFrameReceived n f t rec_ s).Canon := by
  unfold Machine.canFrameReceived
  refine .ite h ?_
  dsimp only
  split
  · exact h.modCan.canState
  · exact .ite (.seq h.modCan.canState.modCan fun h1 => .ite h1 h1.setBit.event)
      h.modCan.canState.modCan.fixtureFrame.canFeed

theorem Dev.Canon.canStart {n} (h : s.Canon) : (s.canStart n).Canon := by
  unfold Dev.canStart
  refine .ite h ?_
  split
  · exact h.modCan.emit
  · exact h

theorem Dev.Canon.canEndAll {n st} (h : s.Canon) : (s.canEndAll n st).Canon :=
  .foldl (fun h1 => h1.fail.completeOpt) h.modCan

theorem Dev.Canon.canClose {n} (h : s.Canon) : (s.canClose n).Canon := .foldl .fail h.modCan

theorem Dev.Canon.canBusOff {n} (h : s.Canon) : (s.canBusOff n).Canon :=
  .seq h.canState.setBit.chrInc.canEndAll fun h1 => .ite h1.canState h1

theorem Dev.Canon.canTxAttemptEnd {n ok tec rec_} (h : s.Canon) : (canTxAttemptEnd n ok tec rec_ s).Canon := by
  unfold Machine.canTxAttemptEnd
  split
  · exact h
  · exact .seq h.modCan fun h1 => .seq (.ite h1.modCan.hostWrite.complete.completeOpt (.ite
      h1.modCan.complete.completeOpt (.ite h1.modCan.fail (.ite h1.modCan.fail h1.modCan)))) fun h2 => .ite h2.canBusOff
      h2.canState.canStart

theorem Dev.Canon.canBusoffRecovery {n} (h : s.Canon) : (canBusoffRecovery n s).Canon :=
  .ite h.modCan.canState.canStart h

theorem Dev.Canon.canTx {d img} (h : s.Canon) : (canTx d img s).Canon := by
  dsimp only [Machine.canTx]
  split
  · exact h.fail
  · exact .ite h.fail (.ite h.fail h.modCan.canStart)

theorem Dev.Canon.canRx {d} (h : s.Canon) : (canRx d s).Canon := by
  unfold Machine.canRx
  split
  · exact h.fail
  · exact .ite h.fail h.modCan.canFeed

theorem Dev.Canon.canRecover {d} (h : s.Canon) : (canRecover d s).Canon := by
  unfold Machine.canRecover
  split
  · exact h.fail
  · exact .complete (.ite h.canState h)

theorem Dev.Canon.canCfgWrite {n v} (h : s.Canon) : (canCfgWrite n v s).Canon :=
  .ite h (.seq (.setReg (.ite h.setBit h)) fun h1 => .ite h1.canClose (.ite h1.canState h1.canStart))

theorem Dev.Canon.canAbort {d a} (h : s.Canon) : CanonOptPair (s.canAbort d a) := by
  unfold Dev.canAbort
  split
  · exact .none
  · split
    · exact .ite (.ite .none (.some h.modCan)) (.some h.modCan.complete)
    · exact .some h.modCan.complete

theorem Dev.Canon.modSpi {m f} (h : s.Canon) : (s.modSpi m f).Canon := h.update

theorem Dev.Canon.spiCfgWrite {m v} (h : s.Canon) : (spiCfgWrite m v s).Canon :=
  .seq (.ite h.setBit h) fun h1 => .ite (.ite h1.setReg.modSpi h1.setReg.setBit) (.ite h1.setReg.modSpi h1.setReg)

theorem Dev.Canon.spiPeriod {m} (h : s.Canon) : (spiPeriod m s).Canon := by
  unfold Machine.spiPeriod
  refine .ite h ?_
  dsimp only
  split
  · exact h.modSpi.emit.complete
  · exact h.modSpi.emit

theorem Dev.Canon.spiTransactionsComplete {m bytes} (h : s.Canon) : (spiTransactionsComplete m bytes s).Canon := by
  unfold Machine.spiTransactionsComplete
  split
  · exact .ite h h.modSpi
  · exact h

theorem Dev.Canon.spiProg {d img} (h : s.Canon) : (spiProg d img s).Canon := by
  unfold Machine.spiProg
  refine .ite h.fail ?_
  dsimp only
  split
  · exact h.fail
  · exact .ite h.fail (.ite h.setBit.fail (.ite h.fail h.modSpi))

theorem Dev.Canon.spiRead {d} (h : s.Canon) : (spiRead d s).Canon := .ite h.fail h.hostWrite.complete

theorem Dev.Canon.spiAbort {d} (h : s.Canon) : CanonOpt (s.spiAbort d) := by
  unfold Dev.spiAbort
  split
  · exact .some h.modSpi.fail
  · exact .none

end

end Sys2Proof.Machine
end


section
/-! PROOFS. The shared SRAM stays canonical through the supervisor, the field side, the loops, the ledger and the
engines (07, 08, 12 to 14, 16). -/
namespace Sys2Proof.Machine

section
variable {s : Dev}

/-! ## Hawkmoth (08) -/

theorem Dev.Canon.setHwk {f} (h : s.Canon) : (s.setHwk f).Canon := h.update
theorem Dev.Canon.setHwkF {f} (h : s.Canon) : (s.setHwkF f).Canon := h.update

theorem Dev.Canon.hwkEvent {sev code time payload} (h : s.Canon) : (s.hwkEvent sev code time payload).Canon :=
  .ite h.event (.ite h.setHwk h.setHwk)

theorem Dev.Canon.deliverRecords {n} (h : s.Canon) : (deliverRecords n s).Canon := by
  induction n generalizing s with
  | zero => exact h
  | succ n ih =>
    rw [Machine.deliverRecords]
    split
    · exact .ite (ih h.setHwk.event) h
    · exact h

theorem Dev.Canon.hwkRecordDelivery (h : s.Canon) : (hwkRecordDelivery s).Canon := h.deliverRecords

theorem Dev.Canon.hwkCombine {field t} (h : s.Canon) : (s.hwkCombine field t).Canon :=
  .seq h.setHwk fun h1 => .seq (.ite (.foldl (fun h2 => .ite h2.chrInc h2) h1.hwkEvent) h1) fun h3 => .ite h3.hwkEvent
    h3

theorem Dev.Canon.hwkLevels {a b} (h : s.Canon) : (s.hwkLevels a b).Canon := .setHwk (.ite h.setBit h)
theorem Dev.Canon.hwkSample {a b} (h : s.Canon) : (s.hwkSample a b).Canon := h.setHwk.hwkLevels
theorem Dev.Canon.hwkQ1Count {a b} (h : s.Canon) : (hwkQ1Count a b s).Canon := .ite h.hwkSample h
theorem Dev.Canon.hwkSpeedUpdate (h : s.Canon) : (hwkSpeedUpdate s).Canon := .ite h h.setHwk.setHwk
theorem Dev.Canon.hwkSpeedCauseRelease (h : s.Canon) : (hwkSpeedCauseRelease s).Canon := .ite h.setHwk h
theorem Dev.Canon.hwkParkStart (h : s.Canon) : (hwkParkStart s).Canon := .ite h.setHwk h

theorem Dev.Canon.hwkClockCheck {n} (h : s.Canon) : (hwkClockCheck n s).Canon :=
  .ite h (.ite h.setHwk.chrInc.hwkEvent h.setHwk)

theorem Dev.Canon.setAnchor {d a} (h : s.Canon) : (s.setAnchor d a).Canon := h.setHwk

theorem Dev.Canon.lockStep {i} (h : s.Canon) : (s.lockStep i).Canon := by
  unfold Dev.lockStep
  split
  · exact .seq h.setHwk fun h1 => .ite h1.setAnchor h1
  · exact h

theorem Dev.Canon.anchorClear {d} (h : s.Canon) : (s.anchorClear d).Canon := .ite h h.setAnchor
theorem Dev.Canon.logicTake {c} (h : s.Canon) : (s.logicTake c).Canon := h.setHwk.setHwk

theorem Dev.Canon.ucmEvent {ts} (h : s.Canon) : (s.ucmEvent ts).Canon := by
  unfold Dev.ucmEvent
  refine .ite h ?_
  split
  · exact h.chrInc.hwkEvent
  · exact h

theorem Dev.Canon.hwkEvaluation (h : s.Canon) : (hwkEvaluation s).Canon :=
  .ite h (.ite h.logicTake.hwkCombine (.hwkCombine (.logicTake (.ucmEvent (.setHwk (.anchorClear (.anchorClear (.foldl
    .lockStep h))))))))

theorem Dev.Canon.hwkReference {hi} (h : s.Canon) : (s.hwkReference hi).Canon :=
  .hwkEvent (.setHwk (.ite h.setHwk.chrInc.hwkEvent h))

theorem Dev.Canon.hwkZoneEdge {d level} (h : s.Canon) : (s.hwkZoneEdge d level).Canon := by
  dsimp only [Dev.hwkZoneEdge]
  split
  · exact .ite (.ite h.setHwk h) (.setHwk (.ite h.setHwk h))
  · exact .ite h.setHwk h

theorem Dev.Canon.hwkResetKey {te} (h : s.Canon) : (s.hwkResetKey te).Canon := h.setHwk.sendDown.hwkEvent

theorem Dev.Canon.hwkEdge {n level te} (h : s.Canon) : (s.hwkEdge n level te).Canon :=
  .ite h (.seq (.ite h.hwkReference h) fun h1 => .seq (.ite h1.hwkReference h1) fun h2 => .seq (.ite h2.hwkZoneEdge h2)
    fun h3 => .seq (.ite h3.hwkZoneEdge h3) fun h4 => .ite h4.hwkResetKey h4)

theorem Dev.Canon.dropEnables (h : s.Canon) : s.dropEnables.Canon :=
  .seq (.ite h.emit h) fun h1 => .setHwkF (.ite h1.emit h1)

theorem Dev.Canon.linkWithdraws (h : s.Canon) : s.linkWithdraws.Canon := .dropEnables (.ite h.setHwkF h)
theorem Dev.Canon.fieldUnarm (h : s.Canon) : s.fieldUnarm.Canon := h.setHwkF.dropEnables
theorem Dev.Canon.hwkCocoonEvaluation (h : s.Canon) : (hwkCocoonEvaluation s).Canon := .ite h h.setHwkF.dropEnables

theorem Dev.Canon.enableTimebaseEdge (h : s.Canon) : (enableTimebaseEdge s).Canon :=
  .ite h (.seq h.setHwkF fun h1 => .seq (.ite h1.emit h1) fun h2 => .ite h2.emit h2)

theorem Dev.Canon.enableReadback {m d} (h : s.Canon) : (enableReadback m d s).Canon := .ite h h.setHwkF

theorem Dev.Canon.hawkmothOscillatorStop {cocoonHalf} (h : s.Canon) : (hawkmothOscillatorStop cocoonHalf s).Canon :=
  .ite h.setHwkF h.setHwk

theorem Dev.Canon.hwkRuleWrite {off v} (h : s.Canon) : (s.hwkRuleWrite off v).Canon := by
  unfold Dev.hwkRuleWrite
  split
  · exact .ite h h.setReg.setHwk
  · exact h

theorem Dev.Canon.lockDone {reason} (h : s.Canon) : (s.lockDone reason).Canon :=
  .seq h.setHwk fun h1 => .completeOpt (.ite h1.hwkEvent h1.hwkEvent)

theorem Dev.Canon.sendRules (h : s.Canon) : s.sendRules.Canon := .foldl .feedKey h

theorem Dev.Canon.lockRules {d} (h : s.Canon) : (s.lockRules d).Canon :=
  .seq h.setFld.setHwk fun h1 => .ite h1.setHwk.sendRules h1.lockDone

theorem Dev.Canon.hwkLock {v} (h : s.Canon) : (hwkLock v s).Canon := .ite h.lockRules h
theorem Dev.Canon.fieldRules {i a b} (h : s.Canon) : (s.fieldRules i a b).Canon := .ite h h.setHwkF
theorem Dev.Canon.fieldRuleEnd {crc latches} (h : s.Canon) : (s.fieldRuleEnd crc latches).Canon := h.setHwkF.sendUp

theorem Dev.Canon.rulesAnswer {agree} (h : s.Canon) : (s.rulesAnswer agree).Canon :=
  .seq h.setHwk fun h1 => .ite h1.lockDone (.ite h1 h1.setHwk.hwkEvent)

theorem Dev.Canon.hwkRulesLoad {d img} (h : s.Canon) : (hwkRulesLoad d img s).Canon :=
  .ite h.fail (.ite h.fail (.seq (.foldl .hwkRuleWrite h) fun h1 => .ite h1.lockRules h1.complete))

theorem Dev.Canon.hwkStatus {d} (h : s.Canon) : (hwkStatus d s).Canon := .ite h.fail h.complete
theorem Dev.Canon.hwkRulesRead {d} (h : s.Canon) : (hwkRulesRead d s).Canon := .ite h.fail h.hostWrite.complete

/-! ## Current cells (07, 16) -/

theorem Dev.Canon.setField {f} (h : s.Canon) : (s.setField f).Canon := h.update
theorem Dev.Canon.modCell {b f} (h : s.Canon) : (s.modCell b f).Canon := h.setField

theorem Dev.Canon.settle {b} (h : s.Canon) : (s.settle b).Canon := by
  unfold Dev.settle
  split
  · exact h.modCell
  · exact h

theorem Dev.Canon.settleAll (h : s.Canon) : s.settleAll.Canon := .foldl .settle h
theorem Dev.Canon.clearFaults {b} (h : s.Canon) : (s.clearFaults b).Canon := .ite h h.modCell
theorem Dev.Canon.holdCells (h : s.Canon) : s.holdCells.Canon := .foldl (fun h1 => .ite h1 h1.modCell) h

theorem Dev.Canon.overcurrent {b ma} (h : s.Canon) : (s.overcurrent b ma).Canon :=
  .seq h.modCell fun h1 => .ite h1.modCell.sendUp.settleAll h1

theorem Dev.Canon.keepSample {b ma} (h : s.Canon) : (s.keepSample b ma).Canon := .ite h.modCell h

theorem Dev.Canon.currentCellDecision {b own} (h : s.Canon) : (currentCellDecision b own s).Canon := by
  unfold Machine.currentCellDecision
  refine .ite h (.modCell ?_)
  split
  · exact .modCell (.overcurrent (.ite h.modCell.keepSample h.modCell))
  · exact .ite (.modCell (.overcurrent (.ite h.modCell.keepSample h.modCell))) (.modCell (.overcurrent (.ite
      h.modCell.keepSample h.modCell)))

theorem Dev.Canon.blindPhaseTimeout {b} (h : s.Canon) : (blindPhaseTimeout b s).Canon := by
  unfold Machine.blindPhaseTimeout
  split
  · exact .ite h.modCell h
  · exact h

theorem Dev.Canon.supplyFault {cause value high} (h : s.Canon) : (s.supplyFault cause value high).Canon :=
  .sendUp (.foldl (fun h1 => .ite h1.modCell h1) h.holdCells)

theorem Dev.Canon.bootStep {b v} (h : s.Canon) : (s.bootStep b v).Canon :=
  .ite (.ite h.modCell h) (.ite h.modCell.sendUp h.modCell)

theorem Dev.Canon.bridgeSupplyMeasurement {vb vg boot} (h : s.Canon) : (bridgeSupplyMeasurement vb vg boot s).Canon :=
  .ite h (.seq h.setField fun h1 => .seq (.ite h1.supplyFault h1) fun h2 => .settleAll (.foldl (fun h3 => .clearFaults
    (.ite h3.bootStep h3)) (.ite h2.supplyFault h2)))

/-! ## Cocoon (16) -/

theorem Dev.Canon.modFio {n f} (h : s.Canon) : (s.modFio n f).Canon := h.setField
theorem Dev.Canon.edgeUp {n level te} (h : s.Canon) : (s.edgeUp n level te).Canon := h.sendUp

theorem Dev.Canon.debounce {n smp watch} (h : s.Canon) : (s.debounce n smp watch).Canon :=
  .ite h.modFio (.ite h.modFio.edgeUp h.modFio)

theorem Dev.Canon.inputSample {n smp watch} (h : s.Canon) : (s.inputSample n smp watch).Canon :=
  .ite h.modFio (.ite (.seq h.modFio fun h1 => .ite h1.edgeUp h1) (.ite h.debounce h.modFio))

theorem Dev.Canon.latchFault {n kind cause value} (h : s.Canon) : (s.latchFault n kind cause value).Canon :=
  h.modFio.sendUp

theorem Dev.Canon.outputSample {n mv10 smp ilim} (h : s.Canon) : (s.outputSample n mv10 smp ilim).Canon :=
  .seq h.modFio fun h1 => .ite (.ite h1.latchFault (.ite h1 h1.latchFault)) h1

theorem Dev.Canon.fieldInputSample {n mv10 watch ilim} (h : s.Canon) :
    (fieldInputSample n mv10 watch ilim s).Canon := by
  unfold Machine.fieldInputSample
  refine .ite h ?_
  dsimp only
  split
  · exact h.inputSample
  · exact h.outputSample
  · exact h

theorem Dev.Canon.outputThermalShutdown {n ma} (h : s.Canon) : (outputThermalShutdown n ma s).Canon :=
  .ite h.latchFault h

theorem Dev.Canon.setFioGroup {g due} (h : s.Canon) : (s.setFioGroup g due).Canon := h.setField

theorem Dev.Canon.groupOvercurrent {g ma} (h : s.Canon) : (groupOvercurrent g ma s).Canon := by
  unfold Machine.groupOvercurrent
  refine .ite h (.ite h.setFioGroup ?_)
  split
  · exact h.setFioGroup
  · refine .ite h ?_
    dsimp only
    split
    · exact h.setFioGroup.latchFault
    · exact h.setFioGroup

theorem Dev.Canon.turned {n} (h : s.Canon) : (s.turned n).Canon := .foldl .sendUp h.modFio
theorem Dev.Canon.channelTurningEnd {n} (h : s.Canon) : (channelTurningEnd n s).Canon := .ite h.turned.modFio h
theorem Dev.Canon.outputsSafe (h : s.Canon) : s.outputsSafe.Canon := .foldl (fun h1 => .ite h1.modFio h1) h

theorem Dev.Canon.inputsInvalid {sag} (h : s.Canon) : (s.inputsInvalid sag).Canon :=
  .foldl (fun h1 => .ite h1.modFio h1) h

theorem Dev.Canon.cocWatchdog (h : s.Canon) : (cocWatchdog s).Canon := .ite h.setField.outputsSafe.sendUp h

theorem Dev.Canon.sagDeclared {v} (h : s.Canon) : (s.sagDeclared v).Canon :=
  h.setField.outputsSafe.inputsInvalid.holdCells.settleAll.sendUp

theorem Dev.Canon.vfieldMeasurement {v} (h : s.Canon) : (vfieldMeasurement v s).Canon :=
  .ite h (.seq h.setField fun h1 => .seq (.ite h1.sendUp h1) fun h2 => .seq (.ite h2.sagDeclared h2) fun h3 => .seq
    (.ite h3.sendUp h3) fun h4 => .ite h4.setField.sendUp h4)

theorem Dev.Canon.cocoonPowerLoss (h : s.Canon) : (cocoonPowerLoss s).Canon :=
  .seq (.ite h.emit h) fun h1 => .update (.setHwkF (.setField (.ite h1.emit h1)))

theorem Dev.Canon.cocoonStart (h : s.Canon) : (cocoonStart s).Canon := .ite h h.setField

theorem Dev.Canon.cocCalib {item object} (h : s.Canon) : (cocCalib item object s).Canon :=
  .ite h (.seq h.setField fun h1 => .ite h1 h1.sendUp)

theorem Dev.Canon.modTap {i f} (h : s.Canon) : (s.modTap i f).Canon := h.setField

theorem Dev.Canon.tapReport {i e late} (h : s.Canon) : (s.tapReport i e late).Canon :=
  .seq h.modTap fun h1 => .ite h1.sendUp h1

theorem Dev.Canon.tapSample {i ua} (h : s.Canon) : (tapSample i ua s).Canon := .ite h (.modTap (.ite h.tapReport h))
theorem Dev.Canon.tapDcWindowEnd {i} (h : s.Canon) : (tapDcWindowEnd i s).Canon := .ite h.tapReport h
theorem Dev.Canon.tapAcTimeout {i} (h : s.Canon) : (tapAcTimeout i s).Canon := .ite h.tapReport h
theorem Dev.Canon.fillQueue (h : s.Canon) : s.fillQueue.Canon := .ite h (.setCoc (.foldl .setCoc h))
theorem Dev.Canon.buildDown (h : s.Canon) : s.buildDown.Canon := h.fillQueue.setCoc.setCoc.setCoc.emit
theorem Dev.Canon.buildUp (h : s.Canon) : s.buildUp.Canon := .ite h.setCoc h.setField.setCoc.emit

theorem Dev.Canon.linkSlotStart {own temp} (h : s.Canon) : (linkSlotStart own temp s).Canon :=
  .seq (.foldl .keepSample (.foldl .modCell h)) fun h1 => .buildUp (.buildDown (.ite h1.setField h1))

theorem Dev.Canon.applyConfig {n cfg r} (h : s.Canon) : (s.applyConfig n cfg r).Canon := by
  dsimp only [Dev.applyConfig]
  split
  · exact .ite h.modFio.sendUp h.turned.modFio.sendUp
  · exact .ite h.modFio.sendUp (.ite h.modFio (.ite h.modFio h.modFio.sendUp))
  · exact h.turned.modFio.sendUp

theorem Dev.Canon.applyOut {o levels} (h : s.Canon) : (s.applyOut o levels).Canon :=
  .seq h.setField fun h1 => .ite h1.sendUp (.ite h1.sendUp (.sendUp (.foldl_fst (fun h2 => .ite_fst h2 (.ite_fst h2
    h2.modFio)) h1)))

theorem Dev.Canon.applyOuts {f} (h : s.Canon) : (s.applyOuts f).Canon := .foldl (fun h1 => .ite h1.applyOut h1) h
theorem Dev.Canon.applyClear {mask r} (h : s.Canon) : (s.applyClear mask r).Canon := .sendUp (.foldl .modFio h)

theorem Dev.Canon.applyRelease {sag wdt r} (h : s.Canon) : (s.applyRelease sag wdt r).Canon :=
  .ite h.sendUp (.seq h.setField fun h1 => .sendUp (.ite h1.sendUp.settleAll h1))

theorem Dev.Canon.applyDown {r a} (h : s.Canon) : (s.applyDown r a).Canon := by
  unfold Dev.applyDown
  split
  · exact h.applyConfig
  · exact h.sendUp
  · exact h.applyClear
  · exact h.applyRelease
  · exact h.fieldRules
  · exact h.fieldRuleEnd
  · exact h.setField
  · exact h.setField
  · exact h.setHwkF

theorem Dev.Canon.downFields {f} (h : s.Canon) : (s.downFields f).Canon :=
  .linkWithdraws (.settleAll (.foldl (fun h1 => h1.modCell.clearFaults) h.setField.setHwkF))

theorem Dev.Canon.cocoonDownstreamFrameAccepted (h : s.Canon) : (cocoonDownstreamFrameAccepted s).Canon := by
  unfold Machine.cocoonDownstreamFrameAccepted
  split
  · exact .seq h.setCoc fun h1 => .ite h1 (.foldl (fun h2 => .ite h2.setField.applyDown.applyOuts h2)
      h1.downFields.applyOuts)
  · exact h

theorem Dev.Canon.edgeArrives {n level te acc} (h : s.Canon) : (s.edgeArrives n level te acc).Canon :=
  .hwkEdge (.foldl (fun h1 => .ite h1.update h1) (.ite h.event h))

theorem Dev.Canon.cocDecide {d t void st res} (h : s.Canon) : (s.cocDecide d t void st res).Canon := by
  unfold Dev.cocDecide
  split
  · exact h.complete
  · exact .seq h.setCoc fun h1 => .ite h1.complete.complete h1.complete.complete

theorem Dev.Canon.cocAck {rseq res data t} (h : s.Canon) : (s.cocAck rseq res data t).Canon := by
  unfold Dev.cocAck
  split
  · exact h
  · dsimp only
    split
    · exact .cocDecide (.ite (.setCoc (.ite h.setCoc.feedKey h.setCoc)) h.setCoc)
    · exact h.setCoc.cocDecide
    · exact .ite h.setCoc.cocDecide h.setCoc.cocDecide

theorem Dev.Canon.cocOutAck {no res held t} (h : s.Canon) : (s.cocOutAck no res held t).Canon := by
  unfold Dev.cocOutAck
  split
  · exact h
  · exact .seq h.setCoc fun h1 => .ite h1.cocDecide h1.cocDecide

theorem Dev.Canon.faultAxes {cause} (h : s.Canon) : (s.faultAxes cause).Canon := .foldl .faultAxis h

theorem Dev.Canon.applyUp {f a} (h : s.Canon) : (s.applyUp f a).Canon := by
  unfold Dev.applyUp
  split
  · exact h.edgeArrives
  · exact h.chrInc.event
  · exact h.event
  · exact h.event
  · exact .event (.ite h.chrInc.faultAxes (.ite h.chrInc h))
  · exact h.event
  · exact h.setCoc.chrInc.event
  · exact h.rulesAnswer
  · exact h.cocAck
  · exact h.cocOutAck

theorem Dev.Canon.resendConfigs (h : s.Canon) : s.resendConfigs.Canon := h.setCoc

theorem Dev.Canon.resendWaits (h : s.Canon) : s.resendWaits.Canon :=
  .setCoc (.foldl .cocCommand (.foldl (fun h1 => h1.complete.complete) h.setCoc))

theorem Dev.Canon.linkCameUp {f} (h : s.Canon) : (s.linkCameUp f).Canon :=
  .seq h.event.setCoc.resendConfigs fun h1 => .ite h1.sendRules h1

theorem Dev.Canon.upHawk {f} (h : s.Canon) : (s.upHawk f).Canon := by
  unfold Dev.upHawk
  refine .ite h.setHwk.hwkCombine.setHwk ?_
  dsimp only
  split
  · exact h.setHwk.hwkCombine.setHwk.setHwk.hwkEvent
  · exact h.setHwk.hwkCombine.setHwk

theorem Dev.Canon.upFields {f} (h : s.Canon) : (s.upFields f).Canon :=
  .seq h.setCoc fun h1 => .seq (.ite h1 h1.setHwk) fun h2 => .upHawk (.ite h2.bootStage h2)

theorem Dev.Canon.cocoonUpstreamFrameAccepted (h : s.Canon) : (cocoonUpstreamFrameAccepted s).Canon := by
  unfold Machine.cocoonUpstreamFrameAccepted
  split
  · exact .ite h.setCoc (.seq (.foldl (fun h1 => .ite h1.setCoc.applyUp h1) h.upFields) fun h2 => .seq (.ite h2
      h2.setBit.resendWaits) fun h3 => .ite h3.linkCameUp h3)
  · exact h

theorem Dev.Canon.fieldLinkDown (h : s.Canon) : s.fieldLinkDown.Canon :=
  .inputsInvalid (.settleAll (.foldl .modCell h.setHwkF.linkWithdraws))

theorem Dev.Canon.fieldMiss (h : s.Canon) : s.fieldMiss.Canon :=
  .seq h.setCoc.setField.setHwkF.linkWithdraws fun h1 => .ite h1.fieldLinkDown h1

theorem Dev.Canon.logicMiss (h : s.Canon) : s.logicMiss.Canon :=
  .seq h.setCoc fun h1 => .ite h1.setCoc.faultAxes.chrInc.event h1

theorem Dev.Canon.linkSlotMissed {cocoon} (h : s.Canon) : (linkSlotMissed cocoon s).Canon :=
  .ite h.logicMiss (.ite h.fieldMiss h)

theorem Dev.Canon.linkTrainingStart (h : s.Canon) : (linkTrainingStart s).Canon := .ite h.setCoc h

theorem Dev.Canon.fieldStart (h : s.Canon) : s.fieldStart.Canon :=
  .seq h.setField.setHwkF fun h1 => .ite h1.sagDeclared h1

theorem Dev.Canon.syncLink (h : s.Canon) : s.syncLink.Canon := h.setField.setCoc.resendWaits

theorem Dev.Canon.linkTrainingComplete (h : s.Canon) : (linkTrainingComplete s).Canon :=
  .ite (.seq (.ite h.fieldStart h) fun h1 => .setCoc (.setField (.bootStage (.setCoc (.ite h1.syncLink h1))))) h

theorem Dev.Canon.cocChConfig {d} (h : s.Canon) : (cocChConfig d s).Canon :=
  .ite h.fail (.ite h.fail (.ite h.fail h.cocCommand))

theorem Dev.Canon.cocOutSet {d} (h : s.Canon) : (cocOutSet d s).Canon :=
  .ite h.fail (.ite h.fail (.ite h.fail h.setCoc))

theorem Dev.Canon.cocClear {d} (h : s.Canon) : (cocClear d s).Canon := .ite h.fail (.ite h.fail h.cocCommand)
theorem Dev.Canon.cocRelease {d} (h : s.Canon) : (cocRelease d s).Canon := .ite h.fail (.ite h.fail h.cocCommand)

theorem Dev.Canon.cocRead {d} (h : s.Canon) : (cocRead d s).Canon := by
  unfold Machine.cocRead
  refine .ite h.fail ?_
  split <;> exact h.complete

/-! ## Kernels (13) -/

theorem Dev.Canon.setKrn {f} (h : s.Canon) : (s.setKrn f).Canon := h.update

theorem Dev.Canon.krnRefuse {d st tag reason word_} (h : s.Canon) : (s.krnRefuse d st tag reason word_).Canon :=
  h.setKrn.event.complete

theorem Dev.Canon.krnLoad {d img} (h : s.Canon) : (krnLoad d img s).Canon := by
  unfold Machine.krnLoad
  refine .ite h.fail ?_
  split
  · exact h.krnRefuse
  · split
    · exact h.krnRefuse
    · exact h.setKrn.event.complete

theorem Dev.Canon.krnUnload {d} (h : s.Canon) : (krnUnload d s).Canon := .ite h.fail (.ite h.fail h.setKrn.complete)

theorem Dev.Canon.krnRead {d} (h : s.Canon) : (krnRead d s).Canon := by
  unfold Machine.krnRead
  refine .ite h.fail ?_
  split
  · exact h.complete
  · exact h.fail

/-! ## The loop engine (07) -/

theorem Dev.Canon.tableBad (h : s.Canon) : s.tableBad.Canon := h.setBit

theorem Dev.Canon.tableForce {l p i} (h : s.Canon) : (s.tableForce l p i).2.Canon := by
  unfold Dev.tableForce
  refine .ite_snd ?_ (.ite_snd ?_ h)
  · split
    · refine .ite_snd ?_ h
      split
      · exact h
      · exact h.tableBad
    · refine .tableBad (.ite_snd ?_ h)
      split
      · exact h
      · exact h.tableBad
  · split
    · exact h
    · exact h.tableBad

theorem Dev.Canon.clampEntry {l x hi lo slew own u} (h : s.Canon) : (s.clampEntry l x hi lo slew own u).Canon :=
  .ite (.setBit (.setBit (.ite h h.event))) h

theorem Dev.Canon.handsDone {due made hold own step} (h : s.Canon) : (s.handsDone due made hold own step).Canon :=
  .foldl .completeOpt h.update

theorem Dev.Canon.evalLoop {l slot rel} (h : s.Canon) : (s.evalLoop l slot rel).Canon :=
  .seq h.tableForce fun h1 => .seq (.clampEntry (.ite h1.setBit.setBit.event h1)) fun h2 => .handsDone (.setLoop (.ite
    h2.event h2))

theorem Dev.Canon.applyCommit {c} (h : s.Canon) : (s.applyCommit c).Canon :=
  .complete (.foldl (fun h1 => .seq (.foldl .setBank h1) fun h2 => .ite h2.update h2) h)

theorem Dev.Canon.applyCommits (h : s.Canon) : s.applyCommits.Canon := .foldl .applyCommit h.update

theorem Dev.Canon.applySwaps (h : s.Canon) : s.applySwaps.Canon := by
  unfold Dev.applySwaps
  refine .foldl (fun h1 => ?_) h
  split
  · exact .ite (.complete (.event h1.update)) h1
  · exact h1

theorem Dev.Canon.frameStarts (h : s.Canon) : s.frameStarts.Canon := .foldl .setBridge (.foldl .ssiStart h)

theorem Dev.Canon.framePhaseZero (h : s.Canon) : (framePhaseZero s).Canon := by
  unfold Machine.framePhaseZero
  exact .seq h.update fun h1 => .seq (.applySwaps (.applyCommits (.frameStarts (.phaseLatch (.ite h1.closeCpf.setCpf
    h1))))) fun h2 => .ite h2 (.foldl .evalLoop h2)

theorem Dev.Canon.lpeParamWrite {d img} (h : s.Canon) : (lpeParamWrite d img s).Canon :=
  .ite h.fail (.ite h.fail h.setBank.complete)

theorem Dev.Canon.lpeCommit {d} (h : s.Canon) : (lpeCommit d s).Canon := .ite h.fail h.update
theorem Dev.Canon.lpeHandover {d} (h : s.Canon) : (lpeHandover d s).Canon := .ite h.fail (.ite h.fail h.handAt)
theorem Dev.Canon.lpeRead {d} (h : s.Canon) : (lpeRead d s).Canon := .ite h.fail h.complete

theorem Dev.Canon.lpeTableLoad {d img} (h : s.Canon) : (lpeTableLoad d img s).Canon := by
  unfold Machine.lpeTableLoad
  refine .ite h.fail (.ite h.fail ?_)
  split
  · exact h.event.fail
  · exact h.update

theorem Dev.Canon.lpeAbort {d} (h : s.Canon) : CanonOpt (s.lpeAbort d) := by
  unfold Dev.lpeAbort
  refine .ite (.some (.fail h.update)) (.ite (.some (.fail h.update)) ?_)
  split
  · exact .some (.fail h.update)
  · exact .none

/-! ## The timing ledger (14) -/

theorem Dev.Canon.setEngine {e x} (h : s.Canon) : (s.setEngine e x).Canon := h.update
theorem Dev.Canon.setArea {e base l} (h : s.Canon) : (s.setArea e base l).Canon := h.setEngine
theorem Dev.Canon.tlgRefuse {d m} (h : s.Canon) : (s.tlgRefuse d m).Canon := .completeOpt (.chrInc (.event h.update))
theorem Dev.Canon.setTlg {f} (h : s.Canon) : (s.setTlg f).Canon := h.update

theorem Dev.Canon.updEnd {st commit res} (h : s.Canon) : (s.updEnd st commit res).Canon := by
  unfold Dev.updEnd
  split
  · exact .completeOpt h.update
  · exact h

theorem Dev.Canon.tlgPend {t d p second} (h : s.Canon) : (s.tlgPend t d p second).Canon := .ite h.drawn.setTlg h.setTlg

theorem Dev.Canon.tlgJudge {t d} (h : s.Canon) : (s.tlgJudge t d).Canon := by
  unfold Dev.tlgJudge
  split
  · exact h.completeOpt
  · exact h.completeOpt
  · exact h.completeOpt
  · exact h.completeOpt
  · exact h.tlgRefuse.updEnd
  · exact .ite h h.tlgPend
  · exact h.tlgPend
  · exact h.tlgRefuse
  · exact h

theorem Dev.Canon.ledgerAnalysisComplete (h : s.Canon) : (ledgerAnalysisComplete s).Canon := by
  unfold Machine.ledgerAnalysisComplete
  split
  · exact .ite h h.setTlg.tlgJudge
  · exact .ite h.setTlg.tlgJudge h

theorem Dev.Canon.initArea {d b} (h : s.Canon) : (s.initArea d b).Canon := by
  unfold Dev.initArea
  split
  · exact .ite h.setArea h
  · exact h

theorem Dev.Canon.commitGroups {p} (h : s.Canon) : (s.commitGroups p).Canon := by
  unfold Dev.commitGroups
  refine .foldl (fun h1 => ?_) h.update
  split
  · exact .ite h1.freshLoops h1
  · exact h1

theorem Dev.Canon.lostEvents {p} (h : s.Canon) : (s.lostEvents p).Canon := .foldl .event h

theorem Dev.Canon.settleCopy {d b} (h : s.Canon) : (s.settleCopy d b).Canon := by
  unfold Dev.settleCopy
  split
  · split
    · refine .ite h ?_
      dsimp only
      split
      · exact h.setArea.setTlg
      · exact h.setArea
    · exact h
  · exact h

theorem Dev.Canon.settleMoves (h : s.Canon) : s.settleMoves.Canon := .foldl (fun h1 => h1.settleCopy.settleCopy) h

theorem Dev.Canon.applyPlan {p} (h : s.Canon) : (s.applyPlan p).Canon := by
  unfold Dev.applyPlan
  refine .lostEvents (.foldl .event (.event (.commitGroups (.settleMoves (.foldl (fun h1 => ?_) h.setTlg)))))
  split
  · exact h1.initArea
  · exact h1

theorem Dev.Canon.clusterOff {c n} (h : s.Canon) : (s.clusterOff c n).Canon := .event (.update (.foldl .setEngine h))

theorem Dev.Canon.clusterFall (h : s.Canon) : s.clusterFall.Canon := by
  unfold Dev.clusterFall
  split
  · exact .ite (.completeOpt (.clusterOff h.update)) h
  · exact h

theorem Dev.Canon.retryRollback (h : s.Canon) : s.retryRollback.Canon := by
  unfold Dev.retryRollback
  refine .ite h ?_
  split
  · exact .setTlg h.update
  · exact h

theorem Dev.Canon.commitDone {c} (h : s.Canon) : (s.commitDone c).Canon := by
  unfold Dev.commitDone
  split
  · exact h.completeOpt
  · exact h.completeOpt
  · exact .clusterFall h.update
  · exact .clusterFall (.update h.update)
  · exact h

theorem Dev.Canon.tlgCommit (h : s.Canon) : (tlgCommit s).Canon := by
  unfold Machine.tlgCommit
  split
  · exact h
  · refine .ite ?_ h
    dsimp only
    split
    · exact h.applyPlan.setTlg
    · exact h.applyPlan.setTlg.commitDone.retryRollback

theorem Dev.Canon.admitFirmware (h : s.Canon) : s.admitFirmware.Canon := h.setTlg
theorem Dev.Canon.tlgAsk {t d} (h : s.Canon) : (s.tlgAsk t d).Canon := h.setTlg
theorem Dev.Canon.tlgConfig {d img} (h : s.Canon) : (tlgConfig d img s).Canon := .ite h.fail (.ite h.fail h.tlgAsk)
theorem Dev.Canon.tlgCheck {d img} (h : s.Canon) : (tlgCheck d img s).Canon := .ite h.fail h.tlgAsk

theorem Dev.Canon.tlgRead {d} (h : s.Canon) : (tlgRead d s).Canon := by
  unfold Machine.tlgRead
  split
  · exact h.fail
  · exact .ite h.fail h.hostWrite.complete

theorem Dev.Canon.tlgMigrate {d} (h : s.Canon) : (tlgMigrate d s).Canon := .ite h.fail (.ite h.fail h.tlgAsk)
theorem Dev.Canon.tlgList {d} (h : s.Canon) : (tlgList d s).Canon := .ite h.fail h.hostWrite.complete

theorem Dev.Canon.tlgAbort {d} (h : s.Canon) : CanonOpt (s.tlgAbort d) := by
  unfold Dev.tlgAbort
  refine .ite (.some h.setTlg.fail) ?_
  split
  · exact .ite (.some h.setTlg.fail) .none
  · exact .ite (.some (.fail h.update)) .none
  · exact .none

theorem Dev.Canon.portLinkChange {b up full speed} (h : s.Canon) : (portLinkChange b up full speed s).Canon :=
  .seq h.portStatus fun h1 => .ite h1 (.ite (.ite h1 h1.setTlg.event) h1.setTlg)

/-! ## Engines and duties (12) -/

theorem Dev.Canon.schedule {e} (h : s.Canon) : (s.schedule e).Canon := h.setEngine
theorem Dev.Canon.endJob {e l} (h : s.Canon) : (s.endJob e l).Canon := h.setEngine.schedule.settleMoves.clusterFall
theorem Dev.Canon.trialFault {e cause} (h : s.Canon) : (s.trialFault e cause).Canon := .ite h.update h

theorem Dev.Canon.countUncorr {cause} (h : s.Canon) : (s.countUncorr cause).Canon :=
  .ite h.chrInc.drawn (.ite h.chrInc.drawn h)

theorem Dev.Canon.engFail {e cause addr} (h : s.Canon) : (s.engFail e cause addr).Canon :=
  .seq (.countUncorr (.chrInc (.event h.setEngine.update))) fun h1 => .clusterFall (.settleMoves (.setTlg (.ite
    h1.trialFault.retryRollback h1)))

theorem Dev.Canon.engFault {e cause addr} (h : s.Canon) : (engFault e cause addr s).Canon :=
  .ite h (.ite (.foldl (fun h1 => .ite h1.engFail h1) h) (.ite h.engFail h))

theorem Dev.Canon.setPeriod {id p} (h : s.Canon) : (s.setPeriod id p).Canon := h.update

theorem Dev.Canon.closePeriod {id} (h : s.Canon) : (s.closePeriod id).Canon := by
  unfold Dev.closePeriod
  split
  · exact h
  · dsimp only
    split
    · refine .chrInc (.event ?_)
      split
      · exact h.setArea
      · exact h
    · split
      · exact h.setArea
      · exact h

theorem Dev.Canon.releaseCopy {d k input b} (h : s.Canon) : (s.releaseCopy d k input b).Canon := by
  unfold Dev.releaseCopy
  split
  · exact h
  · refine .ite h (.schedule (.setEngine (.setArea ?_)))
    split
    · exact h.setArea
    · exact h

theorem Dev.Canon.dutyRelease {id} (h : s.Canon) : (dutyRelease id s).Canon := by
  unfold Machine.dutyRelease
  split
  · exact h
  · split
    · exact h
    · exact .ite h.closePeriod.setPeriod.releaseCopy.releaseCopy.setTlg h

theorem Dev.Canon.jobEnds {e j l} (h : s.Canon) : (s.jobEnds e j l).Canon := .endJob h.setArea.update

theorem Dev.Canon.volerWork {e j l i} (h : s.Canon) : (s.volerWork e j l i).Canon := by
  dsimp only [Dev.volerWork]
  split
  · exact h.engFail
  · exact h.setEngine

theorem Dev.Canon.volerStep {e i} (h : s.Canon) : (volerStep e i s).Canon := by
  unfold Machine.volerStep
  split
  · exact .ite (.ite h.jobEnds h.volerWork) h
  · exact h

theorem Dev.Canon.forward {c} (h : s.Canon) : (s.forward c).Canon := by
  unfold Dev.forward
  refine .emit (.foldl (fun h1 => ?_) h.setSramBytes)
  split
  · exact h1.update
  · exact h1

theorem Dev.Canon.takeCopy {c} (h : s.Canon) : (s.takeCopy c).Canon := by
  dsimp only [Dev.takeCopy]
  split
  · exact h
  · split
    · exact h.setPeriod.forward
    · exact .ite h (.setPeriod h.update)

theorem Dev.Canon.arbiterCopyCommit (h : s.Canon) : (arbiterCopyCommit s).Canon := by
  unfold Machine.arbiterCopyCommit
  split
  · exact h
  · exact .seq h.update fun h1 => .ite h1.takeCopy h1

theorem Dev.Canon.dutyDeadline {id} (h : s.Canon) : (dutyDeadline id s).Canon := by
  unfold Machine.dutyDeadline
  split
  · exact h
  · exact .ite h (.seq h.setPeriod fun h1 => .ite h1 (.chrInc (.event h1.update)))

theorem Dev.Canon.retire {e} (h : s.Canon) : (s.retire e).Canon := h.setEngine.event.setTlg.settleMoves.clusterFall
theorem Dev.Canon.keepRerun {l r} (h : s.Canon) : (s.keepRerun l r).Canon := h.setEngine

theorem Dev.Canon.takePlace {c r} (h : s.Canon) : (s.takePlace c r).Canon := by
  dsimp only [Dev.takePlace]
  split
  · exact h
  · split
    · exact .ite h.setTlg h
    · exact h

theorem Dev.Canon.suspect {c r place} (h : s.Canon) : (s.suspect c r place).Canon :=
  .seq h.trialFault.retryRollback.setArea fun h1 => .ite (.seq h1.retire fun h2 => .ite h2.takePlace h2) h1

theorem Dev.Canon.reexecutionComplete {id out state} (h : s.Canon) : (reexecutionComplete id out state s).Canon := by
  unfold Machine.reexecutionComplete
  split
  · split
    · split
      · exact h
      · exact .seq (.chrInc (.event h.keepRerun.setPeriod.update)) fun h1 => .seq (.ite h1 h1.suspect) fun h2 => .ite h2
          h2.suspect
    · exact h
  · exact h

theorem Dev.Canon.tlgOverrun {e l} (h : s.Canon) : (tlgOverrun e l s).Canon := by
  dsimp only [Machine.tlgOverrun]
  split
  · exact h
  · refine .ite h (.endJob ?_)
    split
    · refine .ite (.setPeriod (.chrInc (.event (.setTlg ?_)))) (.chrInc (.event (.setTlg ?_)))
      · split
        · exact h.setTlg
        · exact h
      · split
        · exact h.setTlg
        · exact h
    · refine .chrInc (.event (.setTlg ?_))
      split
      · exact h.setTlg
      · exact h

theorem Dev.Canon.engStatus {d} (h : s.Canon) : (engStatus d s).Canon := .ite h.fail h.complete

theorem Dev.Canon.engClusterDown {d} (h : s.Canon) : (engClusterDown d s).Canon :=
  .ite h.fail (.ite h.fail (.ite h.complete (.ite h.fail (.ite h.fail h.tlgAsk))))

theorem Dev.Canon.engClusterUp {d} (h : s.Canon) : (engClusterUp d s).Canon :=
  .ite h.fail (.ite h.fail (.ite h.fail (.ite h.complete h.update)))

theorem Dev.Canon.clusterOn {c} (h : s.Canon) : (s.clusterOn c).Canon := .update (.foldl .setEngine h)

theorem Dev.Canon.clusterUpComplete {c} (h : s.Canon) : (clusterUpComplete c s).Canon := by
  unfold Machine.clusterUpComplete
  split
  · exact h
  · exact .completeOpt (.setTlg (.event (.clusterOn h.update)))

theorem Dev.Canon.engRestart {d test} (h : s.Canon) : (engRestart d test s).Canon :=
  .ite h.fail (.ite h.fail (.ite h.fail (.ite h.fail (.ite h.setEngine.setTlg.complete h.setEngine.complete))))

theorem Dev.Canon.engAbort {d} (h : s.Canon) : CanonOpt (s.engAbort d) := by
  unfold Dev.engAbort
  split
  · exact .some (.fail h.update)
  · exact .none

end

end Sys2Proof.Machine
end


section
/-! PROOFS. The shared SRAM stays canonical through the host interface, the record, power, update and the registers, so
through every step (12 Table 12-1, 15 to 19). -/
namespace Sys2Proof.Machine

section
variable {s : Dev}

/-! ## The host interface (15) -/

theorem Dev.Canon.dispatch {d} (h : s.Canon) : (s.dispatch d).Canon := by
  dsimp only [Dev.dispatch]
  split
  · exact h.setQp.charge.setHiu.setHiu.writeCompletion
  · split
    · exact h.setQp.charge.setHiu.writeCompletion
    · exact h.setQp.charge.setHiu.setQp.setHiu

theorem Dev.Canon.descriptorDispatch {heads} (h : s.Canon) : (descriptorDispatch heads s).Canon := by
  unfold Machine.descriptorDispatch
  refine .ite ?_ h
  split
  · exact h.dispatch
  · exact h

theorem Dev.Canon.startDrain {q tx queued desc} (h : s.Canon) : (s.startDrain q tx queued desc).Canon :=
  h.setQp.flushRest

theorem Dev.Canon.qpDrainComplete {q} (h : s.Canon) : (qpDrainComplete q s).Canon := by
  dsimp only [Machine.qpDrainComplete]
  split
  · exact h
  · exact .ite h.setQp.completeOpt h

theorem Dev.Canon.whenDoorbell {q f} (hf : ∀ {t : Dev}, t.Canon → (f t).Canon) (h : s.Canon) :
    (whenDoorbell q f s).Canon :=
  .ite (h.whenOn hf) (h.whenBar hf)

theorem Dev.Canon.doorbellIgnored (h : s.Canon) : s.doorbellIgnored.Canon := h.setBit
theorem Dev.Canon.sqTail {q v} (h : s.Canon) : (sqTail q v s).Canon := .ite h.doorbellIgnored h.setQp
theorem Dev.Canon.cqHead {q v} (h : s.Canon) : (cqHead q v s).Canon := .ite h.doorbellIgnored h.setQp.flushRest
theorem Dev.Canon.eqHead {q v} (h : s.Canon) : (eqHead q v s).Canon := .ite h.doorbellIgnored h.setQp

theorem Dev.Canon.writeVector {v i w} (h : s.Canon) : (s.writeVector v i w).Canon :=
  .seq h.setVec fun h1 => .ite h1.msixSend h1

theorem Dev.Canon.writeBar2 {off v} (h : s.Canon) : (s.writeBar2 off v).Canon := by
  unfold Dev.writeBar2
  refine .ite ?_ (.ite h.writeVector h)
  split
  · exact h.sqTail
  · exact h.cqHead
  · exact h.eqHead
  · exact h

theorem Dev.Canon.bar2Write {off size v} (h : s.Canon) : (bar2Write off size v s).Canon :=
  .ite h.writeBar2 (.ite h.writeBar2.writeBar2 h)

theorem Dev.Canon.msixModerationTimeout {v} (h : s.Canon) : (msixModerationTimeout v s).Canon := by
  dsimp only [Machine.msixModerationTimeout]
  split
  · exact .ite h.msixSend h
  · exact h

theorem Dev.Canon.msixUnmask {v addr data} (h : s.Canon) : (msixUnmask v addr data s).Canon :=
  .seq h.setVec fun h1 => .ite h1.msixSend h1

theorem Dev.Canon.hiuCreditRelease {q} (h : s.Canon) : (hiuCreditRelease q s).Canon := by
  unfold Machine.hiuCreditRelease
  split
  · exact h
  · exact .setHiu (.ite h.setHiu.event h)

theorem Dev.Canon.configIgnored (h : s.Canon) : s.configIgnored.Canon := h.setBit

theorem Dev.Canon.hiuAqCtrlWrite {v queued} (h : s.Canon) : (hiuAqCtrlWrite v queued s).Canon :=
  .ite (.seq (.ite h.configIgnored h) fun h1 => .ite h1 (.ite h1.configIgnored h1.setReg.startDrain)) (.seq h.setReg fun
    h2 => .ite (.ite h2.setReg.setQp h2.configIgnored) h2)

theorem Dev.Canon.hiuAqFieldWrite {off rw v} (h : s.Canon) : (hiuAqFieldWrite off rw v s).Canon :=
  .ite (.ite h h.configIgnored) h.setReg

theorem Dev.Canon.hostSideReset (h : s.Canon) : (hostSideReset s).Canon := .foldl .setReg h.setHiu

theorem Dev.Canon.hiuLink {up width rate} (h : s.Canon) : (hiuLink up width rate s).Canon :=
  .seq h.setHiu fun h1 => .seq (.ite (.emit h1.update) h1) fun h2 => .ite h2.event.setHiu (.ite h2.hostSideReset h2)

theorem Dev.Canon.pcieDStateChange {d3hot} (h : s.Canon) : (pcieDStateChange d3hot s).Canon :=
  .seq h.setHiu fun h1 => .ite h1 h1.update

theorem Dev.Canon.hiuHello {d} (h : s.Canon) : (hiuHello d s).Canon :=
  .ite h.fail (.complete (.event (.ite h.setHiu h)))

theorem Dev.Canon.hiuQpConfig {d} (h : s.Canon) : (hiuQpConfig d s).Canon := by
  dsimp only [Machine.hiuQpConfig]
  split
  · exact h.fail
  · exact .ite h.fail h.setQp.complete

theorem Dev.Canon.hiuQpEnable {d} (h : s.Canon) : (hiuQpEnable d s).Canon := by
  unfold Machine.hiuQpEnable
  split
  · exact h.fail
  · exact .ite h.fail (.ite h.fail h.setQp.complete)

theorem Dev.Canon.hiuQpDisable {d queued} (h : s.Canon) : (hiuQpDisable d queued s).Canon := by
  unfold Machine.hiuQpDisable
  split
  · exact h.fail
  · exact .ite h.fail (.ite h.complete h.startDrain)

theorem Dev.Canon.hiuQpStatus {d} (h : s.Canon) : (hiuQpStatus d s).Canon := by
  unfold Machine.hiuQpStatus
  split
  · exact h.fail
  · exact h.complete

theorem CanonOpt.firstAbort {l : List (Option Dev)} (hl : ∀ o ∈ l, CanonOpt o) : CanonOpt (firstAbort l) := by
  intro t found
  obtain ⟨o, first, rfl⟩ := Option.bind_eq_some_iff.mp found
  exact hl _ (List.mem_of_find?_eq_some first) t rfl

theorem Dev.Canon.updAbort {d} (h : s.Canon) : CanonOpt (s.updAbort d) := by
  unfold Dev.updAbort
  split
  · exact .ite (.some (.fail (.update (.ite h.setTlg.update h.setTlg)))) .none
  · exact .none

theorem Dev.Canon.waitAbort {d} (h : s.Canon) : CanonOpt (s.waitAbort d) := by
  unfold Dev.waitAbort
  refine .ite (.some h.setHoist.complete) (.ite (.some h.setCpf.fail) ?_)
  split
  · exact .ite (.some h.endEnable.disableAtRest) (.some h.modAxis.disableGone.complete)
  · split
    · exact .some h.setCamSlot.complete
    · split
      · exact .ite (.some (.fail h.update)) .none
      · exact .none

theorem Dev.Canon.cocAbort {d a} (h : s.Canon) : CanonOptPair (s.cocAbort d a) := by
  dsimp only [Dev.cocAbort]
  split
  · exact .ite (.some h.setCoc.setCoc.fail) (.some h.setCoc.setCoc.setCoc)
  · exact .ite (.some h.setCoc.setCoc.setCoc) (.some h.setCoc.fail)
  · exact .none

theorem Dev.Canon.abortTarget {t a} (h : s.Canon) : CanonOptPair (s.abortTarget t a) := by
  have simple : CanonOpt (firstAbort [s.cpfAbort t, s.hoistAbort t, s.drvAbort t, s.doorAbort t, s.lpeAbort t,
    s.stlAbort t,
      s.spiAbort t, s.tlgAbort t, s.engAbort t, s.updAbort t, s.waitAbort t]) := by
    apply CanonOpt.firstAbort
    simp only [List.forall_mem_cons]
    exact ⟨h.cpfAbort, h.hoistAbort, h.drvAbort, h.doorAbort, h.lpeAbort, h.stlAbort, h.spiAbort, h.tlgAbort,
      h.engAbort,
      h.updAbort, h.waitAbort, List.forall_mem_nil _⟩
  unfold Dev.abortTarget
  refine .ite .none (.ite (.some h.hoistDefer) ?_)
  split
  next x aborted => exact .some (simple x aborted)
  · split
    next x aborted => exact .some (h.cocAbort x aborted)
    next x _ aborted => exact .some (h.monAbort x aborted)
    next x _ _ aborted => exact .some (h.canAbort x aborted)
    · exact .ite .none (.some h.fail)

theorem Dev.Canon.abortDispatched {target d t} (h : s.Canon) : (s.abortDispatched target d t).Canon := by
  unfold Dev.abortDispatched
  split
  next x aborted => exact (h.update.abortTarget _ aborted).complete.update
  next x aborted => exact (h.update.abortTarget _ aborted).update
  · exact h.complete

theorem Dev.Canon.keepAbort {a} (h : s.Canon) : (s.keepAbort a).Canon := .ite h h.setHiu

theorem Dev.Canon.hiuAbort {d queued} (h : s.Canon) : (hiuAbort d queued s).Canon := by
  unfold Machine.hiuAbort
  refine .ite h (.ite h.dropFate.fail ?_)
  split
  · exact .ite h.dropFate.fail h.dropFate.abortDispatched.dropFate
  · exact h.dropFate.complete
  · dsimp only
    split
    · exact .ite h.dropFate.fail h.dropFate.keepAbort.complete
    · exact h.dropFate.complete
    · exact h.dropFate.complete

/-! ## The lifetime record (18) -/

theorem Dev.Canon.setChry {f} (h : s.Canon) : (s.setChry f).Canon := h.update

theorem Dev.Canon.beginCommit {cause descs} (h : s.Canon) : (s.beginCommit cause descs).Canon :=
  .setChry (.ite h.update h)

theorem Dev.Canon.commitRecord {cause d} (h : s.Canon) : (s.commitRecord cause d).Canon := by
  unfold Dev.commitRecord
  refine .ite h ?_
  split
  · exact h.beginCommit
  · exact .ite h.beginCommit h.setChry

theorem Dev.Canon.captureCounter {start k now} (h : s.Canon) : (s.captureCounter start k now).2.Canon :=
  .ite_snd h h.drawn

theorem Dev.Canon.capture {start} (h : s.Canon) : (s.capture start).2.Canon := .foldl_snd .captureCounter h

theorem Dev.Canon.chrCommitted (h : s.Canon) : (chrCommitted s).Canon := by
  unfold Machine.chrCommitted
  split
  · exact h
  · exact .seq h.savePosition.saveTable.capture.setChry fun h1 => .foldl .complete (.event (.ite h1.update h1))

theorem Dev.Canon.chrPeriodExpiry (h : s.Canon) : (chrPeriodExpiry s).Canon := .ite h.commitRecord h

theorem Dev.Canon.tornCommit (h : s.Canon) : s.tornCommit.Canon :=
  .ite (.seq h.drawn fun h1 => .seq (.ite h1.savePosition h1) fun h2 => .ite h2.saveTable h2) h

theorem Dev.Canon.chrMount {corrected uncorr badA badB} (h : s.Canon) :
    (chrMount corrected uncorr badA badB s).Canon := by
  unfold Machine.chrMount
  refine .ite h ?_
  dsimp only
  split
  · exact .event (.event (.bootStage (.setCpf (.setChry (.chrAdd (.chrAdd h.update))))))
  · exact .event (.bootStage (.setCpf (.setChry (.chrAdd (.chrAdd h.update)))))

theorem Dev.Canon.chrRead {d} (h : s.Canon) : (chrRead d s).Canon := by
  unfold Machine.chrRead
  refine .ite h (.ite h.fail ?_)
  split
  · exact h.fail
  · split
    · exact h.fail
    · exact h.hostWrite.complete

theorem Dev.Canon.chrCommit {d} (h : s.Canon) : (chrCommit d s).Canon := .ite h.fail (.ite h h.commitRecord)

/-! ## Power and start-up (17) -/

theorem Dev.Canon.setPmu {f} (h : s.Canon) : (s.setPmu f).Canon := h.update
theorem Dev.Canon.resetLogic {cause held} (_h : s.Canon) : (s.resetLogic cause held).Canon := .ptPins (.update .reset)

theorem Dev.Canon.startUp {fuseOk corrected} (h : s.Canon) : (s.startUp fuseOk corrected).Canon :=
  .seq (.chrInc (.setPmu h.update)) fun h1 => .ite h1.chrInc h1

theorem Dev.Canon.letGo {bit fuseOk corrected} (h : s.Canon) : (s.letGo bit fuseOk corrected).Canon :=
  .ite (.seq h.setPmu fun h1 => .ite h1.startUp h1) h

theorem Dev.Canon.porstNLow (h : s.Canon) : (porstNLow s).Canon := h.resetLogic
theorem Dev.Canon.porstNRelease {fuseOk corrected} (h : s.Canon) : (porstNRelease fuseOk corrected s).Canon := h.letGo
theorem Dev.Canon.supplyReset {i} (h : s.Canon) : (supplyReset i s).Canon := h.resetLogic

theorem Dev.Canon.supplyMonitorRelease {i fuseOk corrected} (h : s.Canon) :
    (supplyMonitorRelease i fuseOk corrected s).Canon :=
  h.letGo

theorem Dev.Canon.pllLockLost (h : s.Canon) : (pllLockLost s).Canon := .ite h.resetLogic h

theorem Dev.Canon.pllRelockRelease {fuseOk corrected} (h : s.Canon) : (pllRelockRelease fuseOk corrected s).Canon :=
  h.letGo

theorem Dev.Canon.clearStatus {lo hi} (h : s.Canon) : (s.clearStatus lo hi).Canon := by
  unfold Dev.clearStatus
  refine .foldl (fun h1 => .ite ?_ h1) h
  split
  · exact h1.setReg
  · exact h1

theorem Dev.Canon.pd6Off (h : s.Canon) : s.pd6Off.Canon := .clearStatus h.update
theorem Dev.Canon.pd5Off (h : s.Canon) : s.pd5Off.Canon := .clearStatus (.setPmu h.update)

theorem Dev.Canon.pd5On (h : s.Canon) : s.pd5On.Canon :=
  .seq h.setPmu fun h1 => .ite (.seq h1.update fun h2 => .ite h2.rejoin h2) h1

theorem Dev.Canon.pd8Off (h : s.Canon) : s.pd8Off.Canon := .clearStatus (.clearStatus h.update)
theorem Dev.Canon.pd7Off (h : s.Canon) : s.pd7Off.Canon := h.hostSideReset.setHiu.clearStatus
theorem Dev.Canon.enginesOff (h : s.Canon) : s.enginesOff.Canon := h.update
theorem Dev.Canon.pd9Off (h : s.Canon) : s.pd9Off.Canon := kwf_filter 0 _ _ h

theorem Dev.Canon.domainsOff {dest} (h : s.Canon) : (s.domainsOff dest).Canon :=
  .seq h.pd9Off.pd6Off.pd5Off.enginesOff fun h1 => .ptPins (.setPmu (.ite h1.pd8Off.pd7Off h1))

theorem Dev.Canon.refill (h : s.Canon) : s.refill.Canon := .foldl (fun h1 => h1.initArea.initArea) h

theorem Dev.Canon.domainsBack (h : s.Canon) : s.domainsBack.Canon :=
  .pd5On (.refill (.ptPins (.setPmu (.foldl (fun h1 => .ite h1.clusterOn h1) h))))

theorem Dev.Canon.noteConditions (h : s.Canon) : s.noteConditions.Canon := h.setPmu
theorem Dev.Canon.entryStore (h : s.Canon) : s.entryStore.Canon := .ite h.setPmu.commitRecord.storePosition h

theorem Dev.Canon.startEntry {dest} (h : s.Canon) : (s.startEntry dest).Canon :=
  .seq h.setPmu fun h1 => .ite h1 (.entryStore (.ite h1.update h1))

theorem Dev.Canon.frameBoundary (h : s.Canon) : s.frameBoundary.Canon := by
  unfold Dev.frameBoundary
  split
  · exact .ite h (.ite h.setPmu h.entryStore)
  · exact .ite h.setPmu h

theorem Dev.Canon.cancelEntry (h : s.Canon) : s.cancelEntry.Canon :=
  .seq h.setPmu fun h1 => .ite (.seq h1.update fun h2 => .ite h2.rejoin h2) h1

theorem Dev.Canon.followTarget (h : s.Canon) : s.followTarget.Canon :=
  .ite h.startEntry (.ite (.setPmu (.ite h.emit.setPmu h)) h)

theorem Dev.Canon.takeTarget {t} (h : s.Canon) : (s.takeTarget t).Canon := by
  dsimp only [Dev.takeTarget]
  split
  · exact h.setPmu.followTarget
  · exact .ite h.setPmu h.setPmu.cancelEntry.followTarget
  · exact h.setPmu
  · exact h.setPmu

theorem Dev.Canon.powerEntryDelayExpiry {k} (h : s.Canon) : (powerEntryDelayExpiry k s).Canon :=
  .seq h.noteConditions fun h1 => .ite h1.takeTarget h1

theorem Dev.Canon.powerStateEntry (h : s.Canon) : (powerStateEntry s).Canon := by
  unfold Machine.powerStateEntry
  split
  · exact .ite h.domainsOff.setPmu h
  · exact h

theorem Dev.Canon.settleIn {k} (h : s.Canon) : (s.settleIn k).Canon :=
  .seq h.setPmu fun h1 => .followTarget (.event (.ite h1 (.ite h1.chrInc (.ite h1.chrInc h1))))

theorem Dev.Canon.pmuState (h : s.Canon) : (pmuState s).Canon := by
  unfold Machine.pmuState
  split
  · exact .ite h.settleIn h
  · exact h.settleIn
  · exact .settleIn (.ite h.domainsBack (.ite h.setPmu h))
  · exact h

theorem Dev.Canon.wake {source object} (h : s.Canon) : (s.wake source object).Canon := by
  unfold Dev.wake
  split
  · exact h
  · exact .ite h.setPmu.event.noteConditions.takeTarget h

theorem Dev.Canon.powerTargetChange (h : s.Canon) : (powerTargetChange s).Canon := by
  dsimp only [Machine.powerTargetChange]
  split
  · exact .ite h.noteConditions.wake h.noteConditions.takeTarget
  · exact .ite h.noteConditions.wake h.noteConditions.takeTarget
  · exact h.noteConditions.takeTarget

theorem Dev.Canon.pmuTimerExpiry (h : s.Canon) : (pmuTimerExpiry s).Canon := by
  dsimp only [Machine.pmuTimerExpiry]
  split
  · exact h
  · exact .ite h.wake h

theorem Dev.Canon.pmuPowerFail {pfLow vddLow vdd} (h : s.Canon) : (pmuPowerFail pfLow vddLow vdd s).Canon :=
  .ite h (.seq h.setPmu fun h1 => .ite h1.setPmu.setBit.event.chrInc.commitRecord.storePosition h1)

theorem Dev.Canon.pmuPowerOk {vdd} (h : s.Canon) : (pmuPowerOk vdd s).Canon := .seq h.setPmu fun h1 => .ite h1 h1.event
theorem Dev.Canon.rootPllLock (h : s.Canon) : (rootPllLock s).Canon := .ite h rfl

theorem Dev.Canon.loadTarget {okA okB pkg t} (h : s.Canon) : (s.loadTarget okA okB pkg t).Canon := by
  dsimp only [Dev.loadTarget]
  split
  · exact h.setPmu
  · exact .seq (.setPmu h.update) fun h1 => .ite h1.clusterOn h1

theorem Dev.Canon.firmwareLoadComplete {okA okB pkg} (h : s.Canon) : (firmwareLoadComplete okA okB pkg s).Canon :=
  .ite h (.seq (.setPmu (.foldl .loadTarget h)) fun h1 => .ite h1.admitFirmware h1)

theorem Dev.Canon.devReady (h : s.Canon) : (devReady s).Canon := .ite h.setPmu.emit h
theorem Dev.Canon.pmuStatus {d} (h : s.Canon) : (pmuStatus d s).Canon := .ite h.fail h.complete
theorem Dev.Canon.pmuReset {d} (h : s.Canon) : (pmuReset d s).Canon := .ite h.fail h.setPmu

theorem Dev.Canon.pmuResetDelayExpiry {fuseOk corrected} (h : s.Canon) :
    (pmuResetDelayExpiry fuseOk corrected s).Canon := by
  unfold Machine.pmuResetDelayExpiry
  split
  · exact .ite h.resetLogic.startUp h
  · exact h

/-! ## Firmware update (18) -/

theorem Dev.Canon.setTarget {t x} (h : s.Canon) : (s.setTarget t x).Canon := h.update
theorem Dev.Canon.setUpdOp {o} (h : s.Canon) : (s.setUpdOp o).Canon := h.update
theorem Dev.Canon.setFlashByte {a b} (h : s.Canon) : (s.setFlashByte a b).Canon := h.update

theorem Dev.Canon.setFlashBytes {a b} (h : s.Canon) : (s.setFlashBytes a b).Canon := by
  induction b generalizing s a with
  | nil => exact h
  | cons b t ih => exact ih h.setFlashByte

theorem Dev.Canon.confirmTrial {t byCommand} (h : s.Canon) : (s.confirmTrial t byCommand).Canon := h.setTarget.event

theorem Dev.Canon.runImage {o} (h : s.Canon) : (s.runImage o).Canon :=
  .seq h.setTarget fun h1 => .ite (.ite h1.setPmu h1) (.ite h1.clusterOn.setTlg h1.pd5Off.pd5On)

theorem Dev.Canon.updActivated (h : s.Canon) : (updActivated s).Canon := by
  unfold Machine.updActivated
  split
  · exact .ite (.seq h.runImage.setUpdOp fun h1 => .ite h1.event.completeOpt h1.event.completeOpt) h
  · exact h

theorem Dev.Canon.trialTimeout {t} (h : s.Canon) : (trialTimeout t s).Canon := .ite h.confirmTrial h

theorem Dev.Canon.updWrite {d img} (h : s.Canon) : (updWrite d img s).Canon := by
  dsimp only [Machine.updWrite]
  split
  · exact h.fail
  · exact .ite h.fail (.ite h.fail h.setFlashBytes.setTarget.complete)

theorem Dev.Canon.updVerify {d sigOk} (h : s.Canon) : (updVerify d sigOk s).Canon := by
  dsimp only [Machine.updVerify]
  split
  · exact h.fail
  · exact .ite h.setTarget.complete h.complete

theorem Dev.Canon.updateCluster {o} (h : s.Canon) : (s.updateCluster o).Canon := .ite h.setUpdOp.setTlg h.setUpdOp
theorem Dev.Canon.updateMonarch {o} (h : s.Canon) : (s.updateMonarch o).Canon := .ite h.setUpdOp.update h.setUpdOp

theorem Dev.Canon.startUpdate {d t b cause} (h : s.Canon) : (s.startUpdate d t b cause).Canon :=
  .ite h.fail (.ite (.ite h.fail h.updateMonarch) (.ite h.fail (.ite h.fail h.updateCluster)))

theorem Dev.Canon.updActivate {d} (h : s.Canon) : (updActivate d s).Canon := by
  dsimp only [Machine.updActivate]
  split
  · exact h.fail
  · exact .ite h.fail h.startUpdate

theorem Dev.Canon.updConfirm {d} (h : s.Canon) : (updConfirm d s).Canon := by
  dsimp only [Machine.updConfirm]
  split
  · exact h.fail
  · exact .ite h.fail (.ite h.fail h.confirmTrial.complete)

theorem Dev.Canon.updRollback {d} (h : s.Canon) : (updRollback d s).Canon := by
  dsimp only [Machine.updRollback]
  split
  · exact h.fail
  · exact .ite (.startUpdate (.ite h.setTarget h)) (.ite h.startUpdate h.fail)

/-! ## Registers (19) -/

theorem Dev.Canon.beforeWrite {base n} (h : s.Canon) : (s.beforeWrite base n).Canon := .ite h.settleMode h

theorem Dev.Canon.afterWrite {base n old} (h : s.Canon) (_h : old.Canon) : (s.afterWrite base n old).Canon :=
  .ite (.ptPins (.ite h.update h.update)) (.ite h.settleMode (.ite h.update (.ite h.feedKey (.ite h.feedKey h))))

theorem Dev.Canon.plainWrite {r off v} (h : s.Canon) : (s.plainWrite r off v).Canon := by
  dsimp only [Dev.plainWrite]
  split
  · exact h.beforeWrite.setReg.afterWrite h
  · refine .seq ?_ fun h1 => .ite h1 h1.setReg
    split
    · exact .ite h.setBit h
    · exact h

theorem Dev.Canon.writeReg {off v queued} (h : s.Canon) : (s.writeReg off v queued).Canon := by
  unfold Dev.writeReg
  split
  · exact h
  · refine .ite h ?_
    split
    · exact h.pfiQcfgWrite
    · exact h.pfiScfgWrite
    · exact h.cpfCfgWrite
    · exact h.hwkLock
    · exact h.stlCfgWrite
    · exact h.canCfgWrite
    · exact h.spiCfgWrite
    · exact h.hiuAqCtrlWrite
    · exact .ite h.hwkRuleWrite (.ite h.hiuAqFieldWrite h.plainWrite)

theorem Dev.Canon.registerWrite {off size v queued} (h : s.Canon) : (registerWrite off size v queued s).Canon :=
  .ite h.writeReg (.ite h.writeReg.writeReg (.ite h h.configIgnored))

theorem Dev.Canon.configWrite {off v} (h : s.Canon) : (configWrite off v s).Canon := by
  unfold Machine.configWrite
  split
  · exact h.setHiu
  · exact h.setHiu
  · exact h

theorem Dev.Canon.hostSpaceWrite {off size v queued} (h : s.Canon) : (hostSpaceWrite off size v queued s).Canon := by
  unfold Machine.hostSpaceWrite
  split
  · exact h.whenBar .registerWrite
  · split
    · exact h.whenBar .bar2Write
    · refine h.whenOn fun h => ?_
      split
      · exact h.configWrite
      · exact h

theorem Dev.Canon.bar0Word {off} (h : s.Canon) : (s.bar0Word off).2.Canon := by
  unfold Dev.bar0Word
  split
  · exact h
  · exact h.update

theorem Dev.Canon.loRegisterCapture {a} (h : s.Canon) : (loRegisterCapture a s).Canon :=
  .ite h.bar0Word.bar0Word.emit.emit (.ite h.bar0Word.emit h.emit)

theorem Dev.Canon.hostSpaceRead {a} (h : s.Canon) : (hostSpaceRead a s).Canon := by
  unfold Machine.hostSpaceRead
  split
  · exact h.whenBar .loRegisterCapture
  · split
    · exact h.whenBar .emit
    · exact h.whenOn .emit

theorem Dev.Canon.hiuIdentify {d} (h : s.Canon) : (hiuIdentify d s).Canon := .ite h.fail h.hostWrite.complete

/-! ## The nanosecond -/

theorem Dev.Canon.countSpeed (h : s.Canon) : s.countSpeed.Canon := .ite h.chrInc h
theorem Dev.Canon.countTemps (h : s.Canon) : s.countTemps.Canon := h.drawn.chrInc.chrInc

theorem Dev.Canon.countNs (h : s.Canon) : s.countNs.Canon :=
  .ite (.seq (.update h.update) fun h1 => .seq (.ite h1.chrInc h1) fun h2 => .seq (.ite h2.countSpeed h2) fun h3 => .ite
    h3.countTemps h3) h.update

theorem Dev.Canon.eccTick (h : s.Canon) : s.eccTick.Canon := .ite h (.seq h.drawn fun h1 => .ite (.chrInc h1.update) h1)
theorem Dev.Canon.nanosecond (h : s.Canon) : s.nanosecond.Canon := h.countNs.eccTick.ptpTick

end

/-! ## Every command -/

/-- The block an outcome goes on with is canonical. -/
def OutcomeCanon (o : Host.Outcome State Fault Refusal) : Prop := ∀ t, o = .next t → t.dev.Canon

theorem OutcomeCanon.upd {s : State} {f} (h : s.dev.Canon) (hf : ∀ {t : Dev}, t.Canon → (f t).Canon) :
    OutcomeCanon (s.upd f) := by
  rintro _ ⟨⟩
  exact hf h

theorem OutcomeCanon.cmd {s : State} {d f} (h : s.dev.Canon) (hf : ∀ {t : Dev}, t.Canon → (f t).Canon) :
    OutcomeCanon (s.cmd d f) := .upd h (.whenSent hf)

theorem OutcomeCanon.updIn {s : State} {d img f} (h : s.dev.Canon) (hf : ∀ {t : Dev}, t.Canon → (f t).Canon) :
    OutcomeCanon (s.updIn d img f) := .cmd h fun ht => .ite (hf ht.charge) ht

/-- Every command keeps the SRAM canonical, by the lemma about its row. -/
theorem exec_canon (c : Instr) {s : State} (h : s.dev.Canon) : OutcomeCanon (exec c s) := by
  cases c with
  | registerWrite => exact .upd h .hostSpaceWrite
  | loRegisterCapture => exact .upd h .hostSpaceRead
  | ssiFrameComplete => exact .upd h (.whenOn .ssiFrameComplete)
  | count => exact .upd h (.whenOn .count)
  | indexCheck => exact .upd h (.whenOn .indexCheck)
  | indexGoesActive => exact .upd h (.whenOn .indexGoesActive)
  | zeroSpeedTimeout => exact .upd h (.whenOn .zeroSpeedTimeout)
  | pfiQcfgWrite => exact .upd h (.whenBar .pfiQcfgWrite)
  | pfiScfgWrite => exact .upd h (.whenBar .pfiScfgWrite)
  | pfiRead => exact .cmd h (.whenOn (.atEdge .pfiRead))
  | pfiSetPos => exact .cmd h (.whenOn (.atEdge .pfiSetPos))
  | pfiCmpArm => exact .cmd h (.whenOn (.atEdge .pfiCmpArm))
  | pfiCmpDisarm => exact .cmd h (.whenOn (.atEdge .pfiCmpDisarm))
  | pfiClear => exact .cmd h (.whenOn (.atEdge .pfiClear))
  | pfiLatch => exact .cmd h (.whenOn (.atEdge .pfiLatch))
  | cpfPeriod => exact .upd h (.whenCpf .cpfPeriod)
  | trackReadmitted => exact .upd h (.whenCpf .trackReadmitted)
  | revalidation => exact .upd h (.whenCpf .revalidation)
  | autoCorrectionStart => exact .upd h (.whenCpf .autoCorrectionStart)
  | learnRunComplete => exact .upd h (.whenCpf .learnRunComplete)
  | learnPassTimeout => exact .upd h (.whenCpf .learnPassTimeout)
  | correctionRunComplete => exact .upd h (.whenCpf .correctionRunComplete)
  | cpfCfgWrite => exact .upd h (.whenBar .cpfCfgWrite)
  | cpfRead => exact .cmd h (.whenCpf .cpfRead)
  | cpfSetLoad => exact .cmd h (.whenCpf .cpfSetLoad)
  | cpfLearn => exact .cmd h (.whenCpf .cpfLearn)
  | cpfCorrect => exact .cmd h (.whenCpf .cpfCorrect)
  | cpfTableRead => exact .cmd h (.whenCpf .cpfTableRead)
  | cpfTableWrite => exact .updIn h (.whenCpf .cpfTableWrite)
  | cpfTableCommit => exact .cmd h (.whenCpf .cpfTableCommit)
  | msqProfileStep => exact .upd h (.whenOn (fun h1 => h1.msqProfileStep.carStatus))
  | hoistDwellEnd => exact .upd h (.whenOn .hoistDwellEnd)
  | hoistStartTimeout => exact .upd h (.whenOn .hoistStartTimeout)
  | hoistStopTimeout => exact .upd h (.whenOn .hoistStopTimeout)
  | relevelStart => exact .upd h (.whenOn .relevelStart)
  | drvSetpointFrame => exact .upd h (.whenOn .drvSetpointFrame)
  | drvStatusFrame => exact .upd h (.whenOn .drvStatusFrame)
  | drvStatusWindowExpiry => exact .upd h (.whenOn .drvStatusWindowExpiry)
  | drvHelloAck => exact .upd h (.whenOn .drvHelloAck)
  | drvNegotiationTimeout => exact .upd h (.whenOn .drvNegotiationTimeout)
  | drvEnableTimeout => exact .upd h (.whenOn .drvEnableTimeout)
  | drvFaultResetTimeout => exact .upd h (.whenOn .drvFaultResetTimeout)
  | msqHEnable => exact .cmd h (.whenOn .msqHEnable)
  | msqHDisable => exact .cmd h (.whenOn .msqHDisable)
  | msqHGoto => exact .cmd h (.whenOn .msqHGoto)
  | msqHSpeed => exact .cmd h (.whenOn .msqHSpeed)
  | msqHStop => exact .cmd h (.whenOn .msqHStop)
  | msqHRead => exact .cmd h (.whenOn .msqHRead)
  | drvFaultReset => exact .cmd h (.whenOn .drvFaultReset)
  | drvRead => exact .cmd h (.whenOn .drvRead)
  | msqDoorStep => exact .upd h (.whenOn (fun h1 => h1.msqDoorStep.carStatus))
  | commutationStep => exact .upd h (.whenOn .commutationStep)
  | doorLimiterEvaluation => exact .upd h (.whenOn .doorLimiterEvaluation)
  | quietModeEntry => exact .upd h (.whenOn .quietModeEntry)
  | homeReferenceDone => exact .upd h (.whenOn .homeReferenceDone)
  | alignDone => exact .upd h (.whenOn .alignDone)
  | doorMotionTimeout => exact .upd h (.whenOn .doorMotionTimeout)
  | camCheckComplete => exact .upd h (.whenOn .camCheckComplete)
  | msqDEnable => exact .cmd h (.whenOn .msqDEnable)
  | msqDDisable => exact .cmd h (.whenOn .msqDDisable)
  | msqDOpen => exact .cmd h (.whenOn .msqDOpen)
  | msqDClose => exact .cmd h (.whenOn .msqDClose)
  | msqDGoto => exact .cmd h (.whenOn .msqDGoto)
  | msqDStop => exact .cmd h (.whenOn .msqDStop)
  | msqDCamLoad => exact .updIn h (.whenOn .msqDCamLoad)
  | msqDSineLoad => exact .updIn h (.whenOn .msqDSineLoad)
  | msqDRead => exact .cmd h (.whenOn .msqDRead)
  | msqBSet => exact .cmd h (.whenOn .msqBSet)
  | framePhaseZero => exact .upd h (.whenOn (fun h1 => h1.frameBoundary.framePhaseZero))
  | lpeParamWrite => exact .updIn h (.whenOn .lpeParamWrite)
  | lpeCommit => exact .cmd h (.whenOn .lpeCommit)
  | lpeHandover => exact .cmd h (.whenOn .lpeHandover)
  | lpeRead => exact .cmd h (.whenOn .lpeRead)
  | lpeTableLoad => exact .updIn h (.whenOn .lpeTableLoad)
  | hwkEvaluation => exact .upd h .hwkEvaluation
  | hwkCocoonEvaluation => exact .upd h .hwkCocoonEvaluation
  | hwkSpeedUpdate => exact .upd h .hwkSpeedUpdate
  | hwkQ1Count => exact .upd h .hwkQ1Count
  | hwkClockCheck => exact .upd h .hwkClockCheck
  | hwkSpeedCauseRelease => exact .upd h .hwkSpeedCauseRelease
  | hwkParkStart => exact .upd h .hwkParkStart
  | enableTimebaseEdge => exact .upd h .enableTimebaseEdge
  | enableReadback => exact .upd h .enableReadback
  | hwkLock => exact .upd h (.whenBar .hwkLock)
  | hwkRecordDelivery => exact .upd h .hwkRecordDelivery
  | hawkmothOscillatorStop => exact .upd h .hawkmothOscillatorStop
  | hwkRulesLoad => exact .updIn h .hwkRulesLoad
  | hwkStatus => exact .cmd h .hwkStatus
  | hwkRulesRead => exact .cmd h .hwkRulesRead
  | monApplyCall => exact .upd h (.whenOn (fun h1 => h1.monApplyCall.carStatus))
  | monApplyCancel => exact .upd h (.whenOn (fun h1 => h1.monApplyCancel.carStatus))
  | monApplyCarStatus => exact .upd h (.whenOn (fun h1 => h1.monApplyCarStatus.carStatus))
  | monApplyTick => exact .upd h (.whenOn (fun h1 => h1.monApplyTick.carStatus))
  | monEvaluationComplete => exact .upd h (.whenOn .monEvaluationComplete)
  | monCall => exact .cmd h (.whenOn .monCall)
  | monCancel => exact .cmd h (.whenOn .monCancel)
  | monCarMode => exact .cmd h (.whenOn .monCarMode)
  | monTripRead => exact .cmd h (.whenOn .monTripRead)
  | monCarRead => exact .cmd h (.whenOn .monCarRead)
  | monFttLoad => exact .updIn h (.whenOn .monFttLoad)
  | monConfigLoad => exact .updIn h (.whenOn .monConfigLoad)
  | monConfigCommit => exact .cmd h (.whenOn .monConfigCommit)
  | monCarDoors => exact .cmd h (.whenOn .monCarDoors)
  | heartbeatSend => exact .upd h (.whenGrp .heartbeatSend)
  | heartbeatReceived => exact .upd h (.whenGrp .heartbeatReceived)
  | eventRecordReceived => exact .upd h (.whenGrp .eventRecordReceived)
  | gapRetx => exact .upd h (.whenGrp .gapRetx)
  | retxReceived => exact .upd h (.whenGrp .retxReceived)
  | grpPeerLost => exact .upd h (.whenGrp .grpPeerLost)
  | flushReceived => exact .upd h (.whenGrp .flushReceived)
  | flushWaitExpiry => exact .upd h (.whenGrp .flushWaitExpiry)
  | epochStartReceived => exact .upd h (.whenGrp .epochStartReceived)
  | epochStartApply => exact .upd h (.whenGrp .epochStartApply)
  | epochStartTimeout => exact .upd h (.whenGrp .epochStartTimeout)
  | cutTimeout => exact .upd h (.whenGrp .cutTimeout)
  | snapReceived => exact .upd h (.whenGrp .snapReceived)
  | grpSnapshotDone => exact .upd h (.whenGrp .grpSnapshotDone)
  | installTimeout => exact .upd h (.whenGrp .installTimeout)
  | groupFormation => exact .upd h (.whenGrp .groupFormation)
  | localCommit => exact .upd h (.whenOn .localCommit)
  | grpConfig => exact .cmd h (.whenOn .grpConfig)
  | grpJoin => exact .cmd h (.whenOn .grpJoin)
  | grpLeave => exact .cmd h (.whenOn .grpLeave)
  | grpStatus => exact .cmd h (.whenOn .grpStatus)
  | grpSnapshotRead => exact .cmd h (.whenOn .grpSnapshotRead)
  | portLinkChange => exact .upd h (.whenOn .portLinkChange)
  | portRecovery => exact .upd h (.whenOn .portRecovery)
  | groupFrameCopyReceived => exact .upd h (.whenOn .groupFrameCopyReceived)
  | skewWindowClose => exact .upd h (.whenOn .skewWindowClose)
  | senderForget => exact .upd h (.whenOn .senderForget)
  | ptpMessageReceived => exact .upd h (.whenOn .ptpMessageReceived)
  | ptpSyncSend => exact .upd h (.whenOn .ptpSyncSend)
  | hostFrameReceived => exact .upd h (.whenOn .hostFrameReceived)
  | hostFrameStart => exact .upd h (.whenOn .hostFrameStart)
  | canFrameReceived => exact .upd h (.whenOn .canFrameReceived)
  | canTxAttemptEnd => exact .upd h (.whenOn .canTxAttemptEnd)
  | canBusoffRecovery => exact .upd h (.whenOn .canBusoffRecovery)
  | spiPeriod => exact .upd h (.whenOn .spiPeriod)
  | spiTransactionsComplete => exact .upd h (.whenOn .spiTransactionsComplete)
  | stlCfgWrite => exact .upd h (.whenBar .stlCfgWrite)
  | canCfgWrite => exact .upd h (.whenBar .canCfgWrite)
  | spiCfgWrite => exact .upd h (.whenBar .spiCfgWrite)
  | stlTx => exact .updIn h (.whenOn .stlTx)
  | stlRx => exact .cmd h (.whenOn .stlRx)
  | stlStatus => exact .cmd h (.whenOn .stlStatus)
  | canTx => exact .updIn h (.whenOn .canTx)
  | canRx => exact .cmd h (.whenOn .canRx)
  | canRecover => exact .cmd h (.whenOn .canRecover)
  | spiProg => exact .updIn h (.whenOn .spiProg)
  | spiRead => exact .cmd h (.whenOn .spiRead)
  | dutyRelease => exact .upd h (.whenOn .dutyRelease)
  | arbiterCopyCommit => exact .upd h .arbiterCopyCommit
  | dutyDeadline => exact .upd h .dutyDeadline
  | reexecutionComplete => exact .upd h .reexecutionComplete
  | engFault => exact .upd h .engFault
  | tlgOverrun => exact .upd h .tlgOverrun
  | clusterUpComplete => exact .upd h .clusterUpComplete
  | engStatus => exact .cmd h .engStatus
  | engClusterDown => exact .cmd h .engClusterDown
  | engClusterUp => exact .cmd h .engClusterUp
  | engRestart => exact .cmd h .engRestart
  | vNop => exact .upd h .volerStep
  | vLoop => exact .upd h .volerStep
  | vEnd => exact .upd h .volerStep
  | vLdi => exact .upd h .volerStep
  | vLdih => exact .upd h .volerStep
  | vLda => exact .upd h .volerStep
  | vMva => exact .upd h .volerStep
  | vMov => exact .upd h .volerStep
  | vSel => exact .upd h .volerStep
  | vLd => exact .upd h .volerStep
  | vSt => exact .upd h .volerStep
  | vLd2 => exact .upd h .volerStep
  | vSta => exact .upd h .volerStep
  | vAdd => exact .upd h .volerStep
  | vSub => exact .upd h .volerStep
  | vNeg => exact .upd h .volerStep
  | vAbs => exact .upd h .volerStep
  | vAnd => exact .upd h .volerStep
  | vOr => exact .upd h .volerStep
  | vXor => exact .upd h .volerStep
  | vShl => exact .upd h .volerStep
  | vShr => exact .upd h .volerStep
  | vCmp => exact .upd h .volerStep
  | vMin => exact .upd h .volerStep
  | vMax => exact .upd h .volerStep
  | vAddi => exact .upd h .volerStep
  | vMac => exact .upd h .volerStep
  | vMac2 => exact .upd h .volerStep
  | vDmac => exact .upd h .volerStep
  | vMacm => exact .upd h .volerStep
  | vTapx => exact .upd h .volerStep
  | vAdda => exact .upd h .volerStep
  | vAccld => exact .upd h .volerStep
  | vAsh => exact .upd h .volerStep
  | vRda => exact .upd h .volerStep
  | vRdesr => exact .upd h .volerStep
  | vWresr => exact .upd h .volerStep
  | krnLoad => exact .updIn h .krnLoad
  | krnUnload => exact .cmd h .krnUnload
  | krnRead => exact .cmd h .krnRead
  | ledgerAnalysisComplete => exact .upd h .ledgerAnalysisComplete
  | tlgCommit => exact .upd h .tlgCommit
  | tlgConfig => exact .updIn h .tlgConfig
  | tlgCheck => exact .updIn h .tlgCheck
  | tlgRead => exact .cmd h .tlgRead
  | tlgMigrate => exact .cmd h .tlgMigrate
  | tlgList => exact .cmd h .tlgList
  | descriptorDispatch => exact .upd h .descriptorDispatch
  | sqTail => exact .upd h (.whenDoorbell .sqTail)
  | cqHead => exact .upd h (.whenDoorbell .cqHead)
  | eqHead => exact .upd h (.whenDoorbell .eqHead)
  | msixModerationTimeout => exact .upd h (.whenOn .msixModerationTimeout)
  | msixUnmask => exact .upd h (.whenBar .msixUnmask)
  | hiuCreditRelease => exact .upd h (.whenOn .hiuCreditRelease)
  | hiuAqCtrlWrite => exact .upd h (.whenBar .hiuAqCtrlWrite)
  | qpDrainComplete => exact .upd h (.whenOn .qpDrainComplete)
  | hostSideReset => exact .upd h (.whenOn .hostSideReset)
  | hiuLink => exact .upd h (.whenOn .hiuLink)
  | pcieDStateChange => exact .upd h (.whenOn .pcieDStateChange)
  | hiuHello => exact .cmd h (.whenOn .hiuHello)
  | hiuIdentify => exact .cmd h (.whenOn .hiuIdentify)
  | hiuQpConfig => exact .cmd h (.whenOn .hiuQpConfig)
  | hiuQpEnable => exact .cmd h (.whenOn .hiuQpEnable)
  | hiuQpDisable => exact .cmd h (.whenOn .hiuQpDisable)
  | hiuAbort => exact .cmd h (.whenOn .hiuAbort)
  | hiuQpStatus => exact .cmd h (.whenOn .hiuQpStatus)
  | fieldInputSample => exact .upd h .fieldInputSample
  | outputThermalShutdown => exact .upd h .outputThermalShutdown
  | groupOvercurrent => exact .upd h .groupOvercurrent
  | channelTurningEnd => exact .upd h .channelTurningEnd
  | cocWatchdog => exact .upd h .cocWatchdog
  | vfieldMeasurement => exact .upd h .vfieldMeasurement
  | bridgeSupplyMeasurement => exact .upd h .bridgeSupplyMeasurement
  | cocoonPowerLoss => exact .upd h .cocoonPowerLoss
  | cocoonStart => exact .upd h .cocoonStart
  | cocCalib => exact .upd h .cocCalib
  | tapSample => exact .upd h .tapSample
  | tapDcWindowEnd => exact .upd h .tapDcWindowEnd
  | tapAcTimeout => exact .upd h .tapAcTimeout
  | currentCellDecision => exact .upd h .currentCellDecision
  | blindPhaseTimeout => exact .upd h .blindPhaseTimeout
  | linkSlotStart => exact .upd h .linkSlotStart
  | cocoonDownstreamFrameAccepted => exact .upd h .cocoonDownstreamFrameAccepted
  | cocoonUpstreamFrameAccepted => exact .upd h .cocoonUpstreamFrameAccepted
  | linkSlotMissed => exact .upd h .linkSlotMissed
  | linkTrainingStart => exact .upd h .linkTrainingStart
  | linkTrainingComplete => exact .upd h .linkTrainingComplete
  | cocChConfig => exact .cmd h .cocChConfig
  | cocOutSet => exact .cmd h .cocOutSet
  | cocClear => exact .cmd h .cocClear
  | cocRelease => exact .cmd h .cocRelease
  | cocRead => exact .cmd h .cocRead
  | porstNLow => exact .upd h .porstNLow
  | porstNRelease => exact .upd h .porstNRelease
  | supplyReset => exact .upd h .supplyReset
  | supplyMonitorRelease => exact .upd h .supplyMonitorRelease
  | pmuPowerFail => exact .upd h (.whenOn .pmuPowerFail)
  | pmuPowerOk => exact .upd h (.whenOn .pmuPowerOk)
  | pllLockLost => exact .upd h .pllLockLost
  | pllRelockRelease => exact .upd h .pllRelockRelease
  | rootPllLock => exact .upd h .rootPllLock
  | powerTargetChange => exact .upd h (.whenOn .powerTargetChange)
  | powerEntryDelayExpiry => exact .upd h (.whenOn .powerEntryDelayExpiry)
  | powerStateEntry => exact .upd h (.whenOn .powerStateEntry)
  | pmuState => exact .upd h (.whenOn .pmuState)
  | pmuWake => exact .upd h (.whenOn .wake)
  | pmuTimerExpiry => exact .upd h (.whenOn .pmuTimerExpiry)
  | firmwareLoadComplete => exact .upd h (.whenOn .firmwareLoadComplete)
  | devReady => exact .upd h (.whenOn .devReady)
  | pmuReset => exact .cmd h (.whenOn .pmuReset)
  | pmuResetDelayExpiry => exact .upd h (.whenOn .pmuResetDelayExpiry)
  | pmuStatus => exact .cmd h (.whenOn .pmuStatus)
  | chrMount => exact .upd h (.whenOn .chrMount)
  | chrPeriodExpiry => exact .upd h (.whenOn .chrPeriodExpiry)
  | chrCommitted => exact .upd h (.whenOn .chrCommitted)
  | updActivated => exact .upd h (.whenOn .updActivated)
  | trialTimeout => exact .upd h (.whenOn .trialTimeout)
  | chrRead => exact .cmd h (.whenOn .chrRead)
  | chrCommit => exact .cmd h (.whenOn .chrCommit)
  | updWrite => exact .updIn h (.whenOn .updWrite)
  | updVerify => exact .cmd h (.whenOn .updVerify)
  | updActivate => exact .cmd h (.whenOn .updActivate)
  | updConfirm => exact .cmd h (.whenOn .updConfirm)
  | updRollback => exact .cmd h (.whenOn .updRollback)

/-- Settles O57: a step runs a command, which keeps the form, or lets a nanosecond pass. -/
theorem sramStaysCanonical : Obligations.SramStaysCanonical := by
  unfold Obligations.SramStaysCanonical
  intro s t h stepped
  unfold step at stepped
  split at stepped
  · exact OutcomeCanon.upd (s := s) h .nanosecond t stepped
  next c rest _ => exact exec_canon c (s := { s with pending := rest }) h t stepped

end Sys2Proof.Machine
end
